-- ==== Sys2Proof/Word.lean ====
section
/-! DEFINITION. The machine words of the Unvin block: a register word is 32 bits, a line is 64 bytes. -/

namespace Sys2Proof

/-- A register word (R451: every access is one whole 32-bit word). -/
abbrev Word := BitVec 32

/-- A byte. -/
abbrev Byte := BitVec 8

/-- A 64-byte line of pooled or device memory, byte 0 in the low bits. -/
abbrev Line := BitVec 512

end Sys2Proof
end

