-- ==== Sys2Proof/Types.lean ====
section
/-! DEFINITION. The alternatives and records that commands carry and that the state holds:
codes of requests, refusals, statuses and completions, and the messages of the Link Ports. -/

namespace Sys2Proof.Machine

/-- The protection class of a region (R16, R89 word 0 bits [2:1]). -/
inductive RClass where
  | sealed | blind | link
  deriving DecidableEq, Repr

/-- Life of a region (R89 word 0 bits [4:3]). -/
inductive RState where
  | active | creating | destroying
  deriving DecidableEq, Repr

/-- The kinds of request the Gate judges (R51, R295, R25): Transaction Port operations, slot operations
and CFE transfers. -/
inductive ReqKind where
  | load | store | add | min | max | cas | reduceMin | reduceMax | gather | filter
  | blindPut | blindTake
  | copyIn | copyOut | reduceAcc | shapeWrite | shapeRead | bulk
  deriving DecidableEq, Repr

/-- Gate refusal codes (R53); `none` is the grant. -/
inductive GateCode where
  | none | retry | noWindow | perm | classOp | gatewayOnly | fenced | sliceGone
  deriving DecidableEq, Repr

/-- RSP_STATUS and RD_STATUS (R56). -/
inductive PortStatus where
  | ok | deadTarget | aborted | uncertain | authFail
  deriving DecidableEq, Repr

/-- Completion codes of CFE operations and fence statuses (R274). -/
inductive CC where
  | ok | authFail | stateRefused | incomplete | atomicUncertain | deadTarget | aborted | orphaned
  | malformed | timeout
  deriving DecidableEq, Repr

/-- Response status of a fabric message (R170); 4 to 7 are reserved. -/
inductive FabStatus where
  | ok | conditionFailed | noTarget | refused
  deriving DecidableEq, Repr

/-- Power rungs (R38). -/
inductive Rung where
  | u0 | u1 | u2 | u3 | u4 | u5
  deriving DecidableEq, Repr

/-- Who a transaction belongs to (sources of GATE.LAST_REFUSE, SEAL.LAST_ALARM and LINK.LAST_DEAD). -/
inductive Source where
  | utp (port : Fin 8)
  | sched
  | cfe (queue : Nat) (op : Nat)
  | pump
  | gktFetch
  | gateway
  | control
  | left         -- an operation that has completed before its transfer was answered
  deriving DecidableEq, Repr

/-- Life-cycle states (R377). -/
inductive Lcs where
  | raw | test | dev | prod | prodOpen | rma | scrap
  deriving DecidableEq, Repr

/-- A 64-byte line with its 32-bit side-band metadata word (R109, R110). -/
structure SealedLine where
  /-- The 64 bytes as carried. -/
  data : Line
  /-- The metadata word: lc, etag, mac. -/
  tagWord : Word
  deriving DecidableEq, Repr

/-- A request on a Transaction Port, as its signals carry it (R51). -/
structure UtpReq where
  /-- REQ_OP. -/
  op : BitVec 4
  /-- REQ_ADDR. -/
  addr : BitVec 52
  /-- REQ_LINES, lines minus 1. -/
  lines : BitVec 2
  /-- REQ_ATYPE. -/
  atype : BitVec 2
  /-- REQ_TAG. -/
  tag : BitVec 10
  /-- REQ_PASID. -/
  pasid : BitVec 20
  /-- REQ_DEADLINE. -/
  deadline : BitVec 16
  deriving DecidableEq, Repr

/-- The fields of a header flit (R167), decoded. -/
structure Header where
  /-- op. -/
  op : BitVec 8
  /-- vc. -/
  vc : BitVec 2
  /-- cls. -/
  cls : BitVec 3
  /-- dflits. -/
  dflits : BitVec 5
  /-- resp. -/
  resp : Bool
  /-- status. -/
  status : BitVec 3
  /-- dmode. -/
  dmode : BitVec 2
  /-- src. -/
  src : BitVec 16
  /-- dst. -/
  dst : BitVec 16
  /-- Pool address. -/
  addr : BitVec 46
  /-- rack. -/
  rack : BitVec 4
  /-- lines. -/
  lines : BitVec 7
  /-- arg. -/
  arg : BitVec 8
  /-- txn. -/
  txn : BitVec 32
  /-- pgen. -/
  pgen : BitVec 8
  deriving DecidableEq, Repr

/-- A message of the Link Ports: a header flit, its inline area before encryption (byte 0 low) and its
data lines with their side-band words. -/
structure Message where
  /-- The header. -/
  hdr : Header
  /-- Bytes 32 to 239 of the header flit, before encryption. -/
  inlineArea : BitVec 1664
  /-- Lines of the data flits, in order. -/
  lines : List SealedLine
  deriving DecidableEq, Repr

/-- A message as its flits carry it on a Link Port: the clear header, the inline area after encryption, the tag of the
header flit, and the lines of its data flits with their side-band words (R163, R166 to R168). -/
structure WireMessage where
  /-- Bytes 0 to 31 of the header flit. -/
  header : BitVec 256
  /-- Bytes 32 to 239 of the header flit. -/
  inlineArea : BitVec 1664
  /-- Bytes 240 to 255 of the header flit, the first most significant. -/
  tag : BitVec 128
  /-- Side-band of the header flit's four lines; the block drives it to 0. R110, R167. -/
  sideband : BitVec 128
  /-- Lines of the data flits, four to a flit where the side-band carries a tag. -/
  lines : List SealedLine
  deriving DecidableEq, Repr

/-- A raise of a fault source on its way to the FCU (R413, R435). -/
structure Raise where
  /-- Fault source, 0 to 383 (R409). -/
  source : Nat
  /-- Detail word (R435). -/
  detail : Word
  /-- Word 5 of the Well record. -/
  w5 : Word
  /-- Word 6 of the Well record. -/
  w6 : Word
  /-- Word 7 of the Well record. -/
  w7 : Word
  /-- Raised by injection (R419, R420). -/
  injected : Bool
  /-- The eight fences and the count of a HANG_FENCES record; empty for every other source (R436). -/
  fences : List Nat
  deriving DecidableEq, Repr

/-- Reset domains (R426), queues apart. -/
inductive Domain where
  | pair (k : Fin 8)
  | bru
  | pump
  | scu
  | block
  deriving DecidableEq, Repr

/-- What the domain policy image carries for the block (R18, R392), once it has been verified. -/
structure ClassRange where
  /-- First granule. -/
  base : Nat
  /-- Granules. -/
  size : Nat
  /-- SEAL permitted. -/
  maySeal : Bool
  /-- BLIND permitted. -/
  mayBlind : Bool
  /-- LINK permitted. -/
  mayLink : Bool
  /-- The path set; `none` where the map gives none. -/
  path : Option (List Nat)
  deriving DecidableEq, Repr

/-- The domain policy (R392). -/
structure Policy where
  /-- Key 1. -/
  domainId : BitVec 64
  /-- Key 2, as a key identifier. -/
  owner : List Byte
  /-- Key 3. -/
  sponsors : List (List Byte)
  /-- Key 4. -/
  classMap : List ClassRange
  /-- Key 5, map 1: trusted switches. -/
  switches : List Nat
  /-- Key 5, map 2: trusted trays. -/
  trays : List Nat
  /-- Key 5, map 3: IDE stream ids of trusted hosts. -/
  hosts : List Nat
  /-- Key 6: SHA-384 of the fabric root certificate. -/
  fabricRoot : BitVec 384
  /-- Key 7. -/
  probe : Bool
  /-- Key 8: 2 or 4. -/
  laneFloor : Nat
  /-- Key 9. -/
  noneLq : Bool
  /-- Key 10. -/
  fill : Word
  /-- Key 11. -/
  salt : Word
  /-- Key 12. -/
  homeMap : List Nat
  /-- Key 13. -/
  minSvn : Nat
  deriving DecidableEq, Repr

/-- Paths of a doorbell (R263). -/
inductive BellPath where
  | host | device
  deriving DecidableEq, Repr

/-- What a read of a block's own table in device memory returns: the entry as the block wrote it, an error
flag or translation fault, or other content (R96, R137). DESIGN CHOICE (log entry 8). -/
inductive MemRead where
  | stored
  | error
  | other (content : Line)
  deriving DecidableEq, Repr

/-- What the first and the second read of a granule's entry of the own partition return, by granule (R137); the stored entry, both
times, for a granule that is not listed. -/
abbrev PartReads := List (Nat × MemRead × MemRead)

/-- What device memory holds of the BTT where a command's accesses miss its cache: physical address and entry (R290, R293). An
address that is not listed holds 0, an entry that is not valid. -/
abbrev BttWalk := List (Nat × BitVec 64)

/-- What device memory holds of the elements of one SBI31 block: their bytes (R225), the MX scale bytes of the groups that
they touch (R229), or the 256-byte XCB spans that they touch (R231). -/
structure SrcBlock where
  /-- Element bytes. R225. -/
  elems : List Byte
  /-- MX scale bytes, from the group of the block's first element. R229. -/
  mx : List Byte
  /-- Spans, from the one of the block's first element. R231. -/
  spans : List (List Byte)
  deriving DecidableEq, Repr

/-- What the BRU reads of device memory when it opens one stage of a collective: its freshness entry, its scale array and,
for PROBED scaling, its source (R196, R205, R215). -/
structure CollRead where
  /-- The freshness entry. R196. -/
  fresh : MemRead
  /-- The scale array, byte b for block b. R205. -/
  scales : List Byte
  /-- The source, block by block. R215. -/
  probe : List SrcBlock
  deriving DecidableEq, Repr

/-- Lines of device memory that one transfer of DISPATCH or COMBINE carries: the rows of its real slots, in slot order (R240, R243). -/
abbrev RowLines := List Line

/-- A missed bound: cause, CK_HOST cycles late, and the rank of the guarantee that won (R314, R357). -/
structure SlotMiss where
  /-- Cause 0 to 4. R314. -/
  cause : Nat
  /-- Cycles late. R314. -/
  late : Nat
  /-- Rank of the winning guarantee, for cause RESET. R314. -/
  rank : Nat
  /-- Kind of the winning party, for cause RESET. R357. -/
  kind : Nat
  /-- The winning party: for REPAIR the cluster whose lines were processed again, for RESET what the reset was for. R357. -/
  party : Nat
  deriving DecidableEq, Repr

/-- Paths by which messages reach the SCU (R399, R405). -/
inductive Path where
  | host | mgmt
  deriving DecidableEq, Repr

/-- A SCU firmware image as it lies in a bank: its bytes (R383). -/
abbrev FwImage := List Byte

/-- A transition token's content and its signature (R379). -/
structure Token where
  /-- Class of the ROM key: 0 DEV, 1 PROD, 2 RMA. -/
  cls : Nat
  /-- ROM key index. -/
  key : Nat
  /-- Device serial. -/
  serial : BitVec 128
  /-- Code of the state left. -/
  source : Word
  /-- Code of the state entered. -/
  target : Word
  /-- LCS.NONCE. -/
  nonce : Word
  /-- The COSE signature. -/
  signature : List Byte
  deriving DecidableEq, Repr

/-- Management operations with their arguments, and what of device memory they read (R407). -/
inductive MgmtOp where
  | state
  | fwStage (offset : Nat) (data : List Byte)
  | fwActivate (image : FwImage)
  | fwCommit (raiseMin : Bool) (staged other : FwImage)
  | fwRollback
  | lcsTransition (target : Nat) (token : Option Token)
  | wellRead (first count : Nat)
  | regRead (addr : Nat)
  | regWrite (addr : Nat) (value : Word)
  /-- CERT_STORE, with the DeviceID certificate that the store then holds. -/
  | certStore (offset : Nat) (data store : List Byte)
  | domainLeave
  | reserved (code : Nat)
  deriving DecidableEq, Repr

/-- SPDM requests (R397). -/
inductive SpdmReq where
  | getVersion
  | getCapabilities
  | negotiateAlgorithms
  | getDigests
  | getCertificate (slot : Nat)
  | challenge (slot : Nat) (nonce : List Byte)
  | getMeasurements (index : Nat) (nonce : List Byte)
  | keyExchange (slot : Nat) (share : List Byte)
  | finish (session : Nat) (proof : List Byte)
  | unsupported
  deriving DecidableEq, Repr

/-- Application messages and management operations (R398, R386). -/
inductive AppMsg where
  /-- JOIN_REQ, with the policy image that the block reads at POLICY_BASE (R393). -/
  | joinReq (digest : BitVec 384) (ecdh kem signature image : List Byte)
  /-- JOIN_KEY: the GCM ciphertext of DMS and member id, and its tag (R393). -/
  | joinKey (text : List Byte) (tag : BitVec 128)
  /-- LEAVE with the sponsor's signature (R395). -/
  | leave (signature : List Byte)
  /-- MGMT_AUTH with the operator's chain and signature (R406). -/
  | mgmtAuth (chain signature : List Byte)
  /-- MGMT_OP (R407). -/
  | op (o : MgmtOp)
  /-- IDE_REFRESH_REQ (R191). -/
  | ideRefresh (stream : Nat)
  /-- A message of another type (R398). -/
  | other (type : Nat)
  deriving DecidableEq, Repr

/-- A request that is answered only when what it started has ended (R395, R407, R462). -/
structure LateAnswer where
  /-- Path of the request. R399. -/
  path : Path
  /-- Its session; none for a ROM recovery frame. R386, R398. -/
  session : Option Nat
  /-- msg of its frames; 0 on the host path. R405. -/
  msg : Nat
  /-- Management operation, or 0x45 for LEAVE. R398, R407. -/
  op : Nat
  /-- Result code as far as it is known. R407. -/
  code : Nat
  deriving DecidableEq, Repr

/-- A frame of the Management Port, with its preamble and FCS stripped (R70, R405). -/
structure MgmtFrame where
  /-- Destination address. R70. -/
  dst : BitVec 48
  /-- IEEE 802.1Q tags. R70. -/
  tags : Nat
  /-- EtherType. R70. -/
  ethertype : BitVec 16
  /-- Bytes without FCS. R70. -/
  length : Nat
  /-- MG_RX_ERR. R70. -/
  err : Bool
  /-- Bytes after the EtherType. R405. -/
  body : List Byte
  deriving DecidableEq, Repr

/-- A message for the SCU, by its path (R397 to R407). -/
inductive ScuReq where
  /-- An SPDM request. -/
  | spdm (path : Path) (r : SpdmReq)
  /-- Application data of a secured session. -/
  | app (path : Path) (session : Nat) (m : AppMsg)
  /-- A ROM recovery frame, with the DeviceID certificate that the certificate store holds (R386). -/
  | rom (o : MgmtOp) (store : List Byte)
  deriving DecidableEq, Repr

/-- SPDM errors that the block answers (R386, R391, R397, R398). -/
inductive SpdmErr where
  | invalidRequest | unspecified | unsupportedRequest | invalidSession
  deriving DecidableEq, Repr

/-- One measurement register as a report lists it (R401 key 19). -/
structure MeasEntry where
  /-- Register 0 to 15. -/
  reg : Nat
  /-- Kind: 0 program, 1 weights. -/
  kind : Nat
  /-- Owner slice. -/
  owner : Nat
  /-- Bytes measured. -/
  bytes : Nat
  /-- SHA-384. -/
  digest : BitVec 384
  deriving DecidableEq, Repr

/-- A region record of a report (R401 key 15). -/
structure RegionRec where
  /-- Index. -/
  index : Nat
  /-- base_gran. -/
  base : Nat
  /-- size_gran. -/
  size : Nat
  /-- Class. -/
  cls : RClass
  /-- lq_full. -/
  lqFull : Bool
  /-- tag_lanes2. -/
  lanes2 : Bool
  /-- probe_ok. -/
  probeOk : Bool
  deriving DecidableEq, Repr

/-- A firmware image as reports name it (R401 keys 10 and 11). -/
structure FwInfo where
  /-- Bank. -/
  bank : Nat
  /-- SHA-384 of the code. -/
  digest : BitVec 384
  /-- fw_version. -/
  version : Word
  /-- svn. -/
  svn : Nat
  deriving DecidableEq, Repr

/-- An attestation report, or a region part of one (R401). -/
structure Report where
  /-- Key 1: 0 BASE, 1 FULL, 2 IN_TRANSITION. -/
  kind : Nat
  /-- Key 2. -/
  counter : Nat
  /-- Key 3. -/
  resetGen : Nat
  /-- Key 4. -/
  time : Nat
  /-- Key 5. -/
  nonce : List Byte
  /-- Key 6. -/
  serial : BitVec 128
  /-- Key 7. -/
  member : Option Nat
  /-- Key 8. -/
  lcs : Nat
  /-- Key 9: TAP_ALLOW, DEBUG.STAT.trace, DEBUG.STAT.export. -/
  debug : Nat × Bool × Bool
  /-- Key 10: the running firmware, the minimum svn and the ROM digest. -/
  fw : Option (FwInfo × Nat × BitVec 384)
  /-- Key 11. -/
  staged : Option FwInfo
  /-- Key 12: policy digest, domain id, home map size. -/
  policy : Option (BitVec 384 × BitVec 64 × Nat)
  /-- Key 13: switches, trays, hosts. -/
  trusted : List Nat × List Nat × List Nat
  /-- Key 14: slice, PASID, state, quarantined. -/
  slices : List (Nat × Nat × Nat × Bool)
  /-- Key 15: count, digest over every record, and the records carried. -/
  regions : Nat × BitVec 384 × List RegionRec
  /-- Key 16: part and parts. -/
  part : Option (Nat × Nat)
  /-- Key 17: cluster states, BRU, Pump, CFE, SCU. -/
  health : List Nat × Nat × Nat × Nat × Nat
  /-- Key 18. -/
  profile : Word
  /-- Key 19. -/
  meas : List MeasEntry
  deriving DecidableEq, Repr

/-- What the SCU answers (R191, R393 to R407). -/
inductive Reply where
  /-- VERSION: 0x12 and 0x13. -/
  | version (versions : List Nat)
  /-- CAPABILITIES: the capability names set, DataTransferSize and MaxSPDMmsgSize. -/
  | capabilities (flags : List String) (transfer message : Nat)
  /-- ALGORITHMS. -/
  | algorithms (names : List String)
  /-- DIGESTS: SHA-384 of the chain of each slot that holds one. -/
  | digests (slots : List (Nat × BitVec 384))
  /-- CERTIFICATE. -/
  | certificate (slot : Nat) (chain : List Byte)
  /-- CHALLENGE_AUTH. -/
  | challengeAuth (slot : Nat) (nonce signature : List Byte)
  /-- MEASUREMENTS: index and content of each block, and the signature. -/
  | measurements (blocks : List (Nat × List Byte)) (signature : List Byte)
  /-- MEASUREMENTS that carry a report, with its two signatures. -/
  | report (r : Report) (es384 mlDsa : List Byte)
  /-- KEY_EXCHANGE_RSP: session, own share, signature. -/
  | keyExchange (session : Nat) (share signature : List Byte)
  /-- FINISH_RSP. -/
  | finish (session : Nat)
  /-- ERROR. -/
  | error (e : SpdmErr)
  /-- JOIN_RESP: code of R394, ECDH share, KEM ciphertext, signatures. -/
  | joinResp (code : Nat) (ecdh text es384 mlDsa : List Byte)
  /-- JOIN_DONE: code of R394 and the BASE report. -/
  | joinDone (code : Nat) (r : Option Report) (es384 mlDsa : List Byte)
  /-- LEAVE_DONE. -/
  | leaveDone
  /-- MGMT_RESULT: operation, code, detail, body. -/
  | result (op code detail : Nat) (body : List Word)
  /-- IDE_REFRESH_DONE. -/
  | ideDone (stream status : Nat)
  deriving DecidableEq, Repr

/-- A check of a cluster that failed (R250): stage parity or round-key parity of a pipeline, F0 to F19 and I0 to I9, or unit
parity of the tweak unit, G0, G1 or the crossbar. -/
inductive CluCheck where
  | stage (pipe : Fin 30) (stage : Fin 14)
  | key (pipe : Fin 30) (round : Fin 15)
  | unit (u : Fin 4)
  deriving DecidableEq, Repr

end Sys2Proof.Machine
end

