-- ==== Sys2Proof/Syntax.lean ====
section
/-! DEFINITION. The commands of the block: one constructor for each row of the opcode table, with the operands that the
surroundings supply. Each docstring is the row's effect and the rule that gives it. -/

namespace Sys2Proof

open Sys2Proof.Machine

/-- A command to the block. -/
inductive Instr where
  /-- UTP_REQUEST: A Transaction Port presents a request, and the Gate grants it or refuses it with a code in the same
  CK_HOST cycle. R87. -/
  | utpRequest (port : Fin 8) (req : UtpReq)
  /-- WRITE_DATA_BEAT: A master transfers the write data beat of the oldest granted STORE or atomic on its port. R55. -/
  | writeDataBeat (port : Fin 8) (beat : BitVec 2048)
  /-- UTP_STALL: A write data beat or a ready signal is stalled for 4,096 CK_HOST cycles, and UTP_STALL is raised. R55. -/
  | utpStall (port : Fin 8)
  /-- READ_DATA_BEAT: A read data beat is transferred to the master, which starts its UNTRUSTED window. R57. -/
  | readDataBeat (port : Fin 8) (tag : BitVec 10)
  /-- RESPONSE_BEAT: A store or atomic response is transferred to the master with its status. R56. -/
  | responseBeat (port : Fin 8) (tag : BitVec 10)
  /-- TAG_RELEASE: A LOAD's tag becomes free 19 CK_HOST cycles after its read data beat. R52. -/
  | tagRelease (port : Fin 8) (tag : BitVec 10)
  /-- WINDOW_RESOLUTION_DONE: A resolution ends with a placed window or a NO_WINDOW or PERM negative entry, or is
  discarded and restarted. R97. -/
  | windowResolutionDone (slice : Fin 1024) (granule : Nat)
  /-- REGION_WALK_READ: A walk read of the Region Directory, a granule map or the Region Table completes and is checked.
  R95. -/
  | regionWalkRead (slice : Fin 1024) (granule : Nat) (read : MemRead) (ns : Nat)
  /-- WCACHE_INV_ALL: A write of GATE.WCACHE_INV.all invalidates every unpinned window. R98. -/
  | wcacheInvAll (value : Word)
  /-- WCACHE_INV_BY_SLICE: A write of GATE.WCACHE_INV.by_slice invalidates the unpinned windows of one slice. R98. -/
  | wcacheInvBySlice (value : Word)
  /-- SEAL_STORE_EGRESS: The Regulator passes a SEAL store, which is sealed under the current epoch and sent with its
  metadata. R114. -/
  | sealStoreEgress (txn : BitVec 32)
  /-- SEAL_LOAD_RESPONSE: A SEAL response line is resolved against its etag, decrypted and released to the master. R113. -/
  | sealLoadResponse (port : Fin 16) (msg : Message)
  /-- SEAL_MAC_CHECK_DONE: The MAC check of a loaded line ends 14 CK_ENG cycles after the data, and under VERIFIED the
  held line is released or replaced. R117. -/
  | sealMacCheckDone (txn : BitVec 32)
  /-- QUAR_REL: A write to SEAL.QUAR_REL releases a slice from quarantine, and its queues resume. R122. -/
  | quarRel (value : Word)
  /-- GKT_CACHE_MISS: A request needs an entry missing from the GKT cache and starts a partition read or a GKT_GET fetch.
  R140. -/
  | gktCacheMiss (txn : BitVec 32)
  /-- GKT_PARTITION_READ: A read of the member's own partition completes and is checked for valid, crc and pstate. R137. -/
  | gktPartitionRead (granule : Nat) (read : MemRead)
  /-- GKT_GET: A home receives GKT_GET and answers with GKT_ENTRY or with NO_TARGET. R140. -/
  | gktGet (msg : Message) (first : MemRead) (second : MemRead) (walk : BttWalk)
  /-- GKT_ENTRY: A member receives GKT_ENTRY and fills its cache, or discards the answer and fetches again. R143. -/
  | gktEntry (port : Fin 16) (msg : Message)
  /-- GKT_OPEN: A member applies GKT_OPEN: it derives the new key sets of its cached entries and invalidates those
  entries. R141. -/
  | gktOpen (msg : Message)
  /-- GKT_ACK_SEND: A member sends GKT_ACK once its key sets are ready and its earlier stores to the range have completed.
  R142. -/
  | gktAckSend (home : BitVec 16) (seq : BitVec 16) (reads : PartReads) (walk : BttWalk)
  /-- GKT_ACK: A home receives GKT_ACK, and its last acknowledgement moves the round's granules to QUEUED. R144. -/
  | gktAck (msg : Message) (reads : PartReads) (walk : BttWalk)
  /-- GKT_CLOSE: A member applies GKT_CLOSE and overwrites the cached entries with the epoch and dual that it carries.
  R141. -/
  | gktClose (msg : Message)
  /-- GKT_CLOSE_SEND: A home sends GKT_CLOSE for closed granules no later than 1 µs after the first of them closed. R141. -/
  | gktCloseSend
  /-- OPEN_ROUND_ACK_TIMEOUT: PUMP.T_ACK expires with acknowledgements missing, and GKT_OPEN is resent or the round's
  granules are parked. R145. -/
  | openRoundAckTimeout (seq : BitVec 16) (reads : PartReads) (walk : BttWalk)
  /-- PUMP_SWEEP_READ: The Pump issues a four-line read of the WET granule within its rate budget. R147. -/
  | pumpSweepRead (reads : PartReads) (walk : BttWalk)
  /-- PUMP_READ_ANSWER: The Pump handles each line of an answer by its etag: it re-seals, skips, or counts the line as
  failed or foreign. R147. -/
  | pumpReadAnswer (port : Fin 16) (msg : Message)
  /-- COND_WRITE_ANSWER: An epoch-conditional write is answered OK or CONDITION_FAILED, and the Pump cursor advances.
  R148. -/
  | condWriteAnswer (port : Fin 16) (msg : Message)
  /-- GRANULE_CLOSE: PUMP.CURSOR reaches 32,768, and the granule goes through CLOSING to IDLE with dual 0. R150. -/
  | granuleClose
  /-- PUMP_STUCK: A Pump transfer completes DEAD_TARGET, and the WET granule is parked. R153. -/
  | pumpStuck
  /-- PUMP_RATE_WINDOW: A 1 µs Pump rate window begins, and the read budget refills. R151. -/
  | pumpRateWindow
  /-- PUMP_PAUSE: PUMP.CTL.pause or U3 entry stops the Pump at a line boundary without parking anything. R154. -/
  | pumpPause (write : Option Word)
  /-- REGULATOR_PASS: A cluster, the BRU or an egress VC queue can accept work, and the Regulator passes the first waiting
  item in its order of service. R348. -/
  | regulatorPass
  /-- BUDGET_REFILL: At a window boundary every master's charge returns to 0, pending writes take effect, and floors and
  shares are judged. R346. -/
  | budgetRefill
  /-- WORK_AGED: Work waits AGE_MAX and is passed at step 3, or BACKGROUND work waits BG_AGE and is promoted. R352. -/
  | workAged (seq : Nat) (promote : Bool)
  /-- EGRESS_VISIT: A port's egress scheduler visits a VC, adds its quantum and starts whole messages within the deficit.
  R353. -/
  | egressVisit (port : Fin 16) (gate : BitVec 4) (room : Nat)
  /-- TGATE_STUCK: A gate stays closed with a message waiting for longer than EGRESS.GATE_MAX. R355. -/
  | tgateStuck (port : Fin 16) (vc : Fin 4)
  /-- TX_CREDIT: The link layer returns one flit credit for a VC, and a credit beyond 255 raises LP_PROTOCOL. R65. -/
  | txCredit (port : Fin 16) (vc : Fin 4)
  /-- INGRESS_FLIT: An ingress flit's tag and fields are checked, and the flit is routed to its consumer or dropped. R164. -/
  | ingressFlit (port : Fin 16) (wire : WireMessage)
  /-- INGRESS_CREDIT_RETURN: An ingress buffer is freed once the flit has passed the crossbar unflagged, and RX_CREDIT is
  pulsed. R251. -/
  | ingressCreditReturn (port : Fin 16) (vc : Fin 4)
  /-- LINK_UP_RISE: LINK_UP rises, 32 credits per VC are returned, and a session handshake starts if the block is joined.
  R64. -/
  | linkUpRise (port : Fin 16)
  /-- LINK_UP_FALL: LINK_UP falls, the session ends, and every outstanding transaction on the port is treated as re-
  routed. R66. -/
  | linkUpFall (port : Fin 16)
  /-- PATH_GEN_CHANGE: PATH_GEN changes, and the outstanding transactions on the port start their T_PATH waits. R66. -/
  | pathGenChange (port : Fin 16) (gen : BitVec 8)
  /-- T_PATH_EXPIRY: T_PATH expires for a re-routed transaction, which is reissued or, for an atomic, completes UNCERTAIN.
  R180. -/
  | tPathExpiry (txn : BitVec 32)
  /-- T_DEAD_EXPIRY: A transaction has no response LINK.T_DEAD after its last flit and completes DEAD_TARGET with the fill
  pattern. R178. -/
  | tDeadExpiry (txn : BitVec 32)
  /-- FABRIC_RESPONSE: A response flit matches an outstanding transaction and completes it by its status. R170. -/
  | fabricResponse (port : Fin 16) (msg : Message)
  /-- SESS_INIT: The SCU starts a link session handshake by sending SESS_INIT. R161. -/
  | sessInit (port : Fin 16)
  /-- SESS_RESP: The block receives SESS_RESP, verifies the peer and answers SESS_FIN. R161. -/
  | sessResp (port : Fin 16) (ecdh : List Byte) (text : List Byte) (chain : List Byte) (signature : List Byte)
  /-- SESS_DONE: The block receives SESS_DONE, checks the HMAC and installs the session keys. R162. -/
  | sessDone (port : Fin 16) (mac : List Byte)
  /-- SESS_HANDSHAKE_TIMEOUT: A handshake fails or does not complete within 5 ms, LINK_SESS_FAIL is raised, and a retry
  follows every 10 ms. R161. -/
  | sessHandshakeTimeout (port : Fin 16)
  /-- KEY_UPDATE_START: A sequence reaches 2^32 or KU_INTERVAL expires, and the block sends KEY_UPDATE on each VC. R165. -/
  | keyUpdateStart (port : Fin 16)
  /-- KEY_UPDATE: A peer KEY_UPDATE switches one VC's receive generation, or raises LINK_KU_EARLY if it arrives early.
  R165. -/
  | keyUpdate (port : Fin 16) (msg : Message)
  /-- SESS_END: A SESS_END from the peer ends the port's session. R165. -/
  | sessEnd (port : Fin 16)
  /-- SESS_CTL_RESTART: A write to LPORT.SESS_CTL.restart sends SESS_END, applies the re-route rules and starts a
  handshake. R165. -/
  | sessCtlRestart (port : Fin 16) (value : Word)
  /-- FENCE_REMOTE: A member receives FENCE_REMOTE and applies it or answers REFUSED. R327. -/
  | fenceRemote (msg : Message)
  /-- BULK_PUT: A gateway member checks a BULK_PUT, judges it, writes the lines through its class path and answers
  BULK_ACK. R187. -/
  | bulkPut (port : Fin 16) (msg : Message)
  /-- BULK_GET: A gateway member reads the lines through its class path and answers BULK_DATA. R187. -/
  | bulkGet (msg : Message)
  /-- IDE_REFRESH_TIMER: LINK.IDE_REFRESH expires, and fresh IDE keys are delivered into the other key set. R190. -/
  | ideRefreshTimer
  /-- IDE_REFRESH_REQ: A host requests an IDE key refresh and is answered IDE_REFRESH_DONE with a status. R191. -/
  | ideRefreshReq (path : Path) (session : Nat) (stream : BitVec 8)
  /-- KEY_DELIVERY_ACCEPT: The IDE engine takes a key on KD_READY, or rejects it with KD_ERR. R74. -/
  | keyDeliveryAccept (err : Bool)
  /-- KEY_DELIVERY_FAIL: A delivery is rejected or not accepted within 100 µs. R75. -/
  | keyDeliveryFail
  /-- CFE_ISSUE: The CFE issues the next ready operation of a queue, within the queue shares. R271. -/
  | cfeIssue (queue : Fin 64)
  /-- NOP: The NOP operation completes OK. R273. -/
  | nop (queue : Fin 64) (op : Nat)
  /-- SEAL_COPY: SEAL_COPY moves lines between device memory and a SEAL region, sealing or unsealing them. R128. -/
  | sealCopy (queue : Fin 64) (op : Nat)
  /-- BULK_MOVE: BULK_MOVE carries lines to or from another rack's pool through the gateway member. R186. -/
  | bulkMove (queue : Fin 64) (op : Nat)
  /-- BLIND_REDUCE: BLIND_REDUCE is checked and opens a collective context in the BRU. R214. -/
  | blindReduce (queue : Fin 64) (op : Nat) (desc : Line) (next : Line) (walk : BttWalk)
  /-- COLLECTIVE_OPENED: A context finishes OPENING and enters PROBING, SENDING or RECEIVING. R215. -/
  | collectiveOpened (queue : Fin 64) (op : Nat) (first : CollRead) (second : CollRead) (walk : BttWalk)
  /-- BL_EXPMAX_ANSWER: A probe answer sets the block scales, or ends the collective INCOMPLETE. R215. -/
  | blExpmaxAnswer (port : Fin 16) (msg : Message)
  /-- BL_CONTRIB_SEND: The BRU converts, masks, tags and sends a block as BL_CONTRIB. R222. -/
  | blContribSend (queue : Fin 64) (op : Nat) (src : List SrcBlock) (walk : BttWalk)
  /-- BLIND_ANSWER: A BL_CONTRIB or BL_READ answer is checked and demasked, and the block is written or counted as failed.
  R216. -/
  | blindAnswer (port : Fin 16) (msg : Message) (walk : BttWalk)
  /-- T_GROUP_EXPIRY: T_GROUP expires in DRAINING, and the remaining blocks end INCOMPLETE. R216. -/
  | tGroupExpiry (queue : Fin 64) (op : Nat)
  /-- COLLECTIVE_CLOSE: A collective closes, writes its completion, erases K and frees its context. R217. -/
  | collectiveClose (queue : Fin 64) (op : Nat)
  /-- DISPATCH: DISPATCH writes each destination's section padded to its shaped count. R239. -/
  | dispatch (queue : Fin 64) (op : Nat) (desc : Line) (route : List (BitVec 16)) (members : List (BitVec 16)) (walk : BttWalk)
  /-- COMBINE: COMBINE authenticates each received section and writes it back to its origin. R243. -/
  | combine (queue : Fin 64) (op : Nat) (desc : Line) (members : List (BitVec 16)) (walk : BttWalk)
  /-- REKEY_START: REKEY_START checks the range, runs an open round and adds the range to the Pump work list. R156. -/
  | rekeyStart (queue : Fin 64) (op : Nat) (reads : PartReads) (walk : BttWalk)
  /-- REKEY_ABORT: REKEY_ABORT parks the range's QUEUED and WET granules. R158. -/
  | rekeyAbort (queue : Fin 64) (op : Nat)
  /-- FENCE_SIGNAL: FENCE_SIGNAL waits for its covered writes and sets a local or remote fence. R276. -/
  | fenceSignal (queue : Fin 64) (op : Nat)
  /-- FENCE_WAIT: FENCE_WAIT waits for a fence to reach a value, with a timeout. R278. -/
  | fenceWait (queue : Fin 64) (op : Nat)
  /-- FENCE_WAIT_TIMEOUT: A FENCE_WAIT timeout passes, and the wait completes TIMEOUT. R278. -/
  | fenceWaitTimeout (queue : Fin 64) (op : Nat)
  /-- EVENT_SET: EVENT_SET sets an event of the slice. R279. -/
  | eventSet (queue : Fin 64) (op : Nat)
  /-- BARRIER: BARRIER waits for earlier operations and, with stop set, aborts the buffer after a failure. R279. -/
  | barrier (queue : Fin 64) (op : Nat)
  /-- MEASURE: MEASURE extends a measurement register with device memory contents. R280. -/
  | measure (queue : Fin 64) (op : Nat) (data : List Byte) (walk : BttWalk)
  /-- FAMILY_OPEN: KEY_OP FAMILY_OPEN derives a family key into a slice slot. R375. -/
  | familyOpen (queue : Fin 64) (op : Nat)
  /-- KEY_ERASE: KEY_OP ERASE erases a slot and every cached key set of its family. R375. -/
  | keyErase (queue : Fin 64) (op : Nat)
  /-- RETIRE_EPOCH: KEY_OP RETIRE_EPOCH raises a family's retirement floor and erases the key sets below it. R159. -/
  | retireEpoch (queue : Fin 64) (op : Nat)
  /-- CERTIFY: KEY_OP CERTIFY writes a signed key certificate for a slot. R376. -/
  | certify (queue : Fin 64) (op : Nat) (walk : BttWalk)
  /-- CREATE: REGION_OP CREATE writes a new region in CREATING, then its directory and map entries, then sets ACTIVE.
  R476. -/
  | create (queue : Fin 64) (op : Nat) (walk : BttWalk) (errs : List Nat)
  /-- DESTROY: REGION_OP DESTROY drains a region, retires its SEAL keys and clears its entries. R473. -/
  | destroy (queue : Fin 64) (op : Nat) (walk : BttWalk) (errs : List Nat)
  /-- SHARE: REGION_OP SHARE adds or replaces one slice's share. R476. -/
  | share (queue : Fin 64) (op : Nat) (walk : BttWalk) (errs : List Nat)
  /-- UNSHARE: REGION_OP UNSHARE removes a slice's share and drains its requests. R101. -/
  | unshare (queue : Fin 64) (op : Nat) (walk : BttWalk) (errs : List Nat)
  /-- SET_FILL: REGION_OP SET_FILL replaces a region's fill pattern. R476. -/
  | setFill (queue : Fin 64) (op : Nat) (walk : BttWalk) (errs : List Nat)
  /-- QUEUE_DOORBELL: A doorbell (Qn_TAIL write, SW_DOORBELL or LOCAL store) carries a new tail, which the queue judges.
  R265. -/
  | queueDoorbell (queue : Fin 64) (path : BellPath) (tail : Word)
  /-- FETCHER_IDLE_CHECK: The fetcher re-reads tail and PENDING after IDLE_ARMED, and goes IDLE or continues fetching.
  R266. -/
  | fetcherIdleCheck (queue : Fin 64)
  /-- RING_ENTRY_FETCH: A ring entry and its lists are read and checked, and the buffer starts or the queue becomes
  guilty. R269. -/
  | ringEntryFetch (queue : Fin 64) (entry : Line) (bind : List Nat) (wins : List Nat) (ops : List (BitVec 256)) (walk : BttWalk)
  /-- PRELOAD: The CFE reads the next entry in advance, then places and pins the next context's windows. R288. -/
  | preload (queue : Fin 64) (entry : Line) (bind : List Nat) (wins : List Nat) (ops : List (BitVec 256)) (walk : BttWalk)
  /-- BUFFER_COMPLETE: The last operation of a buffer completes, and the status entries, completion record, head, event
  and interrupt follow. R268. -/
  | bufferComplete (queue : Fin 64) (drain : Nat)
  /-- QUEUE_RESET_END: A queue reset ends, and the queue goes to QUARANTINED, STOPPED or IDLE. R286. -/
  | queueResetEnd (queue : Fin 64)
  /-- BUF_LIMIT: A buffer runs longer than Qn_LIMIT, its oldest operation completes TIMEOUT, and the queue becomes guilty.
  R284. -/
  | bufLimit (queue : Fin 64)
  /-- QRESET: A write to QRING.QRESET resets a queue as guilty with cause DRIVER. R285. -/
  | qreset (value : Word)
  /-- QUEUE_ENABLE: A write to Qn_CTL.enable moves a queue between OFF and IDLE. R262. -/
  | queueEnable (queue : Fin 64) (value : Word)
  /-- QUEUE_RESUME: A write to Qn_CTL.resume takes a queue out of STOPPED. R262. -/
  | queueResume (queue : Fin 64) (value : Word)
  /-- BTT_INV: A write to CFE.BTT_INV invalidates BTT cache entries, and busy is set. R293. -/
  | bttInv (value : Word)
  /-- BTT_INV_DONE: No access through an invalidated entry remains, and BTT_INV_STAT.busy clears. R293. -/
  | bttInvDone
  /-- DMP_READ_DONE: A Device Memory Port read returns its beats. R62. -/
  | dmpReadDone (id : BitVec 8) (data : BitVec 64) (err : Bool)
  /-- DMP_WRITE_DONE: A Device Memory Port write completion arrives. R62. -/
  | dmpWriteDone (id : BitVec 8) (err : Bool)
  /-- DMP_TIMEOUT: A Device Memory Port transaction is incomplete after 10 µs, DMP_ERROR is raised, and its command
  completes ABORTED. R62. -/
  | dmpTimeout (id : BitVec 8)
  /-- BLIND_PUT: The slot operation BLIND.PUT reads, masks, tags and passes block b. R302. -/
  | blindPut (word : BitVec 64) (src : SrcBlock) (walk : BttWalk)
  /-- BLIND_TAKE: The slot operation BLIND.TAKE writes the released result of block b. R302. -/
  | blindTake (word : BitVec 64) (walk : BttWalk)
  /-- DISPATCH_STEP: The slot operation DISPATCH.STEP writes one destination's section of a stepped DISPATCH. R300. -/
  | dispatchStep (word : BitVec 64) (data : List Line) (walk : BttWalk)
  /-- COMBINE_STEP: The slot operation COMBINE.STEP writes one origin's section of a stepped COMBINE. R300. -/
  | combineStep (word : BitVec 64) (data : List Line) (walk : BttWalk)
  /-- FENCE_SIG: The slot operation FENCE.SIG adds delta to a fence and wakes its waiters. R302. -/
  | fenceSig (word : BitVec 64)
  /-- FENCE_POLL: The slot operation FENCE.POLL returns a fence's state and value. R303. -/
  | fencePoll (word : BitVec 64)
  /-- QUIET: A QUIET slot word opens a quiet window under DETERMINISTIC. R311. -/
  | quiet (word : BitVec 64)
  /-- QUIET_WINDOW_END: A quiet window's cycles run out, and its tail begins. R311. -/
  | quietWindowEnd
  /-- SLOT_COMPLETION: A slot operation completes on SCH_CPL in presentation order. R305. -/
  | slotCompletion (miss : Option SlotMiss)
  /-- SCHED_QUIET_STARVED: DETERMINISTIC runs SCHED.STARVE ms with less than 1 µs of quiet windows. R313. -/
  | schedQuietStarved
  /-- SLOT_CONTEXT_TAKEN: A waiting command takes a freed slot context entry. R298. -/
  | slotContextTaken
  /-- BIND: SLICE.CMD BIND binds a PASID to a FREE slice. R316. -/
  | bind
  /-- REMOVE: SLICE.CMD REMOVE starts the removal of an ACTIVE or DEAD slice. R335. -/
  | remove
  /-- TEARDOWN: SLICE.CMD TEARDOWN starts the teardown of an ACTIVE slice. R335. -/
  | teardown
  /-- SLICE_DRAIN_END: A slice's outstanding work finishes, or SLICE.DRAIN expires and the remainder is squashed. R337. -/
  | sliceDrainEnd (slice : Fin 1024)
  /-- SLICE_BARRIER_CLEAR: No unit holds work tagged with the slice's slots, and the barrier clears. R338. -/
  | sliceBarrierClear (slice : Fin 1024)
  /-- SLICE_BARRIER_SLOW: The barrier has not cleared 100 µs after it began. R338. -/
  | sliceBarrierSlow (slice : Fin 1024)
  /-- SLICE_SLOTS_ERASED: The SCU confirms erasure of the slice's slots, and the sump and finish steps follow. R336. -/
  | sliceSlotsErased (slice : Fin 1024)
  /-- FENCE_ALLOC: FENCE.CMD ALLOC allocates a fence with its initial value. R322. -/
  | fenceAlloc (value : Word)
  /-- FENCE_FREE: FENCE.CMD FREE orphans a fence and then frees it. R328. -/
  | fenceFree
  /-- FENCE_RESET: FENCE.CMD RESET returns a fence to UNSIGNALLED with its initial value. R328. -/
  | fenceReset
  /-- SW_FSIG: A write to SW_FSIG_HI signals the selected fence. R325. -/
  | swFsig (pasid : BitVec 20) (value : Word)
  /-- SW_FCLR: A write to SW_FCLR from the owner clears the selected fence's error. R328. -/
  | swFclr (pasid : BitVec 20) (value : Word)
  /-- EVENT_ALLOC: EVENT.CMD ALLOC allocates an event. R330. -/
  | eventAlloc
  /-- EVENT_FREE: EVENT.CMD FREE frees an event. R330. -/
  | eventFree
  /-- SW_ESET: A write to SW_ESET sets the selected event. R331. -/
  | swEset (pasid : BitVec 20) (value : Word)
  /-- EVENT_CLEAR: A W1C write to EVENT.STATEn or SW_ECLR clears manual events. R331. -/
  | eventClear (pasid : Option (BitVec 20)) (group : Fin 32) (value : Word)
  /-- PROFILE_WRITE: A write to PWR.PROFILE requests a profile change, or wakes the block when it sets DETERMINISTIC. R36. -/
  | profileWrite (value : Word)
  /-- PROFILE_EFFECT: The requested profile takes effect within 2 µs, and pending clears. R36. -/
  | profileEffect
  /-- RUNG_REQ: A write to PWR.RUNG_REQ requests a rung, or is refused with a code. R40. -/
  | rungReq (value : Word)
  /-- AUTO_U1_ENTRY: PWR.IDLE_U1 cycles pass without pipeline work, and the block enters U1. R39. -/
  | autoU1Entry
  /-- AUTO_U2_ENTRY: PWR.IDLE_U2 passes without work, and the block enters U2. R39. -/
  | autoU2Entry
  /-- RUNG_ENTRY_DONE: A rung transition completes, and the rung is in force. R38. -/
  | rungEntryDone
  /-- RUNG_ENTRY_TIMEOUT: The entry conditions are not met within 100 µs, and the request is refused BUSY. R40. -/
  | rungEntryTimeout
  /-- WAKE_EVENT: A wake event starts an exit to U0, or abandons a rung entry. R42. -/
  | wakeEvent (cause : BitVec 4) (port : Fin 16)
  /-- RUNG_EXIT_DONE: The exit time passes, and the block reaches U0. R38. -/
  | rungExitDone
  /-- CLOCK_PRESENCE_TIMEOUT: A required clock is not seen 1 ms after a U4 or U5 exit request, and the request is refused
  CLOCK. R80. -/
  | clockPresenceTimeout
  /-- CLOCK_WINDOW: A 10 µs measurement window ends, and the rate and range bits are updated. R47. -/
  | clockWindow (host : Option (BitVec 16)) (eng : Option (BitVec 16)) (mgt : Option (BitVec 16)) (lnk : List (Option (BitVec 16)))
  /-- CLUSTER_CHECK_FAIL: A cluster check fails, and the partner takes over both ports of the pair. R252. -/
  | clusterCheckFail (cluster : Fin 16) (check : CluCheck) (blocks : Nat)
  /-- ZEROISE_DONE: An isolated cluster finishes zeroising its keys and starts the known-answer test. R253. -/
  | zeroiseDone (cluster : Fin 16)
  /-- KAT_DONE: A known-answer test ends and passes, retries, or sends the cluster to FAILED. R255. -/
  | katDone (cluster : Fin 16) (pipes : BitVec 30) (units : BitVec 3)
  /-- RELOAD_DONE: An isolated cluster's key registers are reloaded, and readmission starts. R253. -/
  | reloadDone (cluster : Fin 16)
  /-- READMIT: A port returns to its own cluster at its next message boundary. R253. -/
  | readmit (cluster : Fin 16)
  /-- ISOLATE: A write of CLU.CTL.isolate takes a cluster out manually, or brings it back when 0 is written. R258. -/
  | isolate (cluster : Fin 16) (value : Word)
  /-- RETEST: A write of CLU.CTL.retest starts a new repair of a FAILED or HELD cluster. R255. -/
  | retest (cluster : Fin 16) (value : Word)
  /-- TRNG_HEALTH: A TRNG health test fails, the entropy is discarded and the source restarts, or it stops after three
  failures. R373. -/
  | trngHealth (rct : Bool)
  /-- DRBG_RESEED: A DRBG reseed falls due after 2^20 calls or 1 s. R374. -/
  | drbgReseed
  /-- DRBG_WAIT_TIMEOUT: A CFE operation waits more than 1 ms for the DRBG and completes STATE_REFUSED. R374. -/
  | drbgWaitTimeout (queue : Fin 64) (op : Nat)
  /-- SHARE_REFRESH: Every 1 ms the Cistern XORs a fresh mask into both shares of every LIVE slot. R362. -/
  | shareRefresh
  /-- KEY_SET_DERIVE: A missing SEAL key set is derived from its family key within 20 µs. R371. -/
  | keySetDerive (family : BitVec 16) (epoch : BitVec 16) (txn : BitVec 32)
  /-- SCU_BOOT: The ROM tries the banks, runs the first valid image and derives the identity keys, or stays ROM-only.
  R385. -/
  | scuBoot (bank0 : FwImage) (bank1 : FwImage) (store : List Byte)
  /-- SCU_EXCEPTION: The SCU takes an illegal instruction, bus error or stack overflow. R409. -/
  | scuException
  /-- MGMT_FRAME: A management frame is received, filtered and reassembled into a message. R405. -/
  | mgmtFrame (frame : MgmtFrame)
  /-- MBX_DOORBELL: A write to ATTEST.MBX_DOORBELL starts handling of a host-path SPDM request. R399. -/
  | mbxDoorbell (value : Word)
  /-- GET_VERSION: The SPDM request GET_VERSION is answered. R397. -/
  | getVersion (path : Path)
  /-- GET_CAPABILITIES: The SPDM request GET_CAPABILITIES is answered. R397. -/
  | getCapabilities (path : Path)
  /-- NEGOTIATE_ALGORITHMS: The SPDM request NEGOTIATE_ALGORITHMS is answered. R397. -/
  | negotiateAlgorithms (path : Path)
  /-- GET_DIGESTS: The SPDM request GET_DIGESTS is answered. R398. -/
  | getDigests (path : Path)
  /-- GET_CERTIFICATE: The SPDM request GET_CERTIFICATE returns a slot's chain. R398. -/
  | getCertificate (path : Path) (slot : Nat)
  /-- CHALLENGE: The SPDM request CHALLENGE is answered. R397. -/
  | challenge (path : Path) (slot : Nat) (nonce : List Byte)
  /-- GET_MEASUREMENTS: The SPDM request GET_MEASUREMENTS returns measurements or a signed report. R400. -/
  | getMeasurements (path : Path) (index : Nat) (nonce : List Byte)
  /-- KEY_EXCHANGE: The SPDM request KEY_EXCHANGE opens a secured session, and may end the one idle longest. R397. -/
  | keyExchange (path : Path) (slot : Nat) (share : List Byte)
  /-- FINISH: The SPDM request FINISH completes a secured session. R397. -/
  | finish (path : Path) (session : Nat) (proof : List Byte)
  /-- SPDM_UNSUPPORTED: An unsupported SPDM request is answered ERROR UnsupportedRequest. R397. -/
  | spdmUnsupported (path : Path) (app : Option (Nat × Nat × Option Nat))
  /-- JOIN_REQ: JOIN_REQ makes the block verify the policy and sponsor and answer JOIN_RESP. R393. -/
  | joinReq (path : Path) (session : Nat) (digest : BitVec 384) (ecdh : List Byte) (kem : List Byte) (signature : List Byte) (image : List Byte)
  /-- JOIN_KEY: JOIN_KEY makes the block install DMS, take the home map, lock pages and answer JOIN_DONE. R393. -/
  | joinKey (path : Path) (session : Nat) (text : List Byte) (tag : BitVec 128)
  /-- LEAVE: LEAVE from the sponsor makes the block leave its domain and answer LEAVE_DONE. R395. -/
  | leave (path : Path) (session : Nat) (signature : List Byte)
  /-- MGMT_AUTH: MGMT_AUTH authenticates an operator on a management session. R406. -/
  | mgmtAuth (path : Path) (session : Nat) (chain : List Byte) (signature : List Byte)
  /-- STATE: The management operation STATE returns the life-cycle, firmware and member state. R407. -/
  | state (path : Path) (session : Nat)
  /-- FW_STAGE: The management operation FW_STAGE writes a firmware chunk into the inactive bank. R388. -/
  | fwStage (path : Path) (session : Nat) (offset : Nat) (data : List Byte)
  /-- FW_ACTIVATE: The management operation FW_ACTIVATE checks the staged image and switches to it. R388. -/
  | fwActivate (path : Path) (session : Nat) (image : FwImage)
  /-- FW_SWITCH_DONE: The staged image starts, and the block enters PROBATION, or returns to the old image. R388. -/
  | fwSwitchDone (image : FwImage)
  /-- FW_COMMIT: The management operation FW_COMMIT makes the running bank active and may raise the minimum svn. R390. -/
  | fwCommit (path : Path) (session : Nat) (raiseMin : Bool)
  /-- FW_ROLLBACK: The management operation FW_ROLLBACK restarts the old image. R390. -/
  | fwRollback (path : Path) (session : Nat)
  /-- PROBATION_EXPIRY: SCU.PROBATION expires, and the old image restarts. R390. -/
  | probationExpiry
  /-- PROBATION_HOLD_TIMEOUT: A held attestation request waits 50 ms and is answered with an IN_TRANSITION report. R389. -/
  | probationHoldTimeout
  /-- LCS_TRANSITION: The management operation LCS_TRANSITION checks authority, programs seeds and codewords, and requests
  a chip reset. R379. -/
  | lcsTransition (path : Path) (session : Nat) (target : Nat) (token : Option Token)
  /-- WELL_READ: The management operation WELL_READ copies Well records with a header. R440. -/
  | wellRead (path : Path) (session : Nat) (first : Nat) (count : Nat)
  /-- REG_READ: The management operation REG_READ reads any register. R451. -/
  | regRead (path : Path) (session : Nat) (addr : BitVec 20)
  /-- REG_WRITE: The management operation REG_WRITE writes any register. R451. -/
  | regWrite (path : Path) (session : Nat) (addr : BitVec 20) (value : Word)
  /-- CERT_STORE: The management operation CERT_STORE writes the certificate store. R407. -/
  | certStore (path : Path) (session : Nat) (offset : Nat) (data : List Byte) (store : List Byte)
  /-- DOMAIN_LEAVE: The management operation DOMAIN_LEAVE makes the block leave its domain. R395. -/
  | domainLeave (path : Path) (session : Nat)
  /-- ROM_RECOVERY: A ROM-only block serves a type 4 recovery frame. R386. -/
  | romRecovery (op : MgmtOp) (store : List Byte)
  /-- FAULT_RAISE: A fault reaches the FCU, which takes its reactions, records it and queues its history entry. R413. -/
  | faultRaise (raise : Option Raise)
  /-- FAULT_CLEAR: A W1C write to FAULT.PENDn clears pending sources. R415. -/
  | faultClear (index : Fin 12) (value : Word)
  /-- HIST_POP: A write to FAULT.HIST_POP removes the oldest history entry. R418. -/
  | histPop (value : Word)
  /-- CLEAR_ALL: A write to FAULT.CLEAR_ALL clears every pending bit and count, and FIRST. R415. -/
  | clearAll (value : Word)
  /-- INJECT_ARM: A write to INJECT.CTL.arm arms the selected checker, or disarms it when 0 is written. R419. -/
  | injectArm (value : Word)
  /-- INJECT_RAISE: A write to INJECT.RAISE raises a source with the injected flag set. R420. -/
  | injectRaise (value : Word)
  /-- HANG_PASS: A wait-for graph pass runs every 10 µs and confirms cycles, naming guilty queues. R423. -/
  | hangPass
  /-- UNIT_HANG: A unit holds work without progress for HANG.UNIT_LIMIT. R425. -/
  | unitHang (unit : Fin 5)
  /-- RESET_CMD: A write to RESET.CMD requests a reset of a domain. R426. -/
  | resetCmd (value : Word)
  /-- RESET_DRAIN_END: The domain's drain ends or RESET.DRAIN expires, and open work is squashed. R427. -/
  | resetDrainEnd (dom : Domain)
  /-- RESET_CLEAR_DONE: The domain is cleared, and its test phase starts. R427. -/
  | resetClearDone (dom : Domain)
  /-- RESET_RELEASE: The domain passes its test and is released, and the Gate accepts requests for it again. R427. -/
  | resetRelease (dom : Domain)
  /-- RST_COLD: RST_COLD_N is asserted, and the block cold-resets and primes. R81. -/
  | rstCold
  /-- RST_WARM: RST_WARM_N is asserted, and the block warm-resets at once and primes. R429. -/
  | rstWarm
  /-- PRIMING_PHASE_END: A priming phase ends, and the next begins, or BLK_READY is driven. R467. -/
  | primingPhaseEnd (svn : Nat) (used : BitVec 16) (kats : List (Fin 16 × List (BitVec 30 × BitVec 3))) (reads : List (Fin 512 × Bool × Bool))
  /-- FW_BASE_WRITE: The first write to SCU.FW_BASE_LO after cold priming starts the SCU boot. R469. -/
  | fwBaseWrite (value : Word)
  /-- WELL_RECORD_WRITE: The Well writes one record per CK_AON cycle from its staging queue. R437. -/
  | wellRecordWrite
  /-- TRIG_NOW: A write to WELL.TRIG_NOW fires the trigger manually. R438. -/
  | trigNow (value : Word)
  /-- REARM: A write to WELL.REARM unfreezes and arms the Well. R439. -/
  | rearm (value : Word)
  /-- MARK_GO: A write to WELL.MARK_GO writes a MARK record. R434. -/
  | markGo (value : Word)
  /-- CNT_SNAP: A write to CNT.CTL.snap copies all counters into the shadow set. R443. -/
  | cntSnap (value : Word)
  /-- CNT_CLEAR: A write to CNT.CTL.clear zeroes every counter. R443. -/
  | cntClear (value : Word)
  /-- COUNTER_EXPORT: The export period comes due, and a counter snapshot is written to the next export slot. R445. -/
  | counterExport
  /-- VECTOR_FIRE: A vector's count or timer reaches its setting, and the vector becomes ready. R448. -/
  | vectorFire (vector : Fin 64)
  /-- IRQ_ACK: The core takes the presented vector or trap. R78. -/
  | irqAck
  /-- ICU_PEND_WRITE: A write to ICU.PENDn replaces the pending bits. R450. -/
  | icuPendWrite (index : Fin 16) (value : Word)
  /-- ICU_MASK_WRITE: A write to ICU.MASKn changes the masks, and an unmasked pending source counts as an assertion. R447. -/
  | icuMaskWrite (index : Fin 16) (value : Word)
  /-- MVAL: A write to PERSIST.MVAL or an RWP field is accepted and queued as an NVM write, or refused. R462. -/
  | mval (addr : BitVec 19) (value : Word)
  /-- PS_WRITE_ISSUE: The next queued persistent write is issued to the NVM macro. R462. -/
  | psWriteIssue
  /-- PS_DONE: An NVM operation ends, and PERSIST_SLOW, PERSIST_FAIL or PERSIST_WORN may be raised. R465. -/
  | psDone (err : Bool) (late : Bool)
  /-- FUSE_PROGRAM_DONE: FU_BUSY falls after programming, the array is read again, and FU_ERR or a 1 ms stall raises
  FUSE_FAIL. R73. -/
  | fuseProgramDone (err : Bool)
  /-- TIME_STEP: TP_NS decreases or jumps by more than 1,000, and TIME_STEP is raised. R76. -/
  | timeStep (ns : BitVec 64)
  /-- TIME_LOST: TP_VALID falls, and the block continues network time from CK_ENG counts. R76. -/
  | timeLost
  /-- TIME_REGAINED: TP_VALID returns, and the block takes TP_NS again. R76. -/
  | timeRegained (ns : BitVec 64)
  /-- RAIL_SAMPLE: A rail sample arrives and is checked against the thresholds. R77. -/
  | railSample (mv : BitVec 16)
  /-- RAIL_SENSE_LOST: No rail sample arrives for 10 µs. R77. -/
  | railSenseLost
  /-- TAP_INSTRUCTION: A TAP instruction is loaded and acts, or acts as BYPASS if the state forbids it. R377. -/
  | tapInstruction (code : BitVec 5) (clocks : List (Bool × Bool))
  /-- IRQ_SET: A write to a page's IRQ_SET sets IRQ_STAT bits. R456. -/
  | irqSet (page : BitVec 7) (value : Word)
  /-- FAULT_CLR: A write to PAGE_CTL.fault_clr clears a page's PAGE_FAULT bits. R456. -/
  | faultClr (page : BitVec 7) (value : Word)
  /-- PAGE_LOCK: A write of PAGE_LOCK locks a page's RWL fields until cold reset. R457. -/
  | pageLock (page : BitVec 7) (value : Word)
  /-- CNT_CLR: A write to a page's CNT_CLR zeroes every counter on that page. R453. -/
  | cntClr (page : BitVec 7) (value : Word)
  /-- REGISTER_WRITE: A register access without a row of its own completes OK, DENIED or UNMAPPED under the access codes.
  R452. -/
  | registerWrite (pasid : Option (BitVec 20)) (addr : BitVec 19) (write : Option Word)
  /-- RESET_PIN_RELEASE: RST_COLD_N or RST_WARM_N is released after being held, and the block releases its clock domains
  from reset in order and begins priming at phase 1. R81. -/
  | resetPinRelease
  /-- CFE_TRANSFER_PRESENT: The CFE presents a fabric or gateway transfer to the Gate through the CK_ENG to CK_HOST
  crossing, including a transfer presented again after RETRY, and receives the answer in the cycle of presentation.
  R83. -/
  | cfeTransferPresent (queue : Fin 64) (op : Nat) (data : List Line) (code : BitVec 2) (walk : BttWalk)
  /-- RESERVED_SLOT_OP: A slot word with a reserved op (8 to 15) is taken from SCH_WORD, draws a MALFORMED completion and
  raises SCHED_PROTOCOL, or is dropped when 64 completions are pending. R296. -/
  | reservedSlotOp (word : BitVec 64)
  /-- QUIET_TAIL_END: The 72 CK_ENG cycles of a quiet window's tail run out, SCHED.STAT.tail clears, and the Scheduled-
  Port bounds apply again. R311. -/
  | quietTailEnd
  /-- CTL_INGRESS_ALLOWANCE: A new 1 µs allowance period begins, and VC_CTL ingress flits held beyond the allowance under
  DETERMINISTIC are processed and their credits returned. R312. -/
  | ctlIngressAllowance
  /-- FU_BUSY_STALL: FU_BUSY stays at 1 for more than 1 ms during fuse programming, and FUSE_FAIL is raised. R73. -/
  | fuBusyStall
  /-- TRNG_STARTUP_PASS: The start-up test of a TRNG restarted after a health failure passes, its output becomes usable,
  and a waiting DRBG reseed and its consumers proceed. R373. -/
  | trngStartupPass
  /-- TRST_N: TRST_N is asserted and resets the TAP, or is ignored while the block is joined. R82. -/
  | trstN
  deriving DecidableEq, Repr

end Sys2Proof
end

