-- ==== Sys2Proof/Decode.lean ====
section
/-! DEFINITION. The opcode table of this block lists commands of its ports and gives no row any bits, so no word spells
a command. -/

namespace Sys2Proof

/-- The command that a word spells: none, for no row of the opcode table has bits. DESIGN CHOICE (log entry 47). -/
def decodeTableWord (_nbits _w : Nat) : Option Instr := none

end Sys2Proof
end

