-- ==== Sys2Proof/Machine/Outputs.lean ====
section
/-! DEFINITION. What the block drives on its ports: one entry for each answer, beat, message, word or
strobe, in the order in which the block drives them. -/

namespace Sys2Proof.Machine

/-- One item driven on a port. -/
inductive Out where
  /-- GATE_GRANT or GATE_REFUSE with GATE_CODE, to the source of the request. R49. -/
  | gate (src : Source) (tag : BitVec 10) (code : GateCode)
  /-- A read data beat: lines beyond those listed read 0. R56. -/
  | readBeat (port : Fin 8) (tag : BitVec 10) (status : PortStatus) (lines : List Line)
  /-- A response. R56. -/
  | response (port : Fin 8) (tag : BitVec 10) (status : PortStatus) (data : BitVec 64)
  /-- UNTRUSTED with UT_TAG and UT_LINES. R57. -/
  | untrusted (port : Fin 8) (tag : BitVec 10) (lines : BitVec 4)
  /-- A completion on SCH_CPL. R61, R304. -/
  | schCpl (id : Nat) (status : Nat) (data : BitVec 64)
  /-- A Device Memory Port read. R62. -/
  | dmRead (id : Nat) (addr : Nat) (bytes : Nat)
  /-- A Device Memory Port write: address and bytes, byte 0 first. R62. -/
  | dmWrite (id : Nat) (addr : Nat) (data : List Byte)
  /-- A group's 2-bit length code written to the length array at a base address. R129. -/
  | dmCode (base group code : Nat)
  /-- A message leaving a Link Port under a key generation, with the sequence of its first flit. R162. -/
  | message (port : Fin 16) (gen : BitVec 16) (seq : BitVec 64) (msg : WireMessage)
  /-- RX_CREDIT pulses on a VC. R64. -/
  | rxCredit (port : Fin 16) (vc : Nat) (count : Nat)
  /-- Completion of a Register Port access: RP_RESP and RP_RDATA. R67. -/
  | regAnswer (resp : Nat) (data : Word)
  /-- A management frame sent: type, msg, frag, nfrag and payload. R405. -/
  | mgmtFrame (type msg frag nfrag : Nat) (body : List Byte)
  /-- What the SCU answers on a path, in a session or none. R393 to R407. -/
  | reply (path : Path) (session : Option Nat) (r : Reply)
  /-- PS_REQ: write enable, word and data. R72. -/
  | persist (write : Bool) (word : Nat) (data : BitVec 64)
  /-- FU_PGM: word and the bits programmed. R73. -/
  | fuse (word : Nat) (data : Word)
  /-- KD_VALID with stream, sub-stream, direction, key set and the two shares. R74. -/
  | keyDelivery (stream sub : Nat) (dir kset : Bool) (share0 share1 : BitVec 256) (ivFixed : Word)
  /-- KD_SHARE0 and KD_SHARE1 driven to 0. R74. -/
  | keyClear
  /-- IRQ_VALID with IRQ_VEC, IRQ_NUM and IRQ_NMI. R78. -/
  | irq (vec : BitVec 48) (num : Nat) (nmi : Bool)
  /-- CHIP_RST_REQ at 1. R80. -/
  | chipReset
  /-- ERR_OUT_VALID and ERR_OUT. R79. -/
  | errOut (valid level : Bool)
  /-- PWR_RUNG. -/
  | rung (r : Rung)
  /-- The test data register that the TAP's instruction in force selects: the 32-bit IDCODE, or none, the BYPASS bit. R82. -/
  | tap (instr : Nat) (id : Option Word)
  /-- TDO after a clock of the TAP that shifts. R82. -/
  | tdo (bit : Bool)
  /-- BLK_READY at 1. R468. -/
  | ready
  deriving DecidableEq, Repr

end Sys2Proof.Machine
end

