-- ==== Sys2Proof/Machine/Sparse.lean ====
section
/-! DEFINITION. Sparse tables: a list of (index, value) pairs with strictly rising indices in which an
index that is not listed holds a default, and no listed value equals its default. Every register bank,
device table and store of the model is one of these. -/

namespace Sys2Proof.Machine

/-- A sparse table of values by index. -/
abbrev Tbl (β : Type) := List (Nat × β)

/-- What the table holds at index `k`, where an unlisted index holds `d`. -/
def Tbl.get {β : Type} (t : Tbl β) (d : β) (k : Nat) : β :=
  match t with
  | [] => d
  | (i, v) :: rest => if i = k then v else Tbl.get rest d k

/-- The table with `v` listed at index `k`. -/
def Tbl.insert {β : Type} (t : Tbl β) (k : Nat) (v : β) : Tbl β :=
  match t with
  | [] => [(k, v)]
  | (i, w) :: rest => if k < i then (k, v) :: (i, w) :: rest else if i = k then (k, v) :: rest else (i, w) :: Tbl.insert rest k v

/-- The table with `v` at index `k`; the default is never listed. -/
def Tbl.put {β : Type} [DecidableEq β] (t : Tbl β) (d : β) (k : Nat) (v : β) : Tbl β :=
  if v = d then t.filter fun p => p.1 != k else t.insert k v

/-- Indices from `lo` up, strictly rising, none holding the default that `d` gives it. -/
def Tbl.wfFrom {β : Type} [DecidableEq β] (d : Nat → β) (lo : Nat) : Tbl β → Bool
  | [] => true
  | (i, v) :: rest => decide (lo ≤ i) && decide (v ≠ d i) && Tbl.wfFrom d (i + 1) rest

/-- The canonical form of a table. -/
def Tbl.wf {β : Type} [DecidableEq β] (d : Nat → β) (t : Tbl β) : Bool := Tbl.wfFrom d 0 t

end Sys2Proof.Machine
end

