-- ==== Sys2Proof/Machine/RegMap.lean ====
section
/-! DEFINITION. The register map of the block (R458, register index): byte addresses of the registers
in the 512 KiB register window, and one row per register with its access masks, its reset value and its
privilege. A name takes the register's index, or its page's instance, as an argument where there are several. -/

namespace Sys2Proof.Machine

namespace Reg

/-- PWR.PROFILE: Requested base profile and modifiers. -/
abbrev PWR_PROFILE : Nat := 0x02040
/-- PWR.PROFILE_ACT: Profile in effect. -/
abbrev PWR_PROFILE_ACT : Nat := 0x02044
/-- PWR.RUNG_REQ: Requested rung. -/
abbrev PWR_RUNG_REQ : Nat := 0x02048
/-- PWR.RUNG_STAT: Current rung, transition, refusal. -/
abbrev PWR_RUNG_STAT : Nat := 0x0204C
/-- PWR.IDLE_U1: Idle count before automatic U1. -/
abbrev PWR_IDLE_U1 : Nat := 0x02050
/-- PWR.IDLE_U2: Idle time before automatic U2. -/
abbrev PWR_IDLE_U2 : Nat := 0x02054
/-- PWR.WAKE_CAUSE: Cause of the last exit to U0. -/
abbrev PWR_WAKE_CAUSE : Nat := 0x02058
/-- PWR.GATED_PIPES: Pipelines currently gated by profile. -/
abbrev PWR_GATED_PIPES : Nat := 0x0205C
/-- CLK.MEAS_HOST: Measured CK_HOST rate. -/
abbrev CLK_MEAS_HOST : Nat := 0x03040
/-- CLK.MEAS_ENG: Measured CK_ENG rate. -/
abbrev CLK_MEAS_ENG : Nat := 0x03044
/-- CLK.MEAS_MGT: Measured CK_MGT rate. -/
abbrev CLK_MEAS_MGT : Nat := 0x03048
/-- CLK.LNK_SEL: Link clock selected for MEAS_LNK. -/
abbrev CLK_LNK_SEL : Nat := 0x0304C
/-- CLK.MEAS_LNK: Measured rate of the selected CK_LNKn. -/
abbrev CLK_MEAS_LNK : Nat := 0x03050
/-- CLK.RANGE_STAT: Clocks now outside their permitted range. -/
abbrev CLK_RANGE_STAT : Nat := 0x03054
/-- GATE.APERTURE: Fabric aperture quarter and enable. -/
abbrev GATE_APERTURE : Nat := 0x04040
/-- GATE.RACKS: Local rack and reachable racks. -/
abbrev GATE_RACKS : Nat := 0x04044
/-- GATE.LOCAL_BASE: LOCAL aperture base and enable. -/
abbrev GATE_LOCAL_BASE : Nat := 0x04048
/-- GATE.WCACHE_STAT: Region Window cache occupancy. -/
abbrev GATE_WCACHE_STAT : Nat := 0x0404C
/-- GATE.WCACHE_INV: Invalidate unpinned windows. -/
abbrev GATE_WCACHE_INV : Nat := 0x04050
/-- GATE.RESOLVE_STAT: Resolutions in flight, longest walk. -/
abbrev GATE_RESOLVE_STAT : Nat := 0x04054
/-- GATE.MISS_CNT: Window misses. -/
abbrev GATE_MISS_CNT : Nat := 0x04058
/-- GATE.WALK_CNT: Region Table walks. -/
abbrev GATE_WALK_CNT : Nat := 0x0405C
/-- GATE.GRANT_CNT: Grants. -/
abbrev GATE_GRANT_CNT : Nat := 0x04060
/-- GATE.REFUSE_CNTn: Refusals with code 1–7, at 0x060 + 4 × code. -/
abbrev GATE_REFUSE_CNT (n : Nat) : Nat := 0x04064 + 4 * (n - 1)
/-- GATE.AGE_STAT: Aged sources. -/
abbrev GATE_AGE_STAT : Nat := 0x04080
/-- GATE.LAST_REFUSE: Last refusal other than RETRY. -/
abbrev GATE_LAST_REFUSE : Nat := 0x04084
/-- GATE.LAST_ADDR_LO: REQ_ADDR[31:0] of that refusal. -/
abbrev GATE_LAST_ADDR_LO : Nat := 0x04088
/-- GATE.LAST_ADDR_HI: REQ_ADDR[51:32] of that refusal in [19:0]. -/
abbrev GATE_LAST_ADDR_HI : Nat := 0x0408C
/-- GATE.CNT_CLR: Clear counters. -/
abbrev GATE_CNT_CLR : Nat := 0x04090
/-- REGION.TABLE_BASE_LO: Region Table base, bits [31:16]. -/
abbrev REGION_TABLE_BASE_LO : Nat := 0x05040
/-- REGION.TABLE_BASE_HI: Region Table base, bits [51:32]. -/
abbrev REGION_TABLE_BASE_HI : Nat := 0x05044
/-- REGION.DIR_BASE_LO: Region Directory base, bits [31:16]. -/
abbrev REGION_DIR_BASE_LO : Nat := 0x05048
/-- REGION.DIR_BASE_HI: Region Directory base, bits [51:32]. -/
abbrev REGION_DIR_BASE_HI : Nat := 0x0504C
/-- REGION.MAP_BASE_LO: Map pool base, bits [31:16]. -/
abbrev REGION_MAP_BASE_LO : Nat := 0x05050
/-- REGION.MAP_BASE_HI: Map pool base, bits [51:32]. -/
abbrev REGION_MAP_BASE_HI : Nat := 0x05054
/-- REGION.MAP_COUNT: Maps in the pool. -/
abbrev REGION_MAP_COUNT : Nat := 0x05058
/-- REGION.LIVE: Valid regions. -/
abbrev REGION_LIVE : Nat := 0x0505C
/-- REGION.MAPS_USED: Maps in use. -/
abbrev REGION_MAPS_USED : Nat := 0x05060
/-- REGION.RTC_STAT: Region Table cache occupancy. -/
abbrev REGION_RTC_STAT : Nat := 0x05064
/-- REGION.LAST_OP: Last REGION_OP sub-operation and result. -/
abbrev REGION_LAST_OP : Nat := 0x05068
/-- SEAL.ALARM_CTL: Quarantine on released-data alarms. -/
abbrev SEAL_ALARM_CTL : Nat := 0x06040
/-- SEAL.ALARM_CNT: LATE_MAC_FAIL count. -/
abbrev SEAL_ALARM_CNT : Nat := 0x06044
/-- SEAL.STALE_CNT: SEAL_STALE count. -/
abbrev SEAL_STALE_CNT : Nat := 0x06048
/-- SEAL.REFETCH_CNT: Epoch resolutions from the home (R113). -/
abbrev SEAL_REFETCH_CNT : Nat := 0x0604C
/-- SEAL.COPY_FAIL_CNT: COPY_AUTH_FAIL count. -/
abbrev SEAL_COPY_FAIL_CNT : Nat := 0x06050
/-- SEAL.LAST_ALARM: Last alarm: source, tag, slice, lines, kind. -/
abbrev SEAL_LAST_ALARM : Nat := 0x06054
/-- SEAL.LAST_ADDR_LO: Pool address [31:0] of that alarm's lowest failed line. -/
abbrev SEAL_LAST_ADDR_LO : Nat := 0x06058
/-- SEAL.LAST_ADDR_HI: Pool address [45:32] of that line. -/
abbrev SEAL_LAST_ADDR_HI : Nat := 0x0605C
/-- SEAL.QUAR_STAT: Quarantined slices. -/
abbrev SEAL_QUAR_STAT : Nat := 0x06060
/-- SEAL.QUAR_REL: Release one slice from quarantine. -/
abbrev SEAL_QUAR_REL : Nat := 0x06064
/-- SEAL.SAVED_LINES: Lines not sent by group writes and group reads. -/
abbrev SEAL_SAVED_LINES : Nat := 0x06068
/-- SEAL.CNT_CLR: Clear counters. -/
abbrev SEAL_CNT_CLR : Nat := 0x0606C
/-- GKT.PART_BASE_LO: Partition base, bits [31:16]. -/
abbrev GKT_PART_BASE_LO : Nat := 0x07040
/-- GKT.PART_BASE_HI: Partition base, bits [51:32]. -/
abbrev GKT_PART_BASE_HI : Nat := 0x07044
/-- GKT.HOME_N: Home map size N. -/
abbrev GKT_HOME_N : Nat := 0x07048
/-- GKT.HOMED: Valid entries in this partition. -/
abbrev GKT_HOMED : Nat := 0x0704C
/-- GKT.CACHE_STAT: GKT cache occupancy. -/
abbrev GKT_CACHE_STAT : Nat := 0x07050
/-- GKT.MISS_CNT: GKT cache misses. -/
abbrev GKT_MISS_CNT : Nat := 0x07054
/-- GKT.FETCH_CNT: GKT_GET sent. -/
abbrev GKT_FETCH_CNT : Nat := 0x07058
/-- GKT.DISCARD_CNT: Answers discarded (R143). -/
abbrev GKT_DISCARD_CNT : Nat := 0x0705C
/-- GKT.NOTICE_CNT: Notices applied. -/
abbrev GKT_NOTICE_CNT : Nat := 0x07060
/-- GKT.LAST_ERR: Last GKT_CORRUPT or GKT_HOME_DEAD. -/
abbrev GKT_LAST_ERR : Nat := 0x07064
/-- GKT.CNT_CLR: Clear counters. -/
abbrev GKT_CNT_CLR : Nat := 0x07068
/-- PUMP.CTL: Rate and pause. -/
abbrev PUMP_CTL : Nat := 0x08040
/-- PUMP.STAT: Pump activity and work list. -/
abbrev PUMP_STAT : Nat := 0x08044
/-- PUMP.WET_GRAN: Granule being swept. -/
abbrev PUMP_WET_GRAN : Nat := 0x08048
/-- PUMP.CURSOR: PUMP.CURSOR (R149). -/
abbrev PUMP_CURSOR : Nat := 0x0804C
/-- PUMP.T_ACK: Wait per GKT_OPEN send (R145). -/
abbrev PUMP_T_ACK : Nat := 0x08050
/-- PUMP.LINES_DONE: Lines re-sealed. -/
abbrev PUMP_LINES_DONE : Nat := 0x08054
/-- PUMP.LINES_RACE: Writes answered CONDITION_FAILED. -/
abbrev PUMP_LINES_RACE : Nat := 0x08058
/-- PUMP.LINES_SKIP: Lines already under E. -/
abbrev PUMP_LINES_SKIP : Nat := 0x0805C
/-- PUMP.LINES_FAIL: Lines that failed authentication. -/
abbrev PUMP_LINES_FAIL : Nat := 0x08060
/-- PUMP.LINES_FOREIGN: Lines with a foreign etag. -/
abbrev PUMP_LINES_FOREIGN : Nat := 0x08064
/-- PUMP.GRAN_LEFT: Granules QUEUED or WET. -/
abbrev PUMP_GRAN_LEFT : Nat := 0x08068
/-- PUMP.LAST_CMD: Last REKEY_START or REKEY_ABORT result. -/
abbrev PUMP_LAST_CMD : Nat := 0x0806C
/-- PUMP.CNT_CLR: Clear counters. -/
abbrev PUMP_CNT_CLR : Nat := 0x08070
/-- LINK.T_DEAD: Dead-target time (R178). -/
abbrev LINK_T_DEAD : Nat := 0x09040
/-- LINK.T_PATH: Re-route wait (R180). -/
abbrev LINK_T_PATH : Nat := 0x09044
/-- LINK.KU_INTERVAL: Timed key update (R165). -/
abbrev LINK_KU_INTERVAL : Nat := 0x09048
/-- LINK.POOL_PORTS: Ports for pool traffic (R172). -/
abbrev LINK_POOL_PORTS : Nat := 0x0904C
/-- LINK.CTL_PORTS: Ports for member and multicast traffic. -/
abbrev LINK_CTL_PORTS : Nat := 0x09050
/-- LINK.SESS_STAT: Ports with a session. -/
abbrev LINK_SESS_STAT : Nat := 0x09054
/-- LINK.DEAD_CNT: DEAD_TARGET completions. -/
abbrev LINK_DEAD_CNT : Nat := 0x09058
/-- LINK.REISSUE_CNT: Reissues. -/
abbrev LINK_REISSUE_CNT : Nat := 0x0905C
/-- LINK.SUMP_UNMATCHED: Sump: unmatched responses. -/
abbrev LINK_SUMP_UNMATCHED : Nat := 0x09060
/-- LINK.SUMP_SLOT: Sump: dead-slot flits. -/
abbrev LINK_SUMP_SLOT : Nat := 0x09064
/-- LINK.SUMP_LAST: Last Sump flit. -/
abbrev LINK_SUMP_LAST : Nat := 0x09068
/-- LINK.LAST_DEAD: Last DEAD_TARGET. -/
abbrev LINK_LAST_DEAD : Nat := 0x0906C
/-- LINK.LAST_DEAD_ADDR_LO: Its pool address [31:0]. -/
abbrev LINK_LAST_DEAD_ADDR_LO : Nat := 0x09070
/-- LINK.LAST_DEAD_ADDR_HI: Its pool address [45:32]. -/
abbrev LINK_LAST_DEAD_ADDR_HI : Nat := 0x09074
/-- LINK.IDE_REFRESH: IDE key refresh period. -/
abbrev LINK_IDE_REFRESH : Nat := 0x09078
/-- LINK.CNT_CLR: Clear counters. -/
abbrev LINK_CNT_CLR : Nat := 0x0907C
/-- LINK.GWn: Gateway member of rack k, at 0x080 + 4k. -/
abbrev LINK_GW (n : Nat) : Nat := 0x09080 + 4 * n
/-- LINK.GW_SLICE: Inbound gateway service. -/
abbrev LINK_GW_SLICE : Nat := 0x090C0
/-- FABOP.ATOM_CNT: Atomics issued. -/
abbrev FABOP_ATOM_CNT : Nat := 0x0A040
/-- FABOP.COMP_CNT: Switch-compute requests issued. -/
abbrev FABOP_COMP_CNT : Nat := 0x0A044
/-- FABOP.COND_FAIL_CNT: COND_WRITE answered CONDITION_FAILED. -/
abbrev FABOP_COND_FAIL_CNT : Nat := 0x0A048
/-- FABOP.OPERAND_CNT: FABOP_OPERAND count. -/
abbrev FABOP_OPERAND_CNT : Nat := 0x0A04C
/-- FABOP.UNCERTAIN_CNT: Atomics completed UNCERTAIN. -/
abbrev FABOP_UNCERTAIN_CNT : Nat := 0x0A050
/-- FABOP.LAST_UNCERTAIN: Last UNCERTAIN atomic. -/
abbrev FABOP_LAST_UNCERTAIN : Nat := 0x0A054
/-- FABOP.GW_OUT: Lines moved by BULK_MOVE. -/
abbrev FABOP_GW_OUT : Nat := 0x0A058
/-- FABOP.GW_IN: Lines served as gateway member. -/
abbrev FABOP_GW_IN : Nat := 0x0A05C
/-- FABOP.GW_LAST: Last remote refusal. -/
abbrev FABOP_GW_LAST : Nat := 0x0A060
/-- FABOP.CNT_CLR: Clear counters. -/
abbrev FABOP_CNT_CLR : Nat := 0x0A064
/-- LPORT.STAT: Link, session, path generation, peer. -/
abbrev LPORT_STAT (n : Nat) : Nat := 0x30040 + 0x1000 * n
/-- LPORT.GEN: Key generations. -/
abbrev LPORT_GEN (n : Nat) : Nat := 0x30044 + 0x1000 * n
/-- LPORT.CRED: Egress credits held per VC. -/
abbrev LPORT_CRED (n : Nat) : Nat := 0x30048 + 0x1000 * n
/-- LPORT.TX_FLITS: Flits sent. -/
abbrev LPORT_TX_FLITS (n : Nat) : Nat := 0x3004C + 0x1000 * n
/-- LPORT.RX_FLITS: Flits received. -/
abbrev LPORT_RX_FLITS (n : Nat) : Nat := 0x30050 + 0x1000 * n
/-- LPORT.AUTH_FAIL_CNT: Tag failures. -/
abbrev LPORT_AUTH_FAIL_CNT (n : Nat) : Nat := 0x30054 + 0x1000 * n
/-- LPORT.DROP_CNT: Flits dropped (R160, R164). -/
abbrev LPORT_DROP_CNT (n : Nat) : Nat := 0x30058 + 0x1000 * n
/-- LPORT.SESS_CNT: Sessions established. -/
abbrev LPORT_SESS_CNT (n : Nat) : Nat := 0x3005C + 0x1000 * n
/-- LPORT.LAST_END: Reason the last session ended. -/
abbrev LPORT_LAST_END (n : Nat) : Nat := 0x30060 + 0x1000 * n
/-- LPORT.SESS_CTL: End and restart the session. -/
abbrev LPORT_SESS_CTL (n : Nat) : Nat := 0x30064 + 0x1000 * n
/-- LPORT.CNT_CLR: Clear counters. -/
abbrev LPORT_CNT_CLR (n : Nat) : Nat := 0x30068 + 0x1000 * n
/-- BRU.T_GROUP: Wait for answers once draining (R216). -/
abbrev BRU_T_GROUP : Nat := 0x0B040
/-- BRU.FRESH_BASE_LO: Freshness table base, bits [31:16]. -/
abbrev BRU_FRESH_BASE_LO : Nat := 0x0B044
/-- BRU.FRESH_BASE_HI: Freshness table base, bits [51:32]. -/
abbrev BRU_FRESH_BASE_HI : Nat := 0x0B048
/-- BRU.CTX_STAT: Contexts open, commands waiting for one. -/
abbrev BRU_CTX_STAT : Nat := 0x0B04C
/-- BRU.BLOCKS_OUT: Blocks contributed. -/
abbrev BRU_BLOCKS_OUT : Nat := 0x0B050
/-- BRU.BLOCKS_IN: Blocks verified and released. -/
abbrev BRU_BLOCKS_IN : Nat := 0x0B054
/-- BRU.SAT_CNT: Lanes saturated. -/
abbrev BRU_SAT_CNT : Nat := 0x0B058
/-- BRU.NAN_CNT: NaN source elements. -/
abbrev BRU_NAN_CNT : Nat := 0x0B05C
/-- BRU.TAG_FAIL_CNT: Blocks failing R202 or with count above G. -/
abbrev BRU_TAG_FAIL_CNT : Nat := 0x0B060
/-- BRU.INCOMPLETE_CNT: Blocks with short or missing counts. -/
abbrev BRU_INCOMPLETE_CNT : Nat := 0x0B064
/-- BRU.PROBE_CNT: Exponent bytes probed. -/
abbrev BRU_PROBE_CNT : Nat := 0x0B068
/-- BRU.LAST_CMD: Last BLIND_REDUCE result. -/
abbrev BRU_LAST_CMD : Nat := 0x0B06C
/-- BRU.LAST_FAIL: First failed block of the last failure. -/
abbrev BRU_LAST_FAIL : Nat := 0x0B070
/-- BRU.LAST_COUNT: Count seen and G of that block. -/
abbrev BRU_LAST_COUNT : Nat := 0x0B074
/-- BRU.CNT_CLR: Clear counters. -/
abbrev BRU_CNT_CLR : Nat := 0x0B078
/-- SHAPE.DISPATCH_CNT: DISPATCH commands completed. -/
abbrev SHAPE_DISPATCH_CNT : Nat := 0x0C040
/-- SHAPE.COMBINE_CNT: COMBINE commands completed. -/
abbrev SHAPE_COMBINE_CNT : Nat := 0x0C044
/-- SHAPE.ROWS_REAL: Real rows written. -/
abbrev SHAPE_ROWS_REAL : Nat := 0x0C048
/-- SHAPE.ROWS_DUMMY: Dummy rows written. -/
abbrev SHAPE_ROWS_DUMMY : Nat := 0x0C04C
/-- SHAPE.ROWS_DROP: Real rows dropped (R239). -/
abbrev SHAPE_ROWS_DROP : Nat := 0x0C050
/-- SHAPE.LAST_CMD: Last DISPATCH or COMBINE result. -/
abbrev SHAPE_LAST_CMD : Nat := 0x0C054
/-- SHAPE.LAST_PEER: Participant of the first failure. -/
abbrev SHAPE_LAST_PEER : Nat := 0x0C058
/-- SHAPE.CNT_CLR: Clear counters. -/
abbrev SHAPE_CNT_CLR : Nat := 0x0C05C
/-- CLU.CTL: Manual isolation, retest, repair limit. -/
abbrev CLU_CTL (n : Nat) : Nat := 0x40040 + 0x1000 * n
/-- CLU.STAT: State, phase, partner service, refusal. -/
abbrev CLU_STAT (n : Nat) : Nat := 0x40044 + 0x1000 * n
/-- CLU.PIPE_FAULT: Pipelines that failed a check since the last readmission. -/
abbrev CLU_PIPE_FAULT (n : Nat) : Nat := 0x40048 + 0x1000 * n
/-- CLU.UNIT_FAULT: Other units that failed a check. -/
abbrev CLU_UNIT_FAULT (n : Nat) : Nat := 0x4004C + 0x1000 * n
/-- CLU.KAT_FAIL: Pipelines that failed the last test. -/
abbrev CLU_KAT_FAIL (n : Nat) : Nat := 0x40050 + 0x1000 * n
/-- CLU.KAT_UNIT: Other units in the last test; attempts. -/
abbrev CLU_KAT_UNIT (n : Nat) : Nat := 0x40054 + 0x1000 * n
/-- CLU.REPAIR_CNT: Repairs started. -/
abbrev CLU_REPAIR_CNT (n : Nat) : Nat := 0x40058 + 0x1000 * n
/-- CLU.RERUN_CNT: Blocks processed again for the partner. -/
abbrev CLU_RERUN_CNT (n : Nat) : Nat := 0x4005C + 0x1000 * n
/-- CLU.LAST_REPAIR: Duration of the last completed repair. -/
abbrev CLU_LAST_REPAIR (n : Nat) : Nat := 0x40060 + 0x1000 * n
/-- CLU.CNT_CLR: Clear counters. -/
abbrev CLU_CNT_CLR (n : Nat) : Nat := 0x40064 + 0x1000 * n
/-- CFE.BTT_BASE_LO: Level-1 table base, bits [31:16]. -/
abbrev CFE_BTT_BASE_LO : Nat := 0x0D040
/-- CFE.BTT_BASE_HI: Level-1 table base, bits [51:32]. -/
abbrev CFE_BTT_BASE_HI : Nat := 0x0D044
/-- CFE.BTT_INV: Invalidate BTT cache entries. -/
abbrev CFE_BTT_INV : Nat := 0x0D048
/-- CFE.BTT_INV_LEN: Pages to invalidate. -/
abbrev CFE_BTT_INV_LEN : Nat := 0x0D04C
/-- CFE.BTT_INV_STAT: Invalidation in progress. -/
abbrev CFE_BTT_INV_STAT : Nat := 0x0D050
/-- CFE.BTT_FAULT_ADDR: Block address [41:16] of the last fault. -/
abbrev CFE_BTT_FAULT_ADDR : Nat := 0x0D054
/-- CFE.BTT_FAULT_INFO: Requester and kind of the last fault. -/
abbrev CFE_BTT_FAULT_INFO : Nat := 0x0D058
/-- CFE.SWITCH_LAST: Last T_switch (R289). -/
abbrev CFE_SWITCH_LAST : Nat := 0x0D05C
/-- CFE.OPS_CNT: Operations completed. -/
abbrev CFE_OPS_CNT : Nat := 0x0D060
/-- CFE.GUILTY_CNT: Queues made guilty. -/
abbrev CFE_GUILTY_CNT : Nat := 0x0D064
/-- CFE.BTT_MISS_CNT: BTT cache misses. -/
abbrev CFE_BTT_MISS_CNT : Nat := 0x0D068
/-- CFE.CNT_CLR: Clear counters. -/
abbrev CFE_CNT_CLR : Nat := 0x0D06C
/-- QRING.ACTIVE_LO: Bit n: queue n ACTIVE, queues 0–31. -/
abbrev QRING_ACTIVE_LO : Nat := 0x0E040
/-- QRING.ACTIVE_HI: Same, queues 32–63. -/
abbrev QRING_ACTIVE_HI : Nat := 0x0E044
/-- QRING.GUILTY_LO: Bit n: queue n became guilty, queues 0–31. -/
abbrev QRING_GUILTY_LO : Nat := 0x0E048
/-- QRING.GUILTY_HI: Same, queues 32–63. -/
abbrev QRING_GUILTY_HI : Nat := 0x0E04C
/-- QRING.QRESET: Reset one queue as guilty (cause DRIVER). -/
abbrev QRING_QRESET : Nat := 0x0E050
/-- QRING.Qn_BASE_LO: Ring base, block address bits [31:12]. -/
abbrev QRING_Qn_BASE_LO (n : Nat) : Nat := 0x0E100 + 32 * n
/-- QRING.Qn_BASE_HI: Ring base, block address bits [41:32]. -/
abbrev QRING_Qn_BASE_HI (n : Nat) : Nat := 0x0E104 + 32 * n
/-- QRING.Qn_CTL: Enable, size, slice, producer, flags. -/
abbrev QRING_Qn_CTL (n : Nat) : Nat := 0x0E108 + 32 * n
/-- QRING.Qn_TAIL: tail; a write is a HOST doorbell. -/
abbrev QRING_Qn_TAIL (n : Nat) : Nat := 0x0E10C + 32 * n
/-- QRING.Qn_HEAD: head. -/
abbrev QRING_Qn_HEAD (n : Nat) : Nat := 0x0E110 + 32 * n
/-- QRING.Qn_STAT: State, fetch offset, counts. -/
abbrev QRING_Qn_STAT (n : Nat) : Nat := 0x0E114 + 32 * n
/-- QRING.Qn_ERR: Last guilty cause and operation. -/
abbrev QRING_Qn_ERR (n : Nat) : Nat := 0x0E118 + 32 * n
/-- QRING.Qn_LIMIT: Buffer time limit. -/
abbrev QRING_Qn_LIMIT (n : Nat) : Nat := 0x0E11C + 32 * n
/-- SCHED.CTL: Slice of the Scheduled Port. -/
abbrev SCHED_CTL : Nat := 0x0F040
/-- SCHED.STEPQ_LO: Stepped queues 0–31. -/
abbrev SCHED_STEPQ_LO : Nat := 0x0F044
/-- SCHED.STEPQ_HI: Stepped queues 32–63. -/
abbrev SCHED_STEPQ_HI : Nat := 0x0F048
/-- SCHED.OBUF_LAT: L_ob (R308). -/
abbrev SCHED_OBUF_LAT : Nat := 0x0F04C
/-- SCHED.EGRESS_RES: Egress reservation (R306). -/
abbrev SCHED_EGRESS_RES : Nat := 0x0F050
/-- SCHED.STARVE: Quiet starvation period (R313). -/
abbrev SCHED_STARVE : Nat := 0x0F054
/-- SCHED.STAT: Working, pending, contexts, quiet window. -/
abbrev SCHED_STAT : Nat := 0x0F058
/-- SCHED.OPS_CNT: Slot operations completed. -/
abbrev SCHED_OPS_CNT : Nat := 0x0F05C
/-- SCHED.BUSY_CNT: BUSY completions. -/
abbrev SCHED_BUSY_CNT : Nat := 0x0F060
/-- SCHED.MISS_CNT: SCHED_BOUND_MISS count. -/
abbrev SCHED_MISS_CNT : Nat := 0x0F064
/-- SCHED.LAST_MISS: Last missed bound. -/
abbrev SCHED_LAST_MISS : Nat := 0x0F068
/-- SCHED.CNT_CLR: Clear counters. -/
abbrev SCHED_CNT_CLR : Nat := 0x0F06C
/-- SLICE.SEL: Slice selected. -/
abbrev SLICE_SEL : Nat := 0x10040
/-- SLICE.CFG: PASID for BIND; reads the bound PASID. -/
abbrev SLICE_CFG : Nat := 0x10044
/-- SLICE.CMD: BIND, REMOVE, TEARDOWN. -/
abbrev SLICE_CMD : Nat := 0x10048
/-- SLICE.STAT: State, step, quarantine, refusal. -/
abbrev SLICE_STAT : Nat := 0x1004C
/-- SLICE.JOBS_LO: Job count (R334). -/
abbrev SLICE_JOBS_LO : Nat := 0x10050
/-- SLICE.JOBS_HI: Job count (R334). -/
abbrev SLICE_JOBS_HI : Nat := 0x10054
/-- SLICE.OCC_SLOTS: Occupancy (R333). -/
abbrev SLICE_OCC_SLOTS : Nat := 0x10058
/-- SLICE.OCC_WIN: Occupancy (R333). -/
abbrev SLICE_OCC_WIN : Nat := 0x1005C
/-- SLICE.OCC_GKT: Occupancy (R333). -/
abbrev SLICE_OCC_GKT : Nat := 0x10060
/-- SLICE.OCC_RING: Occupancy (R333). -/
abbrev SLICE_OCC_RING : Nat := 0x10064
/-- SLICE.DRAIN: Drain limit (R337). -/
abbrev SLICE_DRAIN : Nat := 0x10068
/-- SLICE.BOUND: Slices not FREE. -/
abbrev SLICE_BOUND : Nat := 0x1006C
/-- SLICE.BARRIER: Units still holding tagged work. -/
abbrev SLICE_BARRIER : Nat := 0x10070
/-- SLICE.SQUASH_CNT: Transactions squashed. -/
abbrev SLICE_SQUASH_CNT : Nat := 0x10074
/-- SLICE.LOCAL_IGN: LOCAL STOREs ignored. -/
abbrev SLICE_LOCAL_IGN : Nat := 0x10078
/-- FENCE.SEL: Fence selected. -/
abbrev FENCE_SEL : Nat := 0x11040
/-- FENCE.CFG: Owner, sharer, rights, notify. -/
abbrev FENCE_CFG : Nat := 0x11044
/-- FENCE.INIT_LO: Initial value. -/
abbrev FENCE_INIT_LO : Nat := 0x11048
/-- FENCE.INIT_HI: Initial value. -/
abbrev FENCE_INIT_HI : Nat := 0x1104C
/-- FENCE.CMD: ALLOC, FREE, RESET. -/
abbrev FENCE_CMD : Nat := 0x11050
/-- FENCE.STAT: State, status, waiters. -/
abbrev FENCE_STAT : Nat := 0x11054
/-- FENCE.VAL_LO: Current value. -/
abbrev FENCE_VAL_LO : Nat := 0x11058
/-- FENCE.VAL_HI: Current value. -/
abbrev FENCE_VAL_HI : Nat := 0x1105C
/-- FENCE.REGRESS_CNT: Lower signals (R325). -/
abbrev FENCE_REGRESS_CNT : Nat := 0x11060
/-- FENCE.LAST_REGRESS: Last lower signal. -/
abbrev FENCE_LAST_REGRESS : Nat := 0x11064
/-- EVENT.SEL: Event selected. -/
abbrev EVENT_SEL : Nat := 0x12040
/-- EVENT.CFG: Owner, kind, source. -/
abbrev EVENT_CFG : Nat := 0x12044
/-- EVENT.CMD: ALLOC, FREE. -/
abbrev EVENT_CMD : Nat := 0x12048
/-- EVENT.STAT: State, count. -/
abbrev EVENT_STAT : Nat := 0x1204C
/-- EVENT.STATEn: Bit k of STATEn: event 32n + k. -/
abbrev EVENT_STATE (n : Nat) : Nat := 0x12100 + 4 * n
/-- CAP.MEMBER: Member id, rack, joined. -/
abbrev CAP_MEMBER : Nat := 0x01040
/-- CAP.SIZES0: Queues, slices, fences. -/
abbrev CAP_SIZES0 : Nat := 0x01044
/-- CAP.SIZES1: Events, key slots. -/
abbrev CAP_SIZES1 : Nat := 0x01048
/-- CAP.SIZES2: Regions, window cache. -/
abbrev CAP_SIZES2 : Nat := 0x0104C
/-- CAP.FORMATS: Format codes and MX variants. -/
abbrev CAP_FORMATS : Nat := 0x01050
/-- CAP.RATES: Pump rate, largest G, port rate. -/
abbrev CAP_RATES : Nat := 0x01054
/-- CAP.PORTS: Link Ports used. -/
abbrev CAP_PORTS : Nat := 0x01058
/-- CAP.HOME_N: Home map size. -/
abbrev CAP_HOME_N : Nat := 0x0105C
/-- CAP.HOME_SEL: Home map index (RW). -/
abbrev CAP_HOME_SEL : Nat := 0x01060
/-- CAP.HOME_VAL: Home map entry. -/
abbrev CAP_HOME_VAL : Nat := 0x01064
/-- CAP.PEERn: Peer of LPn, at 0x100 + 4n. -/
abbrev CAP_PEER (n : Nat) : Nat := 0x01100 + 4 * n
/-- REG.WINDOW: Budget window length (R346). -/
abbrev REG_WINDOW : Nat := 0x13040
/-- REG.BG_AGE: BACKGROUND promotion time (R352). -/
abbrev REG_BG_AGE : Nat := 0x13044
/-- REG.AGE_MAX: Aging time (R352). -/
abbrev REG_AGE_MAX : Nat := 0x13048
/-- REG.SSEL: Slice selected for SSHARE. -/
abbrev REG_SSEL : Nat := 0x1304C
/-- REG.SSHARE: Weights of the selected slice (R351). -/
abbrev REG_SSHARE : Nat := 0x13050
/-- REG.FLOOR_SUM: Sum of all floors. -/
abbrev REG_FLOOR_SUM : Nat := 0x13054
/-- REG.FLOOR_MAX: Limit on the sum of floors (R347). -/
abbrev REG_FLOOR_MAX : Nat := 0x13058
/-- REG.STAT: Refused write, pending change. -/
abbrev REG_STAT : Nat := 0x1305C
/-- REG.RT_MISS_CNT: RT deadlines missed. -/
abbrev REG_RT_MISS_CNT : Nat := 0x13060
/-- REG.LAST_MISS: Last RT miss. -/
abbrev REG_LAST_MISS : Nat := 0x13064
/-- REG.FLOOR_MISS_CNT: Floors missed. -/
abbrev REG_FLOOR_MISS_CNT : Nat := 0x13068
/-- REG.BREACH_CNT: Breach situations (R357). -/
abbrev REG_BREACH_CNT : Nat := 0x1306C
/-- REG.LAST_BREACH: Last breach situation. -/
abbrev REG_LAST_BREACH : Nat := 0x13070
/-- REG.AGED_CNT: Work aged under R352. -/
abbrev REG_AGED_CNT : Nat := 0x13074
/-- REG.CNT_CLR: Clear counters. -/
abbrev REG_CNT_CLR : Nat := 0x13078
/-- REG.Mm_CFG: Class of master m. -/
abbrev REG_Mm_CFG (n : Nat) : Nat := 0x13100 + 16 * n
/-- REG.Mm_FLOOR: Floor. -/
abbrev REG_Mm_FLOOR (n : Nat) : Nat := 0x13104 + 16 * n
/-- REG.Mm_CAP: Cap. -/
abbrev REG_Mm_CAP (n : Nat) : Nat := 0x13108 + 16 * n
/-- REG.Mm_USED: Charge so far in this window. -/
abbrev REG_Mm_USED (n : Nat) : Nat := 0x1310C + 16 * n
/-- EGRESS.GATE_MAX: Closed-gate limit (R355). -/
abbrev EGRESS_GATE_MAX : Nat := 0x14040
/-- EGRESS.STUCK_STAT: Ports with a gate now stuck. -/
abbrev EGRESS_STUCK_STAT : Nat := 0x14044
/-- EGRESS.LAST_STUCK: Last TGATE_STUCK. -/
abbrev EGRESS_LAST_STUCK : Nat := 0x14048
/-- EGRESS.STUCK_CNT: TGATE_STUCK count. -/
abbrev EGRESS_STUCK_CNT : Nat := 0x1404C
/-- EGRESS.CNT_CLR: Clear counters. -/
abbrev EGRESS_CNT_CLR : Nat := 0x14050
/-- EGRESS.Pn_QUANTUM: Quantum of each VC (R353). -/
abbrev EGRESS_Pn_QUANTUM (n : Nat) : Nat := 0x14100 + 16 * n
/-- EGRESS.Pn_DEFICIT: Deficit of each VC. -/
abbrev EGRESS_Pn_DEFICIT (n : Nat) : Nat := 0x14104 + 16 * n
/-- EGRESS.Pn_BACKLOG: Messages waiting on each VC. -/
abbrev EGRESS_Pn_BACKLOG (n : Nat) : Nat := 0x14108 + 16 * n
/-- EGRESS.Pn_GATED: Visits skipped for a closed gate. -/
abbrev EGRESS_Pn_GATED (n : Nat) : Nat := 0x1410C + 16 * n
/-- CISTERN.STAT: Live and free slots. -/
abbrev CISTERN_STAT : Nat := 0x16040
/-- CISTERN.SLOT_SEL: Slot selected. -/
abbrev CISTERN_SLOT_SEL : Nat := 0x16044
/-- CISTERN.SLOT_META: META of the selected slot (R361). -/
abbrev CISTERN_SLOT_META : Nat := 0x16048
/-- CISTERN.SLOT_META_HI: META_HI of the selected slot. -/
abbrev CISTERN_SLOT_META_HI : Nat := 0x1604C
/-- CISTERN.REFRESH_CNT: Completed refresh passes. -/
abbrev CISTERN_REFRESH_CNT : Nat := 0x16050
/-- CISTERN.ERASE_CNT: Slots erased. -/
abbrev CISTERN_ERASE_CNT : Nat := 0x16054
/-- CISTERN.TRNG_STAT: Health test state and failures. -/
abbrev CISTERN_TRNG_STAT : Nat := 0x16058
/-- CISTERN.DRBG_STAT: Instantiation and reseeds. -/
abbrev CISTERN_DRBG_STAT : Nat := 0x1605C
/-- CISTERN.LAST_OP: Last KEY_OP. -/
abbrev CISTERN_LAST_OP : Nat := 0x16060
/-- CISTERN.CNT_CLR: Clear counters. -/
abbrev CISTERN_CNT_CLR : Nat := 0x16064
/-- LCS.STATE: State in force. -/
abbrev LCS_STATE : Nat := 0x17040
/-- LCS.CODEn: Fuse words 0–2. -/
abbrev LCS_CODE (n : Nat) : Nat := 0x17044 + 4 * n
/-- LCS.SERIALn: Fuse words 44–47. -/
abbrev LCS_SERIAL (n : Nat) : Nat := 0x17050 + 4 * n
/-- LCS.NONCE: Token nonce (R379). -/
abbrev LCS_NONCE : Nat := 0x17060
/-- LCS.TRANS_STAT: Last transition attempt. -/
abbrev LCS_TRANS_STAT : Nat := 0x17064
/-- LCS.TAP_ALLOW: TAP instructions open now. -/
abbrev LCS_TAP_ALLOW : Nat := 0x17068
/-- LCS.REVOKE: Fuse word 48. -/
abbrev LCS_REVOKE : Nat := 0x1706C
/-- SCU.FW_BASE_LO: Partition base, bits [31:20]. -/
abbrev SCU_FW_BASE_LO : Nat := 0x15040
/-- SCU.FW_BASE_HI: Partition base, bits [41:32]. -/
abbrev SCU_FW_BASE_HI : Nat := 0x15044
/-- SCU.FW_STAT: Active bank, running svn, certificate state. -/
abbrev SCU_FW_STAT : Nat := 0x15048
/-- SCU.FW_VERSION: Running fw_version. -/
abbrev SCU_FW_VERSION : Nat := 0x1504C
/-- SCU.UPD_STAT: Update phase and last result. -/
abbrev SCU_UPD_STAT : Nat := 0x15050
/-- SCU.PROBATION: Probation limit. -/
abbrev SCU_PROBATION : Nat := 0x15054
/-- SCU.RESET_GEN: Reset generation (R387). -/
abbrev SCU_RESET_GEN : Nat := 0x15058
/-- ATTEST.MBX_BASE_LO: Mailbox base, bits [31:16]. -/
abbrev ATTEST_MBX_BASE_LO : Nat := 0x18040
/-- ATTEST.MBX_BASE_HI: Mailbox base, bits [41:32]. -/
abbrev ATTEST_MBX_BASE_HI : Nat := 0x18044
/-- ATTEST.MBX_REQ_LEN: Request length. -/
abbrev ATTEST_MBX_REQ_LEN : Nat := 0x18048
/-- ATTEST.MBX_DOORBELL: Start a request. -/
abbrev ATTEST_MBX_DOORBELL : Nat := 0x1804C
/-- ATTEST.MBX_RSP_LEN: Response length. -/
abbrev ATTEST_MBX_RSP_LEN : Nat := 0x18050
/-- ATTEST.MBX_STAT: Busy, ignored doorbells. -/
abbrev ATTEST_MBX_STAT : Nat := 0x18054
/-- ATTEST.POLICY_BASE_LO: Policy image, bits [31:6]. -/
abbrev ATTEST_POLICY_BASE_LO : Nat := 0x18058
/-- ATTEST.POLICY_BASE_HI: Policy image, bits [41:32]. -/
abbrev ATTEST_POLICY_BASE_HI : Nat := 0x1805C
/-- ATTEST.POLICY_LEN: Policy image bytes. -/
abbrev ATTEST_POLICY_LEN : Nat := 0x18060
/-- ATTEST.JOIN_STAT: Last join result (R394). -/
abbrev ATTEST_JOIN_STAT : Nat := 0x18064
/-- ATTEST.REPORT_CNT_LO: Report counter [31:0]. -/
abbrev ATTEST_REPORT_CNT_LO : Nat := 0x18068
/-- ATTEST.REPORT_CNT_HI: Report counter [63:32]. -/
abbrev ATTEST_REPORT_CNT_HI : Nat := 0x1806C
/-- ATTEST.SESSIONS: Secured sessions. -/
abbrev ATTEST_SESSIONS : Nat := 0x18070
/-- MGMT.MAC_LO: MAC address [31:0]. -/
abbrev MGMT_MAC_LO : Nat := 0x19040
/-- MGMT.MAC_HI: MAC address [47:32]. -/
abbrev MGMT_MAC_HI : Nat := 0x19044
/-- MGMT.ETHERTYPE: Management EtherType (R70). -/
abbrev MGMT_ETHERTYPE : Nat := 0x19048
/-- MGMT.RX_CNT: Frames accepted. -/
abbrev MGMT_RX_CNT : Nat := 0x1904C
/-- MGMT.DROP_CNT: Frames and messages dropped. -/
abbrev MGMT_DROP_CNT : Nat := 0x19050
/-- MGMT.LAST_OP: Last MGMT_OP. -/
abbrev MGMT_LAST_OP : Nat := 0x19054
/-- MGMT.AUTH_FAIL_CNT: MGMT_AUTH failures. -/
abbrev MGMT_AUTH_FAIL_CNT : Nat := 0x19058
/-- DEBUG.CTL: Debug controls. -/
abbrev DEBUG_CTL : Nat := 0x23040
/-- DEBUG.STAT: Controls in effect. -/
abbrev DEBUG_STAT : Nat := 0x23044
/-- FAULT.PENDn: Bit k of PENDn: source 32n + k pending. -/
abbrev FAULT_PEND (n : Nat) : Nat := 0x1A040 + 4 * n
/-- FAULT.FIRST: First source raised since CLEAR_ALL. -/
abbrev FAULT_FIRST : Nat := 0x1A070
/-- FAULT.ERR_STAT: ERR_OUT level and holding sources. -/
abbrev FAULT_ERR_STAT : Nat := 0x1A074
/-- FAULT.HIST_STAT: Entries queued, entries lost. -/
abbrev FAULT_HIST_STAT : Nat := 0x1A078
/-- FAULT.HIST_Wn: Oldest history entry (R418). -/
abbrev FAULT_HIST_W (n : Nat) : Nat := 0x1A080 + 4 * n
/-- FAULT.HIST_POP: Remove the oldest entry. -/
abbrev FAULT_HIST_POP : Nat := 0x1A090
/-- FAULT.CNT_SEL: Source selected for CNT. -/
abbrev FAULT_CNT_SEL : Nat := 0x1A094
/-- FAULT.CNT: Raises of the selected source. -/
abbrev FAULT_CNT : Nat := 0x1A098
/-- FAULT.CLEAR_ALL: Clear every pending bit and count, and FIRST. -/
abbrev FAULT_CLEAR_ALL : Nat := 0x1A09C
/-- SEVTAB.CLASSn: Classes of sources 8n to 8n + 7. -/
abbrev SEVTAB_CLASS (n : Nat) : Nat := 0x1B040 + 4 * n
/-- SEVTAB.REACTn: Reaction mask of class Sc. -/
abbrev SEVTAB_REACT (n : Nat) : Nat := 0x1B100 + 4 * n
/-- HANG.CTL: Enable, grace. -/
abbrev HANG_CTL : Nat := 0x1C040
/-- HANG.UNIT_LIMIT: Unit progress limit (R425). -/
abbrev HANG_UNIT_LIMIT : Nat := 0x1C044
/-- HANG.STAT: Edges and candidate cycles in the last pass. -/
abbrev HANG_STAT : Nat := 0x1C048
/-- HANG.CYCLE_CNT: Cycles confirmed. -/
abbrev HANG_CYCLE_CNT : Nat := 0x1C04C
/-- HANG.LAST_CYCLE: Last guilty naming. -/
abbrev HANG_LAST_CYCLE : Nat := 0x1C050
/-- HANG.UNIT_CNT: UNIT_HANG raises. -/
abbrev HANG_UNIT_CNT : Nat := 0x1C054
/-- HANG.LAST_UNIT: Last hung unit. -/
abbrev HANG_LAST_UNIT : Nat := 0x1C058
/-- RESET.CMD: Request a domain reset. -/
abbrev RESET_CMD : Nat := 0x1D040
/-- RESET.STAT: Domains fencing or resetting. -/
abbrev RESET_STAT : Nat := 0x1D044
/-- RESET.DRAIN: Drain limit (R427). -/
abbrev RESET_DRAIN : Nat := 0x1D048
/-- RESET.LAST: Last completed reset. -/
abbrev RESET_LAST : Nat := 0x1D04C
/-- RESET.CNT: Resets completed. -/
abbrev RESET_CNT : Nat := 0x1D050
/-- INJECT.SEL: Checker selected (R419). -/
abbrev INJECT_SEL : Nat := 0x22040
/-- INJECT.CTL: Arm and count. -/
abbrev INJECT_CTL : Nat := 0x22044
/-- INJECT.STAT: Armed state. -/
abbrev INJECT_STAT : Nat := 0x22048
/-- INJECT.RAISE: Raise a source (R420). -/
abbrev INJECT_RAISE : Nat := 0x2204C
/-- WELL.STAT: Write pointer, wrap, trigger and freeze state. -/
abbrev WELL_STAT : Nat := 0x1E040
/-- WELL.SEQ: Records written since cold reset. -/
abbrev WELL_SEQ : Nat := 0x1E044
/-- WELL.LOST: Records lost or not written while frozen. -/
abbrev WELL_LOST : Nat := 0x1E048
/-- WELL.TRIG: Trigger conditions (R438). -/
abbrev WELL_TRIG : Nat := 0x1E04C
/-- WELL.TRIG_SRC: Trigger sources. -/
abbrev WELL_TRIG_SRC : Nat := 0x1E050
/-- WELL.TRIG_POST: Records written after the trigger. -/
abbrev WELL_TRIG_POST : Nat := 0x1E054
/-- WELL.TRIG_NOW: Manual trigger. -/
abbrev WELL_TRIG_NOW : Nat := 0x1E058
/-- WELL.REARM: Unfreeze and arm (R439). -/
abbrev WELL_REARM : Nat := 0x1E05C
/-- WELL.TRIG_INFO: Last trigger. -/
abbrev WELL_TRIG_INFO : Nat := 0x1E060
/-- WELL.HOLDOFF: Per-source record holdoff (R437). -/
abbrev WELL_HOLDOFF : Nat := 0x1E064
/-- WELL.MARKn: Content of the next MARK record. -/
abbrev WELL_MARK (n : Nat) : Nat := 0x1E068 + 4 * n
/-- WELL.MARK_GO: Write a MARK record. -/
abbrev WELL_MARK_GO : Nat := 0x1E078
/-- WELL.RD_IDX: Record selected. -/
abbrev WELL_RD_IDX : Nat := 0x1E080
/-- WELL.RD_Wn: Words of the selected record. -/
abbrev WELL_RD_W (n : Nat) : Nat := 0x1E084 + 4 * n
/-- CNT.CTL: Snapshot, shadow, clear. -/
abbrev CNT_CTL : Nat := 0x1F040
/-- CNT.SEL: Counter selected. -/
abbrev CNT_SEL : Nat := 0x1F044
/-- CNT.VAL_LO: Counter [31:0]; latches VAL_HI (R443, R444). -/
abbrev CNT_VAL_LO : Nat := 0x1F048
/-- CNT.VAL_HI: Counter [47:32]. -/
abbrev CNT_VAL_HI : Nat := 0x1F04C
/-- CNT.EXP_BASE_LO: Export area, block address bits [31:12]. -/
abbrev CNT_EXP_BASE_LO : Nat := 0x1F050
/-- CNT.EXP_BASE_HI: Export area, bits [41:32]. -/
abbrev CNT_EXP_BASE_HI : Nat := 0x1F054
/-- CNT.EXP_CTL: Enable, slots, period (R445). -/
abbrev CNT_EXP_CTL : Nat := 0x1F058
/-- CNT.EXP_STAT: Export state. -/
abbrev CNT_EXP_STAT : Nat := 0x1F05C
/-- CNT.EXP_SEQ: Snapshots exported. -/
abbrev CNT_EXP_SEQ : Nat := 0x1F060
/-- CNT.EXP_MISS: Periods skipped. -/
abbrev CNT_EXP_MISS : Nat := 0x1F064
/-- ICU.TBASE_LO: Vector table base [31:0]. -/
abbrev ICU_TBASE_LO : Nat := 0x20040
/-- ICU.TBASE_HI: Vector table base [47:32]. -/
abbrev ICU_TBASE_HI : Nat := 0x20044
/-- ICU.STRIDE: Bytes between vectors. -/
abbrev ICU_STRIDE : Nat := 0x20048
/-- ICU.TRAP_LO: Trap address [31:0]. -/
abbrev ICU_TRAP_LO : Nat := 0x2004C
/-- ICU.TRAP_HI: Trap address [47:32]. -/
abbrev ICU_TRAP_HI : Nat := 0x20050
/-- ICU.VREADY_LO: Bit v: vector v ready, vectors 0–31. -/
abbrev ICU_VREADY_LO : Nat := 0x20054
/-- ICU.VREADY_HI: Same, vectors 32–63. -/
abbrev ICU_VREADY_HI : Nat := 0x20058
/-- ICU.TRAP_STAT: Trap pending and its first source. -/
abbrev ICU_TRAP_STAT : Nat := 0x2005C
/-- ICU.TRAP_CNT: Trap raises. -/
abbrev ICU_TRAP_CNT : Nat := 0x20060
/-- ICU.PENDn: Bit k of PENDn: source 32n + k pending (R450). -/
abbrev ICU_PEND (n : Nat) : Nat := 0x20080 + 4 * n
/-- ICU.MASKn: Bit k of MASKn: source 32n + k masked. -/
abbrev ICU_MASK (n : Nat) : Nat := 0x200C0 + 4 * n
/-- ICU.ROUTEn: Byte k of ROUTEn: vector of source 4n + k. -/
abbrev ICU_ROUTE (n : Nat) : Nat := 0x20200 + 4 * n
/-- ICU.VCFGv: Coalescing count and time (R448). -/
abbrev ICU_VCFGv (n : Nat) : Nat := 0x20400 + 8 * n
/-- ICU.VCNTv: Coalescing counter (R447). -/
abbrev ICU_VCNTv (n : Nat) : Nat := 0x20404 + 8 * n
/-- DIR.VERSION: Release (R1). -/
abbrev DIR_VERSION : Nat := 0x00040
/-- DIR.PRESENT0: Bit k of PRESENTn: page 32n + k present. -/
abbrev DIR_PRESENT0 : Nat := 0x00044
/-- DIR.PRESENT1: Bit k of PRESENTn: page 32n + k present. -/
abbrev DIR_PRESENT1 : Nat := 0x00048
/-- DIR.PRESENT2: Bit k of PRESENTn: page 32n + k present. -/
abbrev DIR_PRESENT2 : Nat := 0x0004C
/-- DIR.PRESENT3: Bit k of PRESENTn: page 32n + k present. -/
abbrev DIR_PRESENT3 : Nat := 0x00050
/-- DIR.DENY_ADDR: Address of the last DENIED access. -/
abbrev DIR_DENY_ADDR : Nat := 0x00054
/-- DIR.DENY_INFO: Its path, PASID and cause. -/
abbrev DIR_DENY_INFO : Nat := 0x00058
/-- DIR.DENY_CNT: DENIED accesses. -/
abbrev DIR_DENY_CNT : Nat := 0x0005C
/-- DIR.UNMAPPED_CNT: UNMAPPED accesses. -/
abbrev DIR_UNMAPPED_CNT : Nat := 0x00060
/-- DIR.CNT_CLR: Clear counters. -/
abbrev DIR_CNT_CLR : Nat := 0x00064
/-- PERSIST.HSEL: Word selected for HVAL and HCNT. -/
abbrev PERSIST_HSEL : Nat := 0x21040
/-- PERSIST.HVAL: Value in force of word HSEL. -/
abbrev PERSIST_HVAL : Nat := 0x21044
/-- PERSIST.HCNT: Count and state of word HSEL. -/
abbrev PERSIST_HCNT : Nat := 0x21048
/-- PERSIST.MSEL: Word selected for MVAL. -/
abbrev PERSIST_MSEL : Nat := 0x2104C
/-- PERSIST.MVAL: Value of word MSEL; a write persists it. -/
abbrev PERSIST_MVAL : Nat := 0x21050
/-- PERSIST.STAT: Write in progress. -/
abbrev PERSIST_STAT : Nat := 0x21054
/-- PERSIST.WORN_CNT: Worn words. -/
abbrev PERSIST_WORN_CNT : Nat := 0x21058
/-- PERSIST.LAST_ERR: Last refusal or failure. -/
abbrev PERSIST_LAST_ERR : Nat := 0x2105C
/-- PERSIST.WRITE_CNT: Writes issued since cold reset. -/
abbrev PERSIST_WRITE_CNT : Nat := 0x21060

end Reg

/-- One row of the register map: `count` registers at `off`, `off + stride`, … of a page, with the bits of
each access code (R8), the reset value and whether the register is MGMT_ONLY (R466). -/
structure RegRow where
  /-- Offset of the first register in its page. -/
  off : Nat
  /-- Distance of two registers of the row. -/
  stride : Nat
  /-- Registers of the row. -/
  count : Nat
  /-- RW (and RWP) bits. -/
  rw : Nat
  /-- RWL bits. -/
  rwl : Nat
  /-- W1C bits. -/
  w1c : Nat
  /-- WO bits. -/
  wo : Nat
  /-- RO bits. -/
  ro : Nat
  /-- Reset value. -/
  reset : Nat
  /-- MGMT_ONLY. -/
  mgmt : Bool
  deriving DecidableEq, Repr

/-- Rows of the DIR page. -/
def rowsDIR : List RegRow := [
  ⟨0x040, 4, 1, 0x0, 0x0, 0x0, 0x0, 0xFFFFFFFF, 0x30001, false⟩,
  ⟨0x044, 4, 1, 0x0, 0x0, 0x0, 0x0, 0xFFFFFFFF, 0xFFFFFFFF, false⟩,
  ⟨0x048, 4, 1, 0x0, 0x0, 0x0, 0x0, 0xFFFFFFFF, 0xFFFF000F, false⟩,
  ⟨0x04C, 4, 1, 0x0, 0x0, 0x0, 0x0, 0xFFFFFFFF, 0xFFFF, false⟩,
  ⟨0x050, 4, 1, 0x0, 0x0, 0x0, 0x0, 0xFFFFFFFF, 0x0, false⟩,
  ⟨0x054, 4, 1, 0x0, 0x0, 0x0, 0x0, 0x7FFFC, 0x0, false⟩,
  ⟨0x058, 4, 1, 0x0, 0x0, 0x0, 0x0, 0x80FFFFFF, 0x0, false⟩,
  ⟨0x05C, 4, 1, 0x0, 0x0, 0x0, 0x0, 0xFFFFFFFF, 0x0, false⟩,
  ⟨0x060, 4, 1, 0x0, 0x0, 0x0, 0x0, 0xFFFFFFFF, 0x0, false⟩,
  ⟨0x064, 4, 1, 0x0, 0x0, 0x0, 0x1, 0x0, 0x0, false⟩]

/-- Rows of the CAP page. -/
def rowsCAP : List RegRow := [
  ⟨0x040, 4, 1, 0x0, 0x0, 0x0, 0x0, 0x800FFFFF, 0x0, false⟩,
  ⟨0x044, 4, 1, 0x0, 0x0, 0x0, 0x0, 0x7FFFFFFF, 0x40020040, false⟩,
  ⟨0x048, 4, 1, 0x0, 0x0, 0x0, 0x0, 0x1FFFFFF, 0x1000400, false⟩,
  ⟨0x04C, 4, 1, 0x0, 0x0, 0x0, 0x0, 0x3FFFFFF, 0x2010000, false⟩,
  ⟨0x050, 4, 1, 0x0, 0x0, 0x0, 0x0, 0x1FFF1FFF, 0x5F01FFF, false⟩,
  ⟨0x054, 4, 1, 0x0, 0x0, 0x0, 0x0, 0xFFF3FF7F, 0xC83FF40, false⟩,
  ⟨0x058, 4, 1, 0x0, 0x0, 0x0, 0x0, 0xFFFF, 0x0, false⟩,
  ⟨0x05C, 4, 1, 0x0, 0x0, 0x0, 0x0, 0x1FFFF, 0x0, false⟩,
  ⟨0x060, 4, 1, 0xFFFF, 0x0, 0x0, 0x0, 0x0, 0x0, false⟩,
  ⟨0x064, 4, 1, 0x0, 0x0, 0x0, 0x0, 0x8000FFFF, 0x0, false⟩,
  ⟨0x100, 4, 16, 0x0, 0x0, 0x0, 0x0, 0x8000FFFF, 0x0, false⟩]

/-- Rows of the PWR page. -/
def rowsPWR : List RegRow := [
  ⟨0x040, 4, 1, 0x33, 0x0, 0x0, 0x0, 0x0, 0x0, false⟩,
  ⟨0x044, 4, 1, 0x0, 0x0, 0x0, 0x0, 0x80000033, 0x0, false⟩,
  ⟨0x048, 4, 1, 0x7, 0x0, 0x0, 0x0, 0x0, 0x0, false⟩,
  ⟨0x04C, 4, 1, 0x0, 0x0, 0x0, 0x0, 0x77F, 0x0, false⟩,
  ⟨0x050, 4, 1, 0xFFFF, 0x0, 0x0, 0x0, 0x0, 0x40, false⟩,
  ⟨0x054, 4, 1, 0xFFFF, 0x0, 0x0, 0x0, 0x0, 0xA, false⟩,
  ⟨0x058, 4, 1, 0x0, 0x0, 0x0, 0x0, 0xF000F, 0x0, false⟩,
  ⟨0x05C, 4, 1, 0x0, 0x0, 0x0, 0x0, 0x3FF, 0x0, false⟩]

/-- Rows of the CLK page. -/
def rowsCLK : List RegRow := [
  ⟨0x040, 4, 1, 0x0, 0x0, 0x0, 0x0, 0x8000FFFF, 0x0, false⟩,
  ⟨0x044, 4, 1, 0x0, 0x0, 0x0, 0x0, 0x8000FFFF, 0x0, false⟩,
  ⟨0x048, 4, 1, 0x0, 0x0, 0x0, 0x0, 0x8000FFFF, 0x0, false⟩,
  ⟨0x04C, 4, 1, 0xF, 0x0, 0x0, 0x0, 0x0, 0x0, false⟩,
  ⟨0x050, 4, 1, 0x0, 0x0, 0x0, 0x0, 0x8000FFFF, 0x0, false⟩,
  ⟨0x054, 4, 1, 0x0, 0x0, 0x0, 0x0, 0xFFFF7, 0x0, false⟩]

/-- Rows of the GATE page. -/
def rowsGATE : List RegRow := [
  ⟨0x040, 4, 1, 0x0, 0x80000003, 0x0, 0x0, 0x0, 0x0, false⟩,
  ⟨0x044, 4, 1, 0x0, 0xFFFF000F, 0x0, 0x0, 0x0, 0x0, false⟩,
  ⟨0x048, 4, 1, 0x0, 0x83FFFFFF, 0x0, 0x0, 0x0, 0x0, false⟩,
  ⟨0x04C, 4, 1, 0x0, 0x0, 0x0, 0x0, 0xFF01FF, 0x0, false⟩,
  ⟨0x050, 4, 1, 0x0, 0x0, 0x0, 0x3FF0003, 0x0, 0x0, false⟩,
  ⟨0x054, 4, 1, 0x0, 0x0, 0x0, 0x0, 0xFFFF001F, 0x0, false⟩,
  ⟨0x058, 4, 1, 0x0, 0x0, 0x0, 0x0, 0xFFFFFFFF, 0x0, false⟩,
  ⟨0x05C, 4, 1, 0x0, 0x0, 0x0, 0x0, 0xFFFFFFFF, 0x0, false⟩,
  ⟨0x060, 4, 1, 0x0, 0x0, 0x0, 0x0, 0xFFFFFFFF, 0x0, false⟩,
  ⟨0x064, 4, 7, 0x0, 0x0, 0x0, 0x0, 0xFFFFFFFF, 0x0, false⟩,
  ⟨0x080, 4, 1, 0x0, 0x0, 0x0, 0x0, 0x1FF, 0x0, false⟩,
  ⟨0x084, 4, 1, 0x0, 0x0, 0x0, 0x0, 0x9FFFFFF7, 0x0, false⟩,
  ⟨0x088, 4, 1, 0x0, 0x0, 0x0, 0x0, 0xFFFFFFFF, 0x0, false⟩,
  ⟨0x08C, 4, 1, 0x0, 0x0, 0x0, 0x0, 0xFFFFF, 0x0, false⟩,
  ⟨0x090, 4, 1, 0x0, 0x0, 0x0, 0x1, 0x0, 0x0, false⟩]

/-- Rows of the REGION page. -/
def rowsREGION : List RegRow := [
  ⟨0x040, 4, 1, 0x0, 0xFFFF0000, 0x0, 0x0, 0x0, 0x0, false⟩,
  ⟨0x044, 4, 1, 0x0, 0xFFFFF, 0x0, 0x0, 0x0, 0x0, false⟩,
  ⟨0x048, 4, 1, 0x0, 0xFFFF0000, 0x0, 0x0, 0x0, 0x0, false⟩,
  ⟨0x04C, 4, 1, 0x0, 0xFFFFF, 0x0, 0x0, 0x0, 0x0, false⟩,
  ⟨0x050, 4, 1, 0x0, 0xFFFF0000, 0x0, 0x0, 0x0, 0x0, false⟩,
  ⟨0x054, 4, 1, 0x0, 0xFFFFF, 0x0, 0x0, 0x0, 0x0, false⟩,
  ⟨0x058, 4, 1, 0x0, 0x1FFFF, 0x0, 0x0, 0x0, 0x0, false⟩,
  ⟨0x05C, 4, 1, 0x0, 0x0, 0x0, 0x0, 0x1FFFF, 0x0, false⟩,
  ⟨0x060, 4, 1, 0x0, 0x0, 0x0, 0x0, 0x1FFFF, 0x0, false⟩,
  ⟨0x064, 4, 1, 0x0, 0x0, 0x0, 0x0, 0x1FFF, 0x0, false⟩,
  ⟨0x068, 4, 1, 0x0, 0x0, 0x0, 0x0, 0xFFFF00FF, 0x0, false⟩]

/-- Rows of the SEAL page. -/
def rowsSEAL : List RegRow := [
  ⟨0x040, 4, 1, 0x0, 0x1, 0x0, 0x0, 0x0, 0x1, false⟩,
  ⟨0x044, 4, 1, 0x0, 0x0, 0x0, 0x0, 0xFFFFFFFF, 0x0, false⟩,
  ⟨0x048, 4, 1, 0x0, 0x0, 0x0, 0x0, 0xFFFFFFFF, 0x0, false⟩,
  ⟨0x04C, 4, 1, 0x0, 0x0, 0x0, 0x0, 0xFFFFFFFF, 0x0, false⟩,
  ⟨0x050, 4, 1, 0x0, 0x0, 0x0, 0x0, 0xFFFFFFFF, 0x0, false⟩,
  ⟨0x054, 4, 1, 0x0, 0x0, 0x0, 0x0, 0xFFFFFFFF, 0x0, false⟩,
  ⟨0x058, 4, 1, 0x0, 0x0, 0x0, 0x0, 0xFFFFFFC0, 0x0, false⟩,
  ⟨0x05C, 4, 1, 0x0, 0x0, 0x0, 0x0, 0x3FFF, 0x0, false⟩,
  ⟨0x060, 4, 1, 0x0, 0x0, 0x0, 0x0, 0x83FF07FF, 0x0, false⟩,
  ⟨0x064, 4, 1, 0x0, 0x0, 0x0, 0x800003FF, 0x0, 0x0, false⟩,
  ⟨0x068, 4, 1, 0x0, 0x0, 0x0, 0x0, 0xFFFFFFFF, 0x0, false⟩,
  ⟨0x06C, 4, 1, 0x0, 0x0, 0x0, 0x1, 0x0, 0x0, false⟩]

/-- Rows of the GKT page. -/
def rowsGKT : List RegRow := [
  ⟨0x040, 4, 1, 0x0, 0xFFFF0000, 0x0, 0x0, 0x0, 0x0, false⟩,
  ⟨0x044, 4, 1, 0x0, 0xFFFFF, 0x0, 0x0, 0x0, 0x0, false⟩,
  ⟨0x048, 4, 1, 0x0, 0x0, 0x0, 0x0, 0x1FFFF, 0x0, false⟩,
  ⟨0x04C, 4, 1, 0x0, 0x0, 0x0, 0x0, 0x3FFFFFF, 0x0, false⟩,
  ⟨0x050, 4, 1, 0x0, 0x0, 0x0, 0x0, 0x1FFFF, 0x0, false⟩,
  ⟨0x054, 4, 1, 0x0, 0x0, 0x0, 0x0, 0xFFFFFFFF, 0x0, false⟩,
  ⟨0x058, 4, 1, 0x0, 0x0, 0x0, 0x0, 0xFFFFFFFF, 0x0, false⟩,
  ⟨0x05C, 4, 1, 0x0, 0x0, 0x0, 0x0, 0xFFFFFFFF, 0x0, false⟩,
  ⟨0x060, 4, 1, 0x0, 0x0, 0x0, 0x0, 0xFFFFFFFF, 0x0, false⟩,
  ⟨0x064, 4, 1, 0x0, 0x0, 0x0, 0x0, 0x8001FFFF, 0x0, false⟩,
  ⟨0x068, 4, 1, 0x0, 0x0, 0x0, 0x1, 0x0, 0x0, false⟩]

/-- Rows of the PUMP page. -/
def rowsPUMP : List RegRow := [
  ⟨0x040, 4, 1, 0x17F, 0x0, 0x0, 0x0, 0x0, 0x40, false⟩,
  ⟨0x044, 4, 1, 0x0, 0x0, 0x0, 0x0, 0xFFFF00F3, 0x0, false⟩,
  ⟨0x048, 4, 1, 0x0, 0x0, 0x0, 0x0, 0x81FFFFFF, 0x0, false⟩,
  ⟨0x04C, 4, 1, 0x0, 0x0, 0x0, 0x0, 0xFFFF, 0x0, false⟩,
  ⟨0x050, 4, 1, 0xFF, 0x0, 0x0, 0x0, 0x0, 0x64, false⟩,
  ⟨0x054, 4, 1, 0x0, 0x0, 0x0, 0x0, 0xFFFFFFFF, 0x0, false⟩,
  ⟨0x058, 4, 1, 0x0, 0x0, 0x0, 0x0, 0xFFFFFFFF, 0x0, false⟩,
  ⟨0x05C, 4, 1, 0x0, 0x0, 0x0, 0x0, 0xFFFFFFFF, 0x0, false⟩,
  ⟨0x060, 4, 1, 0x0, 0x0, 0x0, 0x0, 0xFFFFFFFF, 0x0, false⟩,
  ⟨0x064, 4, 1, 0x0, 0x0, 0x0, 0x0, 0xFFFFFFFF, 0x0, false⟩,
  ⟨0x068, 4, 1, 0x0, 0x0, 0x0, 0x0, 0x3FFFFFF, 0x0, false⟩,
  ⟨0x06C, 4, 1, 0x0, 0x0, 0x0, 0x0, 0xFFFF00F1, 0x0, false⟩,
  ⟨0x070, 4, 1, 0x0, 0x0, 0x0, 0x1, 0x0, 0x0, false⟩]

/-- Rows of the LINK page. -/
def rowsLINK : List RegRow := [
  ⟨0x040, 4, 1, 0x7F, 0x0, 0x0, 0x0, 0x0, 0x8, false⟩,
  ⟨0x044, 4, 1, 0xFF, 0x0, 0x0, 0x0, 0x0, 0x14, false⟩,
  ⟨0x048, 4, 1, 0xFFFF, 0x0, 0x0, 0x0, 0x0, 0x258, false⟩,
  ⟨0x04C, 4, 1, 0x0, 0xFFFF, 0x0, 0x0, 0x0, 0x0, false⟩,
  ⟨0x050, 4, 1, 0x0, 0xFFFF, 0x0, 0x0, 0x0, 0x0, false⟩,
  ⟨0x054, 4, 1, 0x0, 0x0, 0x0, 0x0, 0xFFFF, 0x0, false⟩,
  ⟨0x058, 4, 1, 0x0, 0x0, 0x0, 0x0, 0xFFFFFFFF, 0x0, false⟩,
  ⟨0x05C, 4, 1, 0x0, 0x0, 0x0, 0x0, 0xFFFFFFFF, 0x0, false⟩,
  ⟨0x060, 4, 1, 0x0, 0x0, 0x0, 0x0, 0xFFFFFFFF, 0x0, false⟩,
  ⟨0x064, 4, 1, 0x0, 0x0, 0x0, 0x0, 0xFFFFFFFF, 0x0, false⟩,
  ⟨0x068, 4, 1, 0x0, 0x0, 0x0, 0x0, 0x80001FFF, 0x0, false⟩,
  ⟨0x06C, 4, 1, 0x0, 0x0, 0x0, 0x0, 0xFFFFFFFF, 0x0, false⟩,
  ⟨0x070, 4, 1, 0x0, 0x0, 0x0, 0x0, 0xFFFFFFC0, 0x0, false⟩,
  ⟨0x074, 4, 1, 0x0, 0x0, 0x0, 0x0, 0x3FFF, 0x0, false⟩,
  ⟨0x078, 4, 1, 0xFFFF, 0x0, 0x0, 0x0, 0x0, 0x3C, false⟩,
  ⟨0x07C, 4, 1, 0x0, 0x0, 0x0, 0x1, 0x0, 0x0, false⟩,
  ⟨0x080, 4, 16, 0x0, 0x8000FFFF, 0x0, 0x0, 0x0, 0x0, false⟩,
  ⟨0x0C0, 4, 1, 0x0, 0x800003FF, 0x0, 0x0, 0x0, 0x0, false⟩]

/-- Rows of the FABOP page. -/
def rowsFABOP : List RegRow := [
  ⟨0x040, 4, 1, 0x0, 0x0, 0x0, 0x0, 0xFFFFFFFF, 0x0, false⟩,
  ⟨0x044, 4, 1, 0x0, 0x0, 0x0, 0x0, 0xFFFFFFFF, 0x0, false⟩,
  ⟨0x048, 4, 1, 0x0, 0x0, 0x0, 0x0, 0xFFFFFFFF, 0x0, false⟩,
  ⟨0x04C, 4, 1, 0x0, 0x0, 0x0, 0x0, 0xFFFFFFFF, 0x0, false⟩,
  ⟨0x050, 4, 1, 0x0, 0x0, 0x0, 0x0, 0xFFFFFFFF, 0x0, false⟩,
  ⟨0x054, 4, 1, 0x0, 0x0, 0x0, 0x0, 0x807FFFFF, 0x0, false⟩,
  ⟨0x058, 4, 1, 0x0, 0x0, 0x0, 0x0, 0xFFFFFFFF, 0x0, false⟩,
  ⟨0x05C, 4, 1, 0x0, 0x0, 0x0, 0x0, 0xFFFFFFFF, 0x0, false⟩,
  ⟨0x060, 4, 1, 0x0, 0x0, 0x0, 0x0, 0x800000F7, 0x0, false⟩,
  ⟨0x064, 4, 1, 0x0, 0x0, 0x0, 0x1, 0x0, 0x0, false⟩]

/-- Rows of the BRU page. -/
def rowsBRU : List RegRow := [
  ⟨0x040, 4, 1, 0xFFFF, 0x0, 0x0, 0x0, 0x0, 0x3E8, false⟩,
  ⟨0x044, 4, 1, 0x0, 0xFFFF0000, 0x0, 0x0, 0x0, 0x0, false⟩,
  ⟨0x048, 4, 1, 0x0, 0xFFFFF, 0x0, 0x0, 0x0, 0x0, false⟩,
  ⟨0x04C, 4, 1, 0x0, 0x0, 0x0, 0x0, 0x7F007F, 0x0, false⟩,
  ⟨0x050, 4, 1, 0x0, 0x0, 0x0, 0x0, 0xFFFFFFFF, 0x0, false⟩,
  ⟨0x054, 4, 1, 0x0, 0x0, 0x0, 0x0, 0xFFFFFFFF, 0x0, false⟩,
  ⟨0x058, 4, 1, 0x0, 0x0, 0x0, 0x0, 0xFFFFFFFF, 0x0, false⟩,
  ⟨0x05C, 4, 1, 0x0, 0x0, 0x0, 0x0, 0xFFFFFFFF, 0x0, false⟩,
  ⟨0x060, 4, 1, 0x0, 0x0, 0x0, 0x0, 0xFFFFFFFF, 0x0, false⟩,
  ⟨0x064, 4, 1, 0x0, 0x0, 0x0, 0x0, 0xFFFFFFFF, 0x0, false⟩,
  ⟨0x068, 4, 1, 0x0, 0x0, 0x0, 0x0, 0xFFFFFFFF, 0x0, false⟩,
  ⟨0x06C, 4, 1, 0x0, 0x0, 0x0, 0x0, 0xFFFFFFFF, 0x0, false⟩,
  ⟨0x070, 4, 1, 0x0, 0x0, 0x0, 0x0, 0xFFFFFFFF, 0x0, false⟩,
  ⟨0x074, 4, 1, 0x0, 0x0, 0x0, 0x0, 0x87FF07FF, 0x0, false⟩,
  ⟨0x078, 4, 1, 0x0, 0x0, 0x0, 0x1, 0x0, 0x0, false⟩]

/-- Rows of the SHAPE page. -/
def rowsSHAPE : List RegRow := [
  ⟨0x040, 4, 1, 0x0, 0x0, 0x0, 0x0, 0xFFFFFFFF, 0x0, false⟩,
  ⟨0x044, 4, 1, 0x0, 0x0, 0x0, 0x0, 0xFFFFFFFF, 0x0, false⟩,
  ⟨0x048, 4, 1, 0x0, 0x0, 0x0, 0x0, 0xFFFFFFFF, 0x0, false⟩,
  ⟨0x04C, 4, 1, 0x0, 0x0, 0x0, 0x0, 0xFFFFFFFF, 0x0, false⟩,
  ⟨0x050, 4, 1, 0x0, 0x0, 0x0, 0x0, 0xFFFFFFFF, 0x0, false⟩,
  ⟨0x054, 4, 1, 0x0, 0x0, 0x0, 0x0, 0x8003FFF7, 0x0, false⟩,
  ⟨0x058, 4, 1, 0x0, 0x0, 0x0, 0x0, 0xFFFF00FF, 0x0, false⟩,
  ⟨0x05C, 4, 1, 0x0, 0x0, 0x0, 0x1, 0x0, 0x0, false⟩]

/-- Rows of the CFE page. -/
def rowsCFE : List RegRow := [
  ⟨0x040, 4, 1, 0x0, 0xFFFF0000, 0x0, 0x0, 0x0, 0x0, false⟩,
  ⟨0x044, 4, 1, 0x0, 0xFFFFF, 0x0, 0x0, 0x0, 0x0, false⟩,
  ⟨0x048, 4, 1, 0x0, 0x0, 0x0, 0x83FFFFFF, 0x0, 0x0, false⟩,
  ⟨0x04C, 4, 1, 0x3FFFFFF, 0x0, 0x0, 0x0, 0x0, 0x1, false⟩,
  ⟨0x050, 4, 1, 0x0, 0x0, 0x0, 0x0, 0x1, 0x0, false⟩,
  ⟨0x054, 4, 1, 0x0, 0x0, 0x0, 0x0, 0x3FFFFFF, 0x0, false⟩,
  ⟨0x058, 4, 1, 0x0, 0x0, 0x0, 0x0, 0x8000373F, 0x0, false⟩,
  ⟨0x05C, 4, 1, 0x0, 0x0, 0x0, 0x0, 0x3FFFFF, 0x0, false⟩,
  ⟨0x060, 4, 1, 0x0, 0x0, 0x0, 0x0, 0xFFFFFFFF, 0x0, false⟩,
  ⟨0x064, 4, 1, 0x0, 0x0, 0x0, 0x0, 0xFFFFFFFF, 0x0, false⟩,
  ⟨0x068, 4, 1, 0x0, 0x0, 0x0, 0x0, 0xFFFFFFFF, 0x0, false⟩,
  ⟨0x06C, 4, 1, 0x0, 0x0, 0x0, 0x1, 0x0, 0x0, false⟩]

/-- Rows of the QRING page. -/
def rowsQRING : List RegRow := [
  ⟨0x040, 4, 1, 0x0, 0x0, 0x0, 0x0, 0xFFFFFFFF, 0x0, false⟩,
  ⟨0x044, 4, 1, 0x0, 0x0, 0x0, 0x0, 0xFFFFFFFF, 0x0, false⟩,
  ⟨0x048, 4, 1, 0x0, 0x0, 0xFFFFFFFF, 0x0, 0x0, 0x0, false⟩,
  ⟨0x04C, 4, 1, 0x0, 0x0, 0xFFFFFFFF, 0x0, 0x0, 0x0, false⟩,
  ⟨0x050, 4, 1, 0x0, 0x0, 0x0, 0x8000003F, 0x0, 0x0, false⟩,
  ⟨0x100, 32, 64, 0xFFFFF000, 0x0, 0x0, 0x0, 0x0, 0x0, false⟩,
  ⟨0x104, 32, 64, 0x3FF, 0x0, 0x0, 0x0, 0x0, 0x0, false⟩,
  ⟨0x108, 32, 64, 0x3FF0F3F, 0x0, 0x0, 0x40, 0x0, 0x410, false⟩,
  ⟨0x10C, 32, 64, 0xFFFFFFFF, 0x0, 0x0, 0x0, 0x0, 0x0, false⟩,
  ⟨0x110, 32, 64, 0x0, 0x0, 0x0, 0x0, 0xFFFFFFFF, 0x0, false⟩,
  ⟨0x114, 32, 64, 0x0, 0x0, 0x0, 0x0, 0x1FFFFF1F, 0x0, false⟩,
  ⟨0x118, 32, 64, 0x0, 0x0, 0x0, 0x0, 0xFFFFFFFF, 0x0, false⟩,
  ⟨0x11C, 32, 64, 0xFFFF, 0x0, 0x0, 0x0, 0x0, 0x0, false⟩]

/-- Rows of the SCHED page. -/
def rowsSCHED : List RegRow := [
  ⟨0x040, 4, 1, 0x3FF, 0x0, 0x0, 0x0, 0x0, 0x0, false⟩,
  ⟨0x044, 4, 1, 0xFFFFFFFF, 0x0, 0x0, 0x0, 0x0, 0x0, false⟩,
  ⟨0x048, 4, 1, 0xFFFFFFFF, 0x0, 0x0, 0x0, 0x0, 0x0, false⟩,
  ⟨0x04C, 4, 1, 0x0, 0xFF, 0x0, 0x0, 0x0, 0x10, false⟩,
  ⟨0x050, 4, 1, 0x0, 0xFFF, 0x0, 0x0, 0x0, 0x200, false⟩,
  ⟨0x054, 4, 1, 0xFFFF, 0x0, 0x0, 0x0, 0x0, 0x64, false⟩,
  ⟨0x058, 4, 1, 0x0, 0x0, 0x0, 0x0, 0xC01F1FFF, 0x0, false⟩,
  ⟨0x05C, 4, 1, 0x0, 0x0, 0x0, 0x0, 0xFFFFFFFF, 0x0, false⟩,
  ⟨0x060, 4, 1, 0x0, 0x0, 0x0, 0x0, 0xFFFFFFFF, 0x0, false⟩,
  ⟨0x064, 4, 1, 0x0, 0x0, 0x0, 0x0, 0xFFFFFFFF, 0x0, false⟩,
  ⟨0x068, 4, 1, 0x0, 0x0, 0x0, 0x0, 0xFFFF73FF, 0x0, false⟩,
  ⟨0x06C, 4, 1, 0x0, 0x0, 0x0, 0x1, 0x0, 0x0, false⟩]

/-- Rows of the SLICE page. -/
def rowsSLICE : List RegRow := [
  ⟨0x040, 4, 1, 0x3FF, 0x0, 0x0, 0x0, 0x0, 0x0, false⟩,
  ⟨0x044, 4, 1, 0xFFFFF, 0x0, 0x0, 0x0, 0x0, 0x0, false⟩,
  ⟨0x048, 4, 1, 0x0, 0x0, 0x0, 0x3, 0x0, 0x0, false⟩,
  ⟨0x04C, 4, 1, 0x0, 0x0, 0x0, 0x0, 0xF3F, 0x0, false⟩,
  ⟨0x050, 4, 1, 0x0, 0x0, 0x0, 0x0, 0xFFFFFFFF, 0x0, false⟩,
  ⟨0x054, 4, 1, 0x0, 0x0, 0x0, 0x0, 0xFFFF, 0x0, false⟩,
  ⟨0x058, 4, 1, 0x0, 0x0, 0x0, 0x0, 0x3FFF, 0x0, false⟩,
  ⟨0x05C, 4, 1, 0x0, 0x0, 0x0, 0x0, 0x1FF, 0x0, false⟩,
  ⟨0x060, 4, 1, 0x0, 0x0, 0x0, 0x0, 0x3FFFFFF, 0x0, false⟩,
  ⟨0x064, 4, 1, 0x0, 0x0, 0x0, 0x0, 0x1FFFFFFF, 0x0, false⟩,
  ⟨0x068, 4, 1, 0xFFFF, 0x0, 0x0, 0x0, 0x0, 0x32, false⟩,
  ⟨0x06C, 4, 1, 0x0, 0x0, 0x0, 0x0, 0x7FF, 0x0, false⟩,
  ⟨0x070, 4, 1, 0x0, 0x0, 0x0, 0x0, 0x1FFFFF, 0x0, false⟩,
  ⟨0x074, 4, 1, 0x0, 0x0, 0x0, 0x0, 0xFFFFFFFF, 0x0, false⟩,
  ⟨0x078, 4, 1, 0x0, 0x0, 0x0, 0x0, 0xFFFFFFFF, 0x0, false⟩]

/-- Rows of the FENCE page. -/
def rowsFENCE : List RegRow := [
  ⟨0x040, 4, 1, 0xFFF, 0x0, 0x0, 0x0, 0x0, 0x0, false⟩,
  ⟨0x044, 4, 1, 0x1FFFFFF, 0x0, 0x0, 0x0, 0x0, 0x0, false⟩,
  ⟨0x048, 4, 1, 0xFFFFFFFF, 0x0, 0x0, 0x0, 0x0, 0x0, false⟩,
  ⟨0x04C, 4, 1, 0xFFFFFFFF, 0x0, 0x0, 0x0, 0x0, 0x0, false⟩,
  ⟨0x050, 4, 1, 0x0, 0x0, 0x0, 0x3FF0003, 0x0, 0x0, false⟩,
  ⟨0x054, 4, 1, 0x0, 0x0, 0x0, 0x0, 0x1FFF3, 0x3, false⟩,
  ⟨0x058, 4, 1, 0x0, 0x0, 0x0, 0x0, 0xFFFFFFFF, 0x0, false⟩,
  ⟨0x05C, 4, 1, 0x0, 0x0, 0x0, 0x0, 0xFFFFFFFF, 0x0, false⟩,
  ⟨0x060, 4, 1, 0x0, 0x0, 0x0, 0x0, 0xFFFFFFFF, 0x0, false⟩,
  ⟨0x064, 4, 1, 0x0, 0x0, 0x0, 0x0, 0x8FFFFFFF, 0x0, false⟩]

/-- Rows of the EVENT page. -/
def rowsEVENT : List RegRow := [
  ⟨0x040, 4, 1, 0x3FF, 0x0, 0x0, 0x0, 0x0, 0x0, false⟩,
  ⟨0x044, 4, 1, 0x3F07FF, 0x0, 0x0, 0x0, 0x0, 0x0, false⟩,
  ⟨0x048, 4, 1, 0x0, 0x0, 0x0, 0x3, 0x0, 0x0, false⟩,
  ⟨0x04C, 4, 1, 0x0, 0x0, 0x0, 0x0, 0xFFFF0003, 0x0, false⟩,
  ⟨0x100, 4, 32, 0x0, 0x0, 0xFFFFFFFF, 0x0, 0x0, 0x0, false⟩]

/-- Rows of the REG page. -/
def rowsREG : List RegRow := [
  ⟨0x040, 4, 1, 0xFF, 0x0, 0x0, 0x0, 0x0, 0x14, false⟩,
  ⟨0x044, 4, 1, 0xFF, 0x0, 0x0, 0x0, 0x0, 0x14, false⟩,
  ⟨0x048, 4, 1, 0xFFFF, 0x0, 0x0, 0x0, 0x0, 0x64, false⟩,
  ⟨0x04C, 4, 1, 0x3FF, 0x0, 0x0, 0x0, 0x0, 0x0, false⟩,
  ⟨0x050, 4, 1, 0xFFFF, 0x0, 0x0, 0x0, 0x0, 0x1010, false⟩,
  ⟨0x054, 4, 1, 0x0, 0x0, 0x0, 0x0, 0xFFFFFF, 0x0, false⟩,
  ⟨0x058, 4, 1, 0x0, 0x0, 0x0, 0x0, 0xFFFFFF, 0x0, false⟩,
  ⟨0x05C, 4, 1, 0x0, 0x0, 0x0, 0x0, 0x3, 0x0, false⟩,
  ⟨0x060, 4, 1, 0x0, 0x0, 0x0, 0x0, 0xFFFFFFFF, 0x0, false⟩,
  ⟨0x064, 4, 1, 0x0, 0x0, 0x0, 0x0, 0x807FFFFF, 0x0, false⟩,
  ⟨0x068, 4, 1, 0x0, 0x0, 0x0, 0x0, 0xFFFFFFFF, 0x0, false⟩,
  ⟨0x06C, 4, 1, 0x0, 0x0, 0x0, 0x0, 0xFFFFFFFF, 0x0, false⟩,
  ⟨0x070, 4, 1, 0x0, 0x0, 0x0, 0x0, 0x87FFFFFF, 0x0, false⟩,
  ⟨0x074, 4, 1, 0x0, 0x0, 0x0, 0x0, 0xFFFFFFFF, 0x0, false⟩,
  ⟨0x078, 4, 1, 0x0, 0x0, 0x0, 0x1, 0x0, 0x0, false⟩,
  ⟨0x100, 16, 10, 0x3, 0x0, 0x0, 0x0, 0x0, 0x1, false⟩,
  ⟨0x1A0, 16, 1, 0x3, 0x0, 0x0, 0x0, 0x0, 0x2, false⟩,
  ⟨0x1B0, 16, 1, 0x3, 0x0, 0x0, 0x0, 0x0, 0x1, false⟩,
  ⟨0x1C0, 16, 1, 0x3, 0x0, 0x0, 0x0, 0x0, 0x3, false⟩,
  ⟨0x104, 16, 13, 0xFFFFFF, 0x0, 0x0, 0x0, 0x0, 0x0, false⟩,
  ⟨0x108, 16, 13, 0xFFFFFF, 0x0, 0x0, 0x0, 0x0, 0x0, false⟩,
  ⟨0x10C, 16, 13, 0x0, 0x0, 0x0, 0x0, 0xFFFFFF, 0x0, false⟩]

/-- Rows of the EGRESS page. -/
def rowsEGRESS : List RegRow := [
  ⟨0x040, 4, 1, 0xFFFF, 0x0, 0x0, 0x0, 0x0, 0x64, false⟩,
  ⟨0x044, 4, 1, 0x0, 0x0, 0x0, 0x0, 0xFFFF, 0x0, false⟩,
  ⟨0x048, 4, 1, 0x0, 0x0, 0x0, 0x0, 0x8000003F, 0x0, false⟩,
  ⟨0x04C, 4, 1, 0x0, 0x0, 0x0, 0x0, 0xFFFFFFFF, 0x0, false⟩,
  ⟨0x050, 4, 1, 0x0, 0x0, 0x0, 0x1, 0x0, 0x0, false⟩,
  ⟨0x100, 16, 16, 0xFFFFFFFF, 0x0, 0x0, 0x0, 0x0, 0x8202020, false⟩,
  ⟨0x104, 16, 16, 0x0, 0x0, 0x0, 0x0, 0xFFFFFFFF, 0x0, false⟩,
  ⟨0x108, 16, 16, 0x0, 0x0, 0x0, 0x0, 0xFFFFFFFF, 0x0, false⟩,
  ⟨0x10C, 16, 16, 0x0, 0x0, 0x0, 0x0, 0xFFFFFFFF, 0x0, false⟩]

/-- Rows of the SCU page. -/
def rowsSCU : List RegRow := [
  ⟨0x040, 4, 1, 0x0, 0xFFF00000, 0x0, 0x0, 0x0, 0x0, false⟩,
  ⟨0x044, 4, 1, 0x0, 0x3FF, 0x0, 0x0, 0x0, 0x0, false⟩,
  ⟨0x048, 4, 1, 0x0, 0x0, 0x0, 0x0, 0xFFFF0007, 0x0, false⟩,
  ⟨0x04C, 4, 1, 0x0, 0x0, 0x0, 0x0, 0xFFFFFFFF, 0x0, false⟩,
  ⟨0x050, 4, 1, 0x0, 0x0, 0x0, 0x0, 0xFFFF0073, 0x0, false⟩,
  ⟨0x054, 4, 1, 0x3FFF, 0x0, 0x0, 0x0, 0x0, 0x3E8, true⟩,
  ⟨0x058, 4, 1, 0x0, 0x0, 0x0, 0x0, 0xFFFFFFFF, 0x0, false⟩]

/-- Rows of the CISTERN page. -/
def rowsCISTERN : List RegRow := [
  ⟨0x040, 4, 1, 0x0, 0x0, 0x0, 0x0, 0x9FFF3FFF, 0x0, false⟩,
  ⟨0x044, 4, 1, 0x1FFF, 0x0, 0x0, 0x0, 0x0, 0x0, false⟩,
  ⟨0x048, 4, 1, 0x0, 0x0, 0x0, 0x0, 0xFFFFFFFF, 0x0, false⟩,
  ⟨0x04C, 4, 1, 0x0, 0x0, 0x0, 0x0, 0xFFFFFFFF, 0x0, false⟩,
  ⟨0x050, 4, 1, 0x0, 0x0, 0x0, 0x0, 0xFFFFFFFF, 0x0, false⟩,
  ⟨0x054, 4, 1, 0x0, 0x0, 0x0, 0x0, 0xFFFFFFFF, 0x0, false⟩,
  ⟨0x058, 4, 1, 0x0, 0x0, 0x0, 0x0, 0xFFFF03, 0x0, false⟩,
  ⟨0x05C, 4, 1, 0x0, 0x0, 0x0, 0x0, 0xFFFFFF03, 0x0, false⟩,
  ⟨0x060, 4, 1, 0x0, 0x0, 0x0, 0x0, 0x803FFFFF, 0x0, false⟩,
  ⟨0x064, 4, 1, 0x0, 0x0, 0x0, 0x1, 0x0, 0x0, false⟩]

/-- Rows of the LCS page. -/
def rowsLCS : List RegRow := [
  ⟨0x040, 4, 1, 0x0, 0x0, 0x0, 0x0, 0x1F, 0x0, false⟩,
  ⟨0x044, 4, 3, 0x0, 0x0, 0x0, 0x0, 0xFFFFFFFF, 0x0, false⟩,
  ⟨0x050, 4, 4, 0x0, 0x0, 0x0, 0x0, 0xFFFFFFFF, 0x0, false⟩,
  ⟨0x060, 4, 1, 0x0, 0x0, 0x0, 0x0, 0xFFFFFFFF, 0x0, true⟩,
  ⟨0x064, 4, 1, 0x0, 0x0, 0x0, 0x0, 0xF7, 0x0, false⟩,
  ⟨0x068, 4, 1, 0x0, 0x0, 0x0, 0x0, 0x3F, 0x0, false⟩,
  ⟨0x06C, 4, 1, 0x0, 0x0, 0x0, 0x0, 0xFFFFFFFF, 0x0, false⟩]

/-- Rows of the ATTEST page. -/
def rowsATTEST : List RegRow := [
  ⟨0x040, 4, 1, 0xFFFF0000, 0x0, 0x0, 0x0, 0x0, 0x0, false⟩,
  ⟨0x044, 4, 1, 0x3FF, 0x0, 0x0, 0x0, 0x0, 0x0, false⟩,
  ⟨0x048, 4, 1, 0x1FFFF, 0x0, 0x0, 0x0, 0x0, 0x0, false⟩,
  ⟨0x04C, 4, 1, 0x0, 0x0, 0x0, 0x1, 0x0, 0x0, false⟩,
  ⟨0x050, 4, 1, 0x0, 0x0, 0x0, 0x0, 0x1FFFF, 0x0, false⟩,
  ⟨0x054, 4, 1, 0x0, 0x0, 0x0, 0x0, 0xFF01, 0x0, false⟩,
  ⟨0x058, 4, 1, 0xFFFFFFC0, 0x0, 0x0, 0x0, 0x0, 0x0, false⟩,
  ⟨0x05C, 4, 1, 0x3FF, 0x0, 0x0, 0x0, 0x0, 0x0, false⟩,
  ⟨0x060, 4, 1, 0xFFFFFF, 0x0, 0x0, 0x0, 0x0, 0x0, false⟩,
  ⟨0x064, 4, 1, 0x0, 0x0, 0x0, 0x0, 0x3F, 0x0, false⟩,
  ⟨0x068, 4, 1, 0x0, 0x0, 0x0, 0x0, 0xFFFFFFFF, 0x0, false⟩,
  ⟨0x06C, 4, 1, 0x0, 0x0, 0x0, 0x0, 0xFFFFFFFF, 0x0, false⟩,
  ⟨0x070, 4, 1, 0x0, 0x0, 0x0, 0x0, 0x77, 0x0, false⟩]

/-- Rows of the MGMT page. -/
def rowsMGMT : List RegRow := [
  ⟨0x040, 4, 1, 0xFFFFFFFF, 0x0, 0x0, 0x0, 0x0, 0x0, true⟩,
  ⟨0x044, 4, 1, 0xFFFF, 0x0, 0x0, 0x0, 0x0, 0x0, true⟩,
  ⟨0x048, 4, 1, 0xFFFF, 0x0, 0x0, 0x0, 0x0, 0x88B5, true⟩,
  ⟨0x04C, 4, 1, 0x0, 0x0, 0x0, 0x0, 0xFFFFFFFF, 0x0, false⟩,
  ⟨0x050, 4, 1, 0x0, 0x0, 0x0, 0x0, 0xFFFFFFFF, 0x0, false⟩,
  ⟨0x054, 4, 1, 0x0, 0x0, 0x0, 0x0, 0x800007FF, 0x0, false⟩,
  ⟨0x058, 4, 1, 0x0, 0x0, 0x0, 0x0, 0xFFFFFFFF, 0x0, false⟩]

/-- Rows of the FAULT page. -/
def rowsFAULT : List RegRow := [
  ⟨0x040, 4, 12, 0x0, 0x0, 0xFFFFFFFF, 0x0, 0x0, 0x0, false⟩,
  ⟨0x070, 4, 1, 0x0, 0x0, 0x0, 0x0, 0x800001FF, 0x0, false⟩,
  ⟨0x074, 4, 1, 0x0, 0x0, 0x0, 0x0, 0x1FF0001, 0x0, false⟩,
  ⟨0x078, 4, 1, 0x0, 0x0, 0x0, 0x0, 0xFF1F, 0x0, false⟩,
  ⟨0x080, 4, 4, 0x0, 0x0, 0x0, 0x0, 0xFFFFFFFF, 0x0, false⟩,
  ⟨0x090, 4, 1, 0x0, 0x0, 0x0, 0x1, 0x0, 0x0, false⟩,
  ⟨0x094, 4, 1, 0x1FF, 0x0, 0x0, 0x0, 0x0, 0x0, false⟩,
  ⟨0x098, 4, 1, 0x0, 0x0, 0x0, 0x0, 0xFFFF, 0x0, false⟩,
  ⟨0x09C, 4, 1, 0x0, 0x0, 0x0, 0x1, 0x0, 0x0, false⟩]

/-- Rows of the SEVTAB page. -/
def rowsSEVTAB : List RegRow := [
  ⟨0x040, 4, 48, 0x0, 0x77777777, 0x0, 0x0, 0x0, 0x0, false⟩,
  ⟨0x100, 4, 8, 0x0, 0x1F, 0x0, 0x0, 0x0, 0x0, false⟩]

/-- Rows of the HANG page. -/
def rowsHANG : List RegRow := [
  ⟨0x040, 4, 1, 0xFF01, 0x0, 0x0, 0x0, 0x0, 0xA01, false⟩,
  ⟨0x044, 4, 1, 0xFFFF, 0x0, 0x0, 0x0, 0x0, 0x3E8, false⟩,
  ⟨0x048, 4, 1, 0x0, 0x0, 0x0, 0x0, 0xFF0FFF, 0x0, false⟩,
  ⟨0x04C, 4, 1, 0x0, 0x0, 0x0, 0x0, 0xFFFFFFFF, 0x0, false⟩,
  ⟨0x050, 4, 1, 0x0, 0x0, 0x0, 0x0, 0x81FFFFFF, 0x0, false⟩,
  ⟨0x054, 4, 1, 0x0, 0x0, 0x0, 0x0, 0xFFFFFFFF, 0x0, false⟩,
  ⟨0x058, 4, 1, 0x0, 0x0, 0x0, 0x0, 0x80000007, 0x0, false⟩]

/-- Rows of the RESET page. -/
def rowsRESET : List RegRow := [
  ⟨0x040, 4, 1, 0x0, 0x0, 0x0, 0x8000000F, 0x0, 0x0, false⟩,
  ⟨0x044, 4, 1, 0x0, 0x0, 0x0, 0x0, 0x7FFF, 0x0, false⟩,
  ⟨0x048, 4, 1, 0xFF, 0x0, 0x0, 0x0, 0x0, 0x32, false⟩,
  ⟨0x04C, 4, 1, 0x0, 0x0, 0x0, 0x0, 0xFFFF3FFF, 0x0, false⟩,
  ⟨0x050, 4, 1, 0x0, 0x0, 0x0, 0x0, 0xFFFFFFFF, 0x0, false⟩]

/-- Rows of the WELL page. -/
def rowsWELL : List RegRow := [
  ⟨0x040, 4, 1, 0x0, 0x0, 0x0, 0x0, 0x71FFF, 0x0, false⟩,
  ⟨0x044, 4, 1, 0x0, 0x0, 0x0, 0x0, 0xFFFFFFFF, 0x0, false⟩,
  ⟨0x048, 4, 1, 0x0, 0x0, 0x0, 0x0, 0xFFFFFFFF, 0x0, false⟩,
  ⟨0x04C, 4, 1, 0x87FF, 0x0, 0x0, 0x0, 0x0, 0x0, true⟩,
  ⟨0x050, 4, 1, 0x81FF81FF, 0x0, 0x0, 0x0, 0x0, 0x0, true⟩,
  ⟨0x054, 4, 1, 0x1FFF, 0x0, 0x0, 0x0, 0x0, 0x0, true⟩,
  ⟨0x058, 4, 1, 0x0, 0x0, 0x0, 0x1, 0x0, 0x0, false⟩,
  ⟨0x05C, 4, 1, 0x0, 0x0, 0x0, 0x1, 0x0, 0x0, true⟩,
  ⟨0x060, 4, 1, 0x0, 0x0, 0x0, 0x0, 0x81FFFFFF, 0x0, false⟩,
  ⟨0x064, 4, 1, 0xFFFF, 0x0, 0x0, 0x0, 0x0, 0xA, false⟩,
  ⟨0x068, 4, 4, 0xFFFFFFFF, 0x0, 0x0, 0x0, 0x0, 0x0, false⟩,
  ⟨0x078, 4, 1, 0x0, 0x0, 0x0, 0x1, 0x0, 0x0, false⟩,
  ⟨0x080, 4, 1, 0x1FFF, 0x0, 0x0, 0x0, 0x0, 0x0, true⟩,
  ⟨0x084, 4, 8, 0x0, 0x0, 0x0, 0x0, 0xFFFFFFFF, 0x0, true⟩]

/-- Rows of the CNT page. -/
def rowsCNT : List RegRow := [
  ⟨0x040, 4, 1, 0x2, 0x0, 0x0, 0x5, 0x0, 0x0, false⟩,
  ⟨0x044, 4, 1, 0xFF, 0x0, 0x0, 0x0, 0x0, 0x0, false⟩,
  ⟨0x048, 4, 1, 0x0, 0x0, 0x0, 0x0, 0xFFFFFFFF, 0x0, false⟩,
  ⟨0x04C, 4, 1, 0x0, 0x0, 0x0, 0x0, 0xFFFF, 0x0, false⟩,
  ⟨0x050, 4, 1, 0xFFFFF000, 0x0, 0x0, 0x0, 0x0, 0x0, false⟩,
  ⟨0x054, 4, 1, 0x3FF, 0x0, 0x0, 0x0, 0x0, 0x0, false⟩,
  ⟨0x058, 4, 1, 0xFFFF0F01, 0x0, 0x0, 0x0, 0x0, 0x3E80000, false⟩,
  ⟨0x05C, 4, 1, 0x0, 0x0, 0x0, 0x0, 0xFF03, 0x0, false⟩,
  ⟨0x060, 4, 1, 0x0, 0x0, 0x0, 0x0, 0xFFFFFFFF, 0x0, false⟩,
  ⟨0x064, 4, 1, 0x0, 0x0, 0x0, 0x0, 0xFFFFFFFF, 0x0, false⟩]

/-- Rows of the ICU page. -/
def rowsICU : List RegRow := [
  ⟨0x040, 4, 1, 0xFFFFFFFC, 0x0, 0x0, 0x0, 0x0, 0x0, false⟩,
  ⟨0x044, 4, 1, 0xFFFF, 0x0, 0x0, 0x0, 0x0, 0x0, false⟩,
  ⟨0x048, 4, 1, 0xFFFC, 0x0, 0x0, 0x0, 0x0, 0x4, false⟩,
  ⟨0x04C, 4, 1, 0xFFFFFFFC, 0x0, 0x0, 0x0, 0x0, 0x0, false⟩,
  ⟨0x050, 4, 1, 0xFFFF, 0x0, 0x0, 0x0, 0x0, 0x0, false⟩,
  ⟨0x054, 4, 1, 0x0, 0x0, 0x0, 0x0, 0xFFFFFFFF, 0x0, false⟩,
  ⟨0x058, 4, 1, 0x0, 0x0, 0x0, 0x0, 0xFFFFFFFF, 0x0, false⟩,
  ⟨0x05C, 4, 1, 0x0, 0x0, 0x0, 0x0, 0x800001FF, 0x0, false⟩,
  ⟨0x060, 4, 1, 0x0, 0x0, 0x0, 0x0, 0xFFFFFFFF, 0x0, false⟩,
  ⟨0x080, 4, 16, 0xFFFFFFFF, 0x0, 0x0, 0x0, 0x0, 0x0, false⟩,
  ⟨0x0C0, 4, 16, 0xFFFFFFFF, 0x0, 0x0, 0x0, 0x0, 0xFFFFFFFF, false⟩,
  ⟨0x200, 4, 128, 0x3F3F3F3F, 0x0, 0x0, 0x0, 0x0, 0x0, false⟩,
  ⟨0x400, 8, 64, 0xFFFFFFFF, 0x0, 0x0, 0x0, 0x0, 0x1, false⟩,
  ⟨0x404, 8, 64, 0x0, 0x0, 0x0, 0x0, 0xFFFFFFFF, 0x0, false⟩]

/-- Rows of the PERSIST page. -/
def rowsPERSIST : List RegRow := [
  ⟨0x040, 4, 1, 0x1FF, 0x0, 0x0, 0x0, 0x0, 0x0, false⟩,
  ⟨0x044, 4, 1, 0x0, 0x0, 0x0, 0x0, 0xFFFFFFFF, 0x0, false⟩,
  ⟨0x048, 4, 1, 0x0, 0x0, 0x0, 0x0, 0xF00FFFFF, 0x0, false⟩,
  ⟨0x04C, 4, 1, 0x1FF, 0x0, 0x0, 0x0, 0x0, 0x0, true⟩,
  ⟨0x050, 4, 1, 0xFFFFFFFF, 0x0, 0x0, 0x0, 0x0, 0x0, true⟩,
  ⟨0x054, 4, 1, 0x0, 0x0, 0x0, 0x0, 0x1FF, 0x0, false⟩,
  ⟨0x058, 4, 1, 0x0, 0x0, 0x0, 0x0, 0x3FF, 0x0, false⟩,
  ⟨0x05C, 4, 1, 0x0, 0x0, 0x0, 0x0, 0x80000FFF, 0x0, false⟩,
  ⟨0x060, 4, 1, 0x0, 0x0, 0x0, 0x0, 0xFFFFFFFF, 0x0, false⟩]

/-- Rows of the INJECT page. -/
def rowsINJECT : List RegRow := [
  ⟨0x040, 4, 1, 0xFFFFF, 0x0, 0x0, 0x0, 0x0, 0x0, false⟩,
  ⟨0x044, 4, 1, 0xFF01, 0x0, 0x0, 0x0, 0x0, 0x100, false⟩,
  ⟨0x048, 4, 1, 0x0, 0x0, 0x0, 0x0, 0x1FF, 0x0, false⟩,
  ⟨0x04C, 4, 1, 0x0, 0x0, 0x0, 0x800001FF, 0x0, 0x0, false⟩]

/-- Rows of the DEBUG page. -/
def rowsDEBUG : List RegRow := [
  ⟨0x040, 4, 1, 0x7, 0x0, 0x0, 0x0, 0x0, 0x0, true⟩,
  ⟨0x044, 4, 1, 0x0, 0x0, 0x0, 0x0, 0xF, 0x0, false⟩]

/-- Rows of the LPORT page. -/
def rowsLPORT : List RegRow := [
  ⟨0x040, 4, 1, 0x0, 0x0, 0x0, 0x0, 0xFFFFFF07, 0x0, false⟩,
  ⟨0x044, 4, 1, 0x0, 0x0, 0x0, 0x0, 0xFFFFFFFF, 0x0, false⟩,
  ⟨0x048, 4, 1, 0x0, 0x0, 0x0, 0x0, 0xFFFFFFFF, 0x0, false⟩,
  ⟨0x04C, 4, 1, 0x0, 0x0, 0x0, 0x0, 0xFFFFFFFF, 0x0, false⟩,
  ⟨0x050, 4, 1, 0x0, 0x0, 0x0, 0x0, 0xFFFFFFFF, 0x0, false⟩,
  ⟨0x054, 4, 1, 0x0, 0x0, 0x0, 0x0, 0xFFFFFFFF, 0x0, false⟩,
  ⟨0x058, 4, 1, 0x0, 0x0, 0x0, 0x0, 0xFFFFFFFF, 0x0, false⟩,
  ⟨0x05C, 4, 1, 0x0, 0x0, 0x0, 0x0, 0xFFFFFFFF, 0x0, false⟩,
  ⟨0x060, 4, 1, 0x0, 0x0, 0x0, 0x0, 0xF, 0x0, false⟩,
  ⟨0x064, 4, 1, 0x0, 0x0, 0x0, 0x1, 0x0, 0x0, false⟩,
  ⟨0x068, 4, 1, 0x0, 0x0, 0x0, 0x1, 0x0, 0x0, false⟩]

/-- Rows of the CLU page. -/
def rowsCLU : List RegRow := [
  ⟨0x040, 4, 1, 0xF01, 0x0, 0x0, 0x2, 0x0, 0x400, false⟩,
  ⟨0x044, 4, 1, 0x0, 0x0, 0x0, 0x0, 0x737, 0x0, false⟩,
  ⟨0x048, 4, 1, 0x0, 0x0, 0x0, 0x0, 0x3FFFFFFF, 0x0, false⟩,
  ⟨0x04C, 4, 1, 0x0, 0x0, 0x0, 0x0, 0x1F, 0x0, false⟩,
  ⟨0x050, 4, 1, 0x0, 0x0, 0x0, 0x0, 0x3FFFFFFF, 0x0, false⟩,
  ⟨0x054, 4, 1, 0x0, 0x0, 0x0, 0x0, 0x80000307, 0x0, false⟩,
  ⟨0x058, 4, 1, 0x0, 0x0, 0x0, 0x0, 0xFFFFFFFF, 0x0, false⟩,
  ⟨0x05C, 4, 1, 0x0, 0x0, 0x0, 0x0, 0xFFFFFFFF, 0x0, false⟩,
  ⟨0x060, 4, 1, 0x0, 0x0, 0x0, 0x0, 0xFFFF, 0x0, false⟩,
  ⟨0x064, 4, 1, 0x0, 0x0, 0x0, 0x1, 0x0, 0x0, false⟩]

/-- Rows of the page with number `page`; none for a page that has no register of its own. -/
def pageRows (page : Nat) : List RegRow :=
  match page with
  | 0x00 => rowsDIR
  | 0x01 => rowsCAP
  | 0x02 => rowsPWR
  | 0x03 => rowsCLK
  | 0x04 => rowsGATE
  | 0x05 => rowsREGION
  | 0x06 => rowsSEAL
  | 0x07 => rowsGKT
  | 0x08 => rowsPUMP
  | 0x09 => rowsLINK
  | 0x0A => rowsFABOP
  | 0x0B => rowsBRU
  | 0x0C => rowsSHAPE
  | 0x0D => rowsCFE
  | 0x0E => rowsQRING
  | 0x0F => rowsSCHED
  | 0x10 => rowsSLICE
  | 0x11 => rowsFENCE
  | 0x12 => rowsEVENT
  | 0x13 => rowsREG
  | 0x14 => rowsEGRESS
  | 0x15 => rowsSCU
  | 0x16 => rowsCISTERN
  | 0x17 => rowsLCS
  | 0x18 => rowsATTEST
  | 0x19 => rowsMGMT
  | 0x1A => rowsFAULT
  | 0x1B => rowsSEVTAB
  | 0x1C => rowsHANG
  | 0x1D => rowsRESET
  | 0x1E => rowsWELL
  | 0x1F => rowsCNT
  | 0x20 => rowsICU
  | 0x21 => rowsPERSIST
  | 0x22 => rowsINJECT
  | 0x23 => rowsDEBUG
  | _ => if 0x30 ≤ page ∧ page ≤ 0x3F then rowsLPORT else if 0x40 ≤ page ∧ page ≤ 0x4F then rowsCLU else []

/-- Page-specific bits of IRQ_STAT that a page defines (each page's chapter); bit 31 is every page's but the ICU's. -/
def pageIrqMask (page : Nat) : Nat :=
  match page with
  | 0x00 => 0x1
  | 0x02 => 0x7
  | 0x04 => 0xF
  | 0x05 => 0x1
  | 0x06 => 0xF
  | 0x07 => 0x3
  | 0x08 => 0xF
  | 0x09 => 0xF
  | 0x0A => 0x3
  | 0x0B => 0x1F
  | 0x0C => 0x7
  | 0x0D => 0x7
  | 0x0E => 0x7
  | 0x0F => 0x7
  | 0x10 => 0x3
  | 0x11 => 0x1
  | 0x13 => 0x7
  | 0x14 => 0x1
  | 0x15 => 0x3
  | 0x16 => 0x3
  | 0x17 => 0x1
  | 0x18 => 0x7
  | 0x19 => 0x3
  | 0x1A => 0x3
  | 0x1C => 0x3
  | 0x1D => 0x1
  | 0x1E => 0x3
  | 0x1F => 0x1
  | 0x21 => 0x3
  | _ => if 0x30 ≤ page ∧ page ≤ 0x3F then 0x3 else if 0x40 ≤ page ∧ page ≤ 0x4F then 0x1F else 0x0

/-- PAGE_CAP.lockable: the page has RWL fields (R456). -/
def pageLockable (page : Nat) : Bool :=
  match page with
  | 0x04 => true
  | 0x05 => true
  | 0x06 => true
  | 0x07 => true
  | 0x09 => true
  | 0x0B => true
  | 0x0D => true
  | 0x0F => true
  | 0x15 => true
  | 0x1B => true
  | _ => if 0x30 ≤ page ∧ page ≤ 0x3F then false else if 0x40 ≤ page ∧ page ≤ 0x4F then false else false

/-- PAGE_CAP.persistent: the page has RWP fields (R466). -/
def pagePersistent (page : Nat) : Bool :=
  match page with
  | 0x19 => true
  | 0x1E => true
  | 0x21 => true
  | _ => if 0x30 ≤ page ∧ page ≤ 0x3F then false else if 0x40 ≤ page ∧ page ≤ 0x4F then false else false

/-- PAGE_CAP.mgmt: the page has MGMT_ONLY registers (R466). -/
def pageMgmt (page : Nat) : Bool :=
  match page with
  | 0x15 => true
  | 0x17 => true
  | 0x19 => true
  | 0x1E => true
  | 0x21 => true
  | 0x23 => true
  | _ => if 0x30 ≤ page ∧ page ≤ 0x3F then false else if 0x40 ≤ page ∧ page ≤ 0x4F then false else false

/-- PAGE_CAP.clock: 0 CK_HOST, 1 CK_ENG, 2 CK_ENG/2, 3 CK_MGT, 4 CK_AON. -/
def pageClock (page : Nat) : Nat :=
  match page with
  | 0x01 => 1
  | 0x02 => 4
  | 0x03 => 4
  | 0x05 => 1
  | 0x06 => 1
  | 0x07 => 1
  | 0x08 => 1
  | 0x09 => 1
  | 0x0A => 1
  | 0x0B => 1
  | 0x0C => 1
  | 0x0D => 1
  | 0x0E => 1
  | 0x10 => 1
  | 0x11 => 1
  | 0x12 => 1
  | 0x13 => 1
  | 0x14 => 1
  | 0x15 => 2
  | 0x16 => 4
  | 0x17 => 4
  | 0x18 => 2
  | 0x19 => 3
  | 0x1A => 4
  | 0x1B => 4
  | 0x1C => 4
  | 0x1D => 4
  | 0x1E => 4
  | 0x1F => 1
  | 0x20 => 4
  | 0x21 => 4
  | 0x22 => 4
  | 0x23 => 2
  | _ => if 0x30 ≤ page ∧ page ≤ 0x3F then 1 else if 0x40 ≤ page ∧ page ≤ 0x4F then 1 else 0

/-- PAGE_CAP.last: offset of the last page-specific register, divided by 4. -/
def pageLast (page : Nat) : Nat :=
  match page with
  | 0x00 => 0x19
  | 0x01 => 0x4F
  | 0x02 => 0x17
  | 0x03 => 0x15
  | 0x04 => 0x24
  | 0x05 => 0x1A
  | 0x06 => 0x1B
  | 0x07 => 0x1A
  | 0x08 => 0x1C
  | 0x09 => 0x30
  | 0x0A => 0x19
  | 0x0B => 0x1E
  | 0x0C => 0x17
  | 0x0D => 0x1B
  | 0x0E => 0x23F
  | 0x0F => 0x1B
  | 0x10 => 0x1E
  | 0x11 => 0x19
  | 0x12 => 0x5F
  | 0x13 => 0x73
  | 0x14 => 0x7F
  | 0x15 => 0x16
  | 0x16 => 0x19
  | 0x17 => 0x1B
  | 0x18 => 0x1C
  | 0x19 => 0x16
  | 0x1A => 0x27
  | 0x1B => 0x47
  | 0x1C => 0x16
  | 0x1D => 0x14
  | 0x1E => 0x28
  | 0x1F => 0x19
  | 0x20 => 0x17F
  | 0x21 => 0x18
  | 0x22 => 0x13
  | 0x23 => 0x11
  | _ => if 0x30 ≤ page ∧ page ≤ 0x3F then 0x1A else if 0x40 ≤ page ∧ page ≤ 0x4F then 0x19 else 0x0

end Sys2Proof.Machine
end

