-- ==== Sys2Proof/Machine/Units1.lean ====
section
/-! DEFINITION. The state of the units on the request path: Gate, regions, transactions, Regulator,
egress, Link Ports, granule keys and the Rekey Pump. Each field's docstring names its rule and its
reset value. A sparse table is a list of (index, value) pairs with rising indices, in which an index
that is not listed holds the table's default. -/

namespace Sys2Proof.Machine

/-- One window of the Region Window cache (R93). -/
structure Window where
  /-- Slice matched. 10 bits; R93. -/
  slice : Nat
  /-- First granule. 25 bits; R93. -/
  base : Nat
  /-- Granules. 26 bits; R93. -/
  size : Nat
  /-- Region index. 16 bits; R93. -/
  region : Nat
  /-- Region generation. 16 bits; R93. -/
  gen : Nat
  /-- Class. R93. -/
  cls : RClass
  /-- Region state. R93. -/
  state : RState
  /-- The slice's permission bits R, W, A, C. R89, R93. -/
  perm : BitVec 4
  /-- Queues whose buffers have pinned the window. R98. -/
  pinned : List Nat
  /-- The aged source it was resolved for, and the network time until which it is kept for it. R103. -/
  guard : Option (Nat × Nat)
  deriving DecidableEq, Repr

/-- A negative entry of the Gate (R97). -/
structure NegEntry where
  /-- Slice. R97. -/
  slice : Nat
  /-- Granule. R97. -/
  granule : Nat
  /-- PERM when true, NO_WINDOW when false. R97. -/
  isPerm : Bool
  deriving DecidableEq, Repr

/-- The state of a walk of R95. -/
inductive WalkStage where
  | cached | dir | map (mapIndex : Nat) | table (region : Nat)
  deriving DecidableEq, Repr

/-- A Region Table entry (R89). -/
structure Region where
  /-- class. R89. -/
  cls : RClass
  /-- state. R89. -/
  state : RState
  /-- lq_full. R89. -/
  lqFull : Bool
  /-- tag_lanes2. R89. -/
  lanes2 : Bool
  /-- probe_ok. R89. -/
  probeOk : Bool
  /-- generation. R89. -/
  gen : Nat
  /-- base_gran. R89. -/
  base : Nat
  /-- size_gran. R89. -/
  size : Nat
  /-- fill. R89. -/
  fill : Word
  /-- key_family. R89. -/
  family : Nat
  /-- Shares in use: position 0 to 7, slice and permission bits. R89. -/
  shares : List (Nat × Nat × BitVec 4)
  deriving DecidableEq, Repr

/-- A window resolution in flight (R94). -/
structure Resolution where
  /-- Slice. R94. -/
  slice : Nat
  /-- Granule. R94. -/
  granule : Nat
  /-- Where the walk stands; `cached` when the Region Table cache holds the entry. R93, R95. -/
  stage : WalkStage
  /-- A read of the walk has failed once. R96. -/
  retried : Bool
  /-- What the walk found: no result yet, no region, or the entry with its index. R97. -/
  found : Option (Option (Nat × Region))
  /-- Time of its reads so far, in ns. R95. -/
  ns : Nat
  /-- A read took longer than 160 ns. R95. -/
  slow : Bool
  /-- REGION_OPs completed when the resolution started. R102. -/
  era : Nat
  /-- The aged source it was started for. R103. -/
  aged : Option Nat
  /-- The listed region that it was started for; none for a granule that a request has missed. R98. -/
  listed : Option Nat
  /-- Queues whose buffers pin the window that it places. R98. -/
  pins : List Nat
  deriving DecidableEq, Repr

/-- The Gate (R83 to R103). -/
structure Gate where
  /-- Region Window cache, least recently hit first, at most 256. R93; reset: empty. -/
  windows : List Window
  /-- Negative entries, oldest first, at most 16. R97; reset: empty. -/
  negatives : List NegEntry
  /-- Resolutions in flight, at most 16. R94; reset: empty. -/
  resolutions : List Resolution
  /-- Consecutive RETRY refusals of each source, 0 to 7 UTPn, 9 CFE; default 0. R103; reset: empty. -/
  retries : Tbl Nat
  /-- Aged sources, the one aged earliest first. R103; reset: empty. -/
  aged : List Nat
  /-- REGION_OPs completed, the age of a negative result. R102; reset: 0. -/
  era : Nat
  /-- Region Table cache: indices and entries, least recently used first, at most 4,096. R93; reset: empty. -/
  rtc : List (Nat × Region)
  deriving DecidableEq, Repr

/-- A REGION_OP that is executing and waits for requests granted before it (R101, R476). -/
structure RegionOpRun where
  /-- Queue of the operation. R476. -/
  queue : Nat
  /-- Index of the operation in its buffer. R476. -/
  op : Nat
  /-- Sub-operation code. R476. -/
  subop : Nat
  /-- Region index. R100. -/
  index : Nat
  /-- Transactions granted before the change that are still to be answered. R101. -/
  waits : List Nat
  deriving DecidableEq, Repr

/-- The block's own tables in device memory: Region Table, Region Directory and map pool (R89, R92).
Only the block writes them (R104). -/
structure Regions where
  /-- Region Table entries by index; default none, an entry that is not valid. R89; reset: none valid. -/
  table : Tbl (Option Region)
  /-- Times that each index has been used, the source of its generation; default 0. 16 bits; R89; reset: empty. -/
  gens : Tbl Nat
  /-- Region Directory words by GiB; default 0, EMPTY. R92; reset: empty. -/
  dir : Tbl Word
  /-- Granule map words by 512 x map + granule of the GiB; default 0. R92; reset: empty. -/
  maps : Tbl Word
  /-- GiB plus 1 that each map has been taken for; default 0, free. R92, R476; reset: empty. -/
  owner : Tbl Nat
  /-- The REGION_OP that is executing. R476; reset: none. -/
  running : Option RegionOpRun
  deriving DecidableEq, Repr

/-- How a line of a load stands with authentication (R113, R117). -/
inductive LineCheck where
  | pass | stale | macFail | missing
  deriving DecidableEq, Repr

/-- Where a granted transaction stands. -/
inductive Stage where
  | awaitData      -- granted, its write data beat has not been transferred (R55)
  | keyWait        -- waits for its GKT entry or key set (R140, R371)
  | queued         -- in its master's Regulator queue (R343)
  | passed         -- a SEAL store passed to its cluster, to be sealed (R114)
  | egress         -- passed, its message is in a Link Port's egress queue (R353)
  | inFlight       -- sent, no answer yet (R178)
  | rerouted       -- its T_PATH wait runs (R180)
  | resolving      -- a line of its answer waits for the granule's entry from its home (R113)
  | held           -- VERIFIED: plaintext held until the check ends (R117)
  | ready          -- its answer waits for the master's ready signal (R56)
  | window         -- its read data beat is transferred; the tag is still outstanding (R52)
  deriving DecidableEq, Repr

/-- A granted transaction that is still outstanding (R50 to R57, R88). -/
structure Txn where
  /-- Transaction tag, unique among the block's outstanding transactions. 32 bits; R167. -/
  id : Nat
  /-- Who asked. R343. -/
  src : Source
  /-- REQ_TAG; 0 for other sources. R52. -/
  tag : BitVec 10
  /-- What was asked. R51. -/
  kind : ReqKind
  /-- Class tag given by the Gate; none for LOCAL. R88. -/
  cls : Option RClass
  /-- Slice. R88. -/
  slice : Nat
  /-- Region index tagged at the grant. R88. -/
  region : Nat
  /-- Region generation tagged at the grant. R88. -/
  gen : Nat
  /-- Pool address, or offset in the LOCAL aperture. R84, R85. -/
  addr : BitVec 46
  /-- Lines asked for or sent. R167. -/
  lines : Nat
  /-- REQ_ATYPE. R51. -/
  atype : BitVec 2
  /-- Absolute deadline in network time, for a port of class RT. R349. -/
  deadline : Option Nat
  /-- Network time of the grant. R349. -/
  grantTime : Nat
  /-- Stage. -/
  stage : Stage
  /-- Write data: lines of a store, or the operand beat. R55. -/
  data : List SealedLine
  /-- Epoch recorded at the grant. R113. -/
  epoch : Nat
  /-- epoch_min recorded at the grant. R113. -/
  emin : Nat
  /-- SEAL key family, 0 for other classes. R89. -/
  family : Nat
  /-- Its granule's entry has been recorded; for a waiting answer, the entry has been read again. R113. -/
  keyed : Bool
  /-- Epoch and epoch_min of the entry read again for the lines whose etag the record does not name. R113. -/
  again : Option (Nat × Nat)
  /-- The region's fill pattern at the grant. R89, R178. -/
  fill : Word
  /-- VERIFIED was in effect at the grant. R36. -/
  verified : Bool
  /-- The signal for which the grant is covered: signals issued by its slice before it. R277. -/
  cover : Nat
  /-- Link Port it was sent on. R172. -/
  port : Option (Fin 16)
  /-- PATH_GEN of that port when first issued. R167. -/
  pgen : BitVec 8
  /-- Reissues so far. R182. -/
  reissues : Nat
  /-- Answer status. R56. -/
  status : PortStatus
  /-- Plaintext lines of the answer, in order; atomics: one line with the old value. R56. -/
  answer : List Line
  /-- Outcome of each line's authentication. R118. -/
  checks : List LineCheck
  /-- The answer's MAC checks have ended. R117. -/
  checked : Bool
  /-- Network time at which its last flit left the port. R178. -/
  sentAt : Nat
  /-- Line 0's lc of a group, or lines asked of one message. R123. -/
  arg : Nat
  /-- The slot operation that it carries out. R306. -/
  slot : Option Nat
  deriving DecidableEq, Repr

/-- Work items of the Regulator's masters (R342, R348). -/
inductive Work where
  | txn (id : Nat)                       -- a granted transaction
  | message (m : Message)                -- control, Pump and BRU messages
  deriving DecidableEq, Repr

/-- One piece of work waiting in the Regulator (R343, R348). -/
structure WorkItem where
  /-- Position in the order of grant. R348. -/
  seq : Nat
  /-- Master 0 to 12, or 13 for slot operations under DETERMINISTIC. R342. -/
  master : Nat
  /-- Slice, for the shares of R351. -/
  slice : Nat
  /-- The work. -/
  work : Work
  /-- Bytes it is charged. R345. -/
  bytes : Nat
  /-- Link Port it goes to; none while no port of its set holds a session. R172. -/
  port : Option (Fin 16)
  /-- Virtual channel. R169. -/
  vc : BitVec 2
  /-- Flits of the message. R166. -/
  flits : Nat
  /-- Aged under R352. -/
  aged : Bool
  /-- BACKGROUND work promoted under R352. -/
  promoted : Bool
  /-- Absolute deadline of RT work. R349. -/
  deadline : Option Nat
  /-- Causes seen while it waited: repair, step 1, step 3, cap, egress. R350. -/
  waitedFor : BitVec 5
  /-- Party that it counts for: 0 and a master, or 4 and a slot operation. R357. -/
  party : Nat × Nat
  /-- Party of the work last passed ahead of it at steps 1 and 3, by step. R357. -/
  ahead : Tbl (Nat × Nat)
  deriving DecidableEq, Repr

/-- The Regulator (R342 to R352). -/
structure Regulator where
  /-- Work waiting, in order of grant. R343; reset: empty. -/
  items : List WorkItem
  /-- Next position in the order of grant. R348; reset: 0. -/
  nextSeq : Nat
  /-- Bytes charged to each master in this window; default 0. R345; reset: empty. -/
  charged : Tbl Nat
  /-- Bytes charged at steps 5 and 6 to each slice in this window (1,024 for the Pump and promoted work); default 0. R351; reset: empty. -/
  sliceCharged : Tbl Nat
  /-- Bytes charged at steps 5 and 6 in this window. R358; reset: 0. -/
  shareTotal : Nat
  /-- Masters whose eligible work has waited since the window began. R358; reset: empty. -/
  waitingAll : List Nat
  /-- Slices whose BULK work has waited since the window began. R358; reset: empty. -/
  slicesAll : List Nat
  /-- Steps 1, 3, 4 and 5 at which work was passed in this window. R358; reset: 0. -/
  passedSteps : BitVec 8
  /-- Party of the work last passed at each step in this window. R357; reset: empty. -/
  passedBy : Tbl (Nat × Nat)
  /-- Last master served at step 7. R348; reset: 12. -/
  lastRobin : Nat
  /-- Register writes that take effect at the next refill: address and value, oldest first. R346; reset: empty. -/
  pendingWrites : List (Nat × Word)
  /-- Weights of slices: clu in [7:0] and cfe in [15:8]; default 0x1010. R351; reset: empty. -/
  weights : Tbl Word
  /-- GUARANTEE_BREACH records written in this window: winner, loser, kind, party. R357; reset: empty. -/
  breaches : List (Nat × Nat × Nat × Nat)
  /-- Network time at which the window began. R346; reset: 0. -/
  windowStart : Nat
  deriving DecidableEq, Repr

/-- A message in an egress queue (R353). -/
structure EgressItem where
  /-- The transaction it belongs to; none for control, Pump notices and answers. R178. -/
  txn : Option Nat
  /-- The message. R166. -/
  msg : Message
  /-- Flits still to leave. R166. -/
  left : Nat
  /-- It has been started and charged to the deficit. R353. -/
  started : Bool
  /-- Its flits are ready: false for a SEAL store that its cluster has not sealed yet, which keeps its place. R114, R171. -/
  ready : Bool
  /-- The deadline of the request, for R350. -/
  deadline : Option Nat
  /-- Causes seen while it waited. R350. -/
  waitedFor : BitVec 5
  /-- Master charged, 0 to 13. R342. -/
  master : Nat
  /-- Party of the work last passed ahead of it at steps 1 and 3, by step. R357. -/
  ahead : Tbl (Nat × Nat)
  deriving DecidableEq, Repr

/-- One virtual channel of a Link Port's egress scheduler (R353, R355). -/
structure EgressVc where
  /-- Messages waiting, oldest first. R353; reset: empty. -/
  queue : List EgressItem
  /-- Deficit in flits. R353; reset: 0. -/
  deficit : Nat
  /-- Flit credits held. R65; reset: 0. -/
  credits : Nat
  /-- The gate's stretch has been reported. R355; reset: false. -/
  stuck : Bool
  deriving DecidableEq, Repr

/-- An empty egress queue. -/
def EgressVc.empty : EgressVc := ⟨[], 0, 0, false⟩

/-- A link session's state at one end of a port (R160 to R165). -/
inductive Sess where
  | none | setup | up | ending
  deriving DecidableEq, Repr

/-- One Link Port and its session (R160 to R168, R247). -/
structure LinkPort where
  /-- The port is connected (R48). Reset: false, PRESUMED tie-off until priming. -/
  used : Bool
  /-- LINK_UP. R66; reset: false. -/
  linkUp : Bool
  /-- Session. R160; reset: none. -/
  sess : Sess
  /-- PATH_GEN. 8 bits; R66; reset: 0. -/
  pgen : BitVec 8
  /-- Peer switch id. 16 bits; R161; reset: 0. -/
  peer : BitVec 16
  /-- Transient slot of the handshake's ephemeral private key; none before SESS_INIT has been sent. R161, R366; reset: none. -/
  eph : Option Nat
  /-- SESS_RESP has been verified and SESS_FIN sent. R161; reset: false. -/
  finSent : Bool
  /-- The handshake's messages so far, as the transcript hash takes them. R161, R162; reset: empty. -/
  talk : List Byte
  /-- Shared secret Z of the handshake. R162; reset: empty. -/
  secret : List Byte
  /-- Generation whose keys the current slots hold, transmit and receive. R165, R366; reset: 0. -/
  curGen : BitVec 16 × BitVec 16
  /-- Transmit key generation of each VC. R165; reset: 0. -/
  txGen : Tbl (BitVec 16)
  /-- Receive key generation of each VC. R165; reset: 0. -/
  rxGen : Tbl (BitVec 16)
  /-- Transmit sequence of each VC. 64 bits; R162; reset: 0. -/
  txSeq : Tbl (BitVec 64)
  /-- Receive sequence of each VC. 64 bits; R162; reset: 0. -/
  rxSeq : Tbl (BitVec 64)
  /-- Network time plus 1 of the last peer KEY_UPDATE of each VC; default 0. R165; reset: empty. -/
  lastKu : Tbl Nat
  /-- Network time of the last key update of the transmit direction, or of the session's start. R165; reset: 0. -/
  lastUpdate : Nat
  /-- Ingress flit buffers in use per VC, at most 32. R64; reset: 0. -/
  held : Tbl Nat
  /-- Credits the link layer holds for ingress per VC. R64; reset: 0. -/
  granted : Tbl Nat
  /-- VC_CTL ingress flits processed in this allowance period. R312; reset: 0. -/
  ctlUsed : Nat
  /-- Egress queues of the four VCs. R353; reset: empty. -/
  vcs : Tbl EgressVc
  /-- VC the scheduler visits next. R353; reset: 0. -/
  nextVc : BitVec 2
  /-- Quantum in force at this visit round. R354; reset: 0x08202020. -/
  quantum : Word
  /-- The 30-bit transmit salts, current and next. R162, R366; reset: 0. -/
  txSalts : BitVec 30 × BitVec 30
  /-- The 30-bit receive salts, current and next. R162, R366; reset: 0. -/
  rxSalts : BitVec 30 × BitVec 30
  /-- Messages held in the ingress buffers, with the flits of each that came with a credit: their pair is fenced, or they exceed the
  VC_CTL allowance. R64, R257, R312; reset: empty. -/
  waiting : List (WireMessage × Nat)
  deriving DecidableEq, Repr

/-- A port after cold reset. -/
def LinkPort.idle : LinkPort :=
  { used := false, linkUp := false, sess := .none, pgen := 0, peer := 0, eph := .none, finSent := false, talk := [], secret := [], curGen := (0, 0),
    txGen := [], rxGen := [], txSeq := [], rxSeq := [], lastKu := [], lastUpdate := 0, held := [], granted := [], ctlUsed := 0,
    vcs := [], nextVc := 0, quantum := 0x08202020, txSalts := (0, 0), rxSalts := (0, 0), waiting := [] }

/-- A GKT entry (R135), decoded. -/
structure GktEntry where
  /-- key_family. R135. -/
  family : Nat
  /-- epoch. R135. -/
  epoch : Nat
  /-- dual. R135. -/
  dual : Bool
  /-- pstate 0 to 5. R135. -/
  pstate : Nat
  /-- home. R135. -/
  home : Nat
  deriving DecidableEq, Repr

/-- A fill of the GKT cache in progress (R140, R143). -/
structure GktFill where
  /-- Granule. R140. -/
  granule : Nat
  /-- Its home. R138. -/
  home : Nat
  /-- Transaction tag of the GKT_GET; none for a partition read. R140. -/
  txn : Option Nat
  /-- A covering notice of that home has been applied since the GKT_GET. R143. -/
  overtaken : Bool
  /-- The first read of the own partition has failed. R137. -/
  retried : Bool
  deriving DecidableEq, Repr

/-- An open round that this home runs (R144, R145). -/
structure Round where
  /-- Open sequence. 16 bits; R141. -/
  seq : Nat
  /-- Transaction tag of its GKT_OPEN, kept when it is sent again. 32 bits; R167. -/
  txn : Nat
  /-- Region index. R141. -/
  region : Nat
  /-- First granule. R141. -/
  first : Nat
  /-- Granule count. R141. -/
  count : Nat
  /-- Granules of the round. R144. -/
  granules : List Nat
  /-- Members whose GKT_ACK is missing. R144. -/
  missing : List Nat
  /-- GKT_OPEN sends so far. R145. -/
  sends : Nat
  /-- Queue and operation index of the REKEY_START; none once it has completed. R156. -/
  cmd : Option (Nat × Nat)
  /-- Identity of the range in the work list. R156. -/
  range : Nat
  deriving DecidableEq, Repr

/-- A gateway transfer that this member carries out for a remote member (R184, R187). -/
structure GwReq where
  /-- Its transaction. R187. -/
  txn : Nat
  /-- The header of the BULK_PUT or BULK_GET. R187. -/
  hdr : Header
  deriving DecidableEq, Repr

/-- A GKT_OPEN that this member has applied and not yet acknowledged (R142). -/
structure PendingAck where
  /-- Home to acknowledge. R142. -/
  home : Nat
  /-- Open sequence. R142. -/
  seq : Nat
  /-- Transaction tag of the GKT_OPEN. R169. -/
  txn : Nat
  /-- Stores granted before the notice and not yet completed. R142. -/
  stores : List Nat
  /-- Key sets to be derived first: family and epoch. R142. -/
  keys : List (Nat × Nat)
  deriving DecidableEq, Repr

/-- The granule key units (R134 to R146). -/
structure Gkt where
  /-- This member's partition: 64-bit entries by granule, default 0. R134; reset: empty. -/
  part : Tbl (BitVec 64)
  /-- GKT cache: granule and entry, least recently used first, 16 to a set. R140; reset: empty. -/
  cache : List (Nat × GktEntry)
  /-- Fills in progress. R140; reset: empty. -/
  fills : List GktFill
  /-- Open rounds running as a home. R144; reset: empty. -/
  rounds : List Round
  /-- Acknowledgements owed as a member. R142; reset: empty. -/
  acks : List PendingAck
  /-- Closed granules whose GKT_CLOSE has not been sent: granule, epoch, dual. R141; reset: empty. -/
  closes : List (Nat × Nat × Bool)
  /-- Granules pinned by slot contexts, once for each context. R301; reset: empty. -/
  pinned : List Nat
  /-- Sequence of the last GKT_OPEN sent. 16 bits; PUMP.STAT.open_seq; reset: 0. -/
  openSeq : Nat
  deriving DecidableEq, Repr

/-- A range of the Pump's work list (R146, R157). -/
structure PumpRange where
  /-- Identity, in arrival order. -/
  id : Nat
  /-- Granules of the range that this member homes. R156. -/
  granules : List Nat
  /-- Region index. R156. -/
  region : Nat
  /-- First granule and count, absolute. R155. -/
  first : Nat
  /-- Count. R155. -/
  count : Nat
  /-- Fence to signal; none when fence_en is 0. R155. -/
  fence : Option Nat
  /-- Value. R155. -/
  value : BitVec 64
  /-- The range was aborted. R157. -/
  aborted : Bool
  /-- Its open round timed out. R157. -/
  timedOut : Bool
  /-- A granule was parked under R153 or was unusable. R157. -/
  dead : Bool
  /-- A line failed authentication. R157. -/
  lineFail : Bool
  deriving DecidableEq, Repr

/-- The WET granule's sweep (R147 to R150). -/
structure Wet where
  /-- Granule. R147. -/
  granule : Nat
  /-- Epoch E. R147. -/
  epoch : Nat
  /-- Key family. R135. -/
  family : Nat
  /-- Next line to read. R147. -/
  nextRead : Nat
  /-- PUMP.CURSOR. R149. -/
  cursor : Nat
  /-- Reads outstanding: transaction tag and first line. R147. -/
  reads : List (Nat × Nat)
  /-- Writes outstanding: transaction tag and line. R148. -/
  writes : List (Nat × Nat)
  /-- Lines finished at or above the cursor. R149. -/
  finished : List Nat
  /-- PUMP_AUTH_FAIL has been raised for the granule. R147. -/
  authFail : Bool
  /-- No further line is read: the granule is being parked. R153, R158. -/
  stopping : Bool
  /-- It is being parked because a transfer completed DEAD_TARGET. R153. -/
  stuck : Bool
  deriving DecidableEq, Repr

/-- The Rekey Pump (R146 to R158). -/
structure Pump where
  /-- Work list, in arrival order, at most eight. R146; reset: empty. -/
  ranges : List PumpRange
  /-- Next range identity. Model's own; reset: 0. -/
  nextRange : Nat
  /-- The WET granule. R146; reset: none. -/
  wet : Option Wet
  /-- Bytes it may still read in this 1 us window. R151; reset: 0. -/
  budget : Nat
  /-- Paused by U3 entry. R154; reset: false. -/
  rungPause : Bool
  /-- The REKEY_ABORTs that wait for the WET granule's outstanding writes: queue and operation index. R158; reset: empty. -/
  aborting : List (Nat × Nat)
  deriving DecidableEq, Repr

end Sys2Proof.Machine
end

