-- ==== Sys2Proof/Machine/Units3.lean ====
section
/-! DEFINITION. The state of the command front end and of the shared objects: queues, buffers and their
operations, the BTT cache, slices, fences and events. -/

namespace Sys2Proof.Machine

/-- Queue states (R262). -/
inductive QState where
  | off | idle | active | quarantined | resetting | stopped | halted
  deriving DecidableEq, Repr

/-- Where an operation of a buffer stands (R271, R278). -/
inductive OpSt where
  | waiting                                                        -- not issued
  | issued                                                         -- outstanding
  | satisfied (cc : CC) (result : Word)                            -- a FENCE_WAIT whose wait has been satisfied (R326)
  | done (cc : CC) (detail : Nat) (isCfe : Bool) (result : Word)   -- completed, with its status entry (R272)
  deriving DecidableEq, Repr

/-- One operation of a running or preloaded buffer (R270 to R273). -/
structure QOp where
  /-- The 32 bytes of the operation, byte 0 low. R270. -/
  bytes : BitVec 256
  /-- Where it stands. R271. -/
  st : OpSt
  /-- Place in the order of issue of the whole CFE. R423. -/
  seq : Nat
  /-- Network time of the issue. R278, R284. -/
  time : Nat
  /-- Its unit has taken it up. R271. -/
  started : Bool
  /-- Its queue became guilty while it was outstanding: it completes ABORTED once its transfers are answered. R285. -/
  aborting : Bool
  /-- Transfers or lines handled so far. R127, R186. -/
  next : Nat
  /-- Transfers or lines in all. R127, R186. -/
  total : Nat
  /-- Its transfers that are outstanding, by transaction tag. R285. -/
  txns : List Nat
  /-- Code it will complete with when its transfers have been answered. R131, R186. -/
  code : CC
  /-- Unit result code that goes with it. R272. -/
  unit : Nat
  /-- Lines that failed, or another count of its unit. R130. -/
  count : Nat
  /-- Pool address plus 1 of its lowest failed line, 0 while none has failed; of a DISPATCH or COMBINE, 1 once its dropped count has been
  written. R130, R244. -/
  mark : Nat
  /-- Transactions of the Transaction Ports that a FENCE_SIGNAL still waits for. R277. -/
  waits : List Nat
  /-- Number of the covering signal of the slice, for FENCE_SIGNAL. R277. -/
  cover : Nat
  /-- Granules granted to it, each for a kind of transfer and its accumulator bits, with its window where there is one. R86. -/
  grants : List (Nat × ReqKind × BitVec 4 × Option Window)
  /-- Its outcome, which waits for its writes of device memory to end: code, detail, CFE flag and result. R62. -/
  fin : Option (CC × Nat × Bool × Word)
  deriving DecidableEq, Repr

/-- A buffer that runs or is preloaded (R267 to R271). -/
structure Buf where
  /-- The ring entry, byte 0 low. R267. -/
  entry : Line
  /-- Ring entry count. R261. -/
  count : Nat
  /-- Slots bound. R267, R287. -/
  bind : List Nat
  /-- Regions listed. R267, R287. -/
  wins : List Nat
  /-- Operations by index. R270. -/
  ops : List QOp
  /-- The first fault in translation of its reads: address and kind. R269, R288. -/
  fault : Option (Nat × Nat)
  /-- It was preloaded. R288, R289. -/
  pre : Bool
  /-- Step of its completion that runs: 0 none, 1 the status entries, 2 the completion record. R268. -/
  stage : Nat
  /-- Network time of the first issue. R284. -/
  first : Option Nat
  /-- Nothing further is issued: stop_on_error or BARRIER stop. R271, R279. -/
  stopped : Bool
  /-- The queue became guilty in this buffer. R268. -/
  guilty : Bool
  deriving DecidableEq, Repr

/-- One queue (R260 to R268); its configuration and error record are QRING registers. -/
structure Queue where
  /-- State. R262; reset: OFF. -/
  st : QState
  /-- tail. 32 bits; R261; reset: 0. -/
  tail : Nat
  /-- fetch. 32 bits; R261; reset: 0. -/
  fetch : Nat
  /-- head. 32 bits; R261; reset: 0. -/
  head : Nat
  /-- PENDING. R265; reset: false. -/
  pending : Bool
  /-- IDLE_ARMED. R266; reset: false. -/
  idleArmed : Bool
  /-- Foreign doorbells, saturating at 15. R263; reset: 0. -/
  foreign : Nat
  /-- Backward doorbells, saturating at 15. R265; reset: 0. -/
  backward : Nat
  /-- Window entries skipped, saturating at 255. R269; reset: 0. -/
  winSkip : Nat
  /-- The running buffer. R262; reset: none. -/
  run : Option Buf
  /-- The preloaded buffer. R288; reset: none. -/
  pre : Option Buf
  /-- Slots and regions of the context in force, for keep_ctx. R287; reset: empty. -/
  ctx : List Nat × List Nat
  /-- What a switch that runs has measured: live slots of the outgoing context, and the drain D. R289; reset: none. -/
  out : Option (Nat × Nat)
  deriving DecidableEq, Repr

/-- A queue that has never been enabled. -/
def Queue.off : Queue := ⟨.off, 0, 0, 0, false, false, 0, 0, 0, none, none, ([], []), none⟩

/-- The Command Front End (R260 to R294). -/
structure Cfe where
  /-- Queues 0 to 63; default OFF. R260; reset: empty. -/
  queues : Tbl Queue
  /-- BTT cache: page and level-2 entry, newest first, at most 1,024. R293; reset: empty. -/
  btt : List (Nat × BitVec 64)
  /-- An invalidation is running. R293; reset: false. -/
  bttInv : Bool
  /-- Next place in the order of issue. Model's own; reset: 0. -/
  nextSeq : Nat
  /-- Operations issued for each slice in the budget window; default 0. R351; reset: empty. -/
  issues : Tbl Nat
  /-- Queue of each slice that was served last, plus 1; default 0. R351; reset: empty. -/
  robin : Tbl Nat
  /-- Covering FENCE_SIGNALs issued by each slice since its bind; default 0. R277; reset: empty. -/
  covers : Tbl Nat
  /-- Outcomes of covered writes: slice, covering signal, DEAD_TARGET, UNCERTAIN. R276, R277; reset: empty. -/
  bad : List (Nat × Nat × Bool × Bool)
  deriving DecidableEq, Repr

/-- Slice states (R315). -/
inductive SliceSt where
  | free | active | removing | tearing | dead
  deriving DecidableEq, Repr

/-- One slice (R315, R334 to R338). -/
structure Slice where
  /-- State. R315; reset: FREE. -/
  st : SliceSt
  /-- Bound PASID, or the one written to CFG. 20 bits; R316; reset: 0. -/
  pasid : Nat
  /-- Step of R336 running. 3 bits; R336; reset: 0. -/
  step : Nat
  /-- Refusal of the last command. 3 bits; R316; reset: 0. -/
  refusal : Nat
  /-- Job count. 48 bits; R334; reset: 0. -/
  jobs : Nat
  /-- Quarantined. R122; reset: false. -/
  quar : Bool
  /-- Network time at which the running step began. R337, R338; reset: 0. -/
  since : Nat
  deriving DecidableEq, Repr

/-- A free slice. -/
def Slice.unbound : Slice := ⟨.free, 0, 0, 0, 0, false, 0⟩

/-- Fence states (R322). -/
inductive FenceSt where
  | unsignalled | signalled | error | free
  deriving DecidableEq, Repr

/-- One fence (R322 to R329). -/
structure Fence where
  /-- State. R322; reset: FREE. -/
  st : FenceSt
  /-- Value. 64 bits; R322; reset: 0. -/
  value : BitVec 64
  /-- Status in SIGNALLED_ERROR. R322; reset: 0. -/
  status : CC
  /-- FENCE.CFG of this fence: owner, sharer, rights, notify. 32 bits; R322; reset: 0. -/
  cfg : Word
  /-- Initial value. 64 bits; R322; reset: 0. -/
  init : BitVec 64
  /-- Notify event taken at ALLOC. R329; reset: 0. -/
  event : Nat
  /-- The last ALLOC was refused. R329; reset: false. -/
  refused : Bool
  /-- Member and txn of the last FENCE_REMOTE applied. R327; reset: none. -/
  lastRemote : Option (Nat × Nat)
  deriving DecidableEq, Repr

/-- A fence that is not allocated. -/
def Fence.unused : Fence := ⟨.free, 0, .ok, 0, 0, 0, false, .none⟩

/-- One event (R330, R331). -/
structure Event where
  /-- Allocated. R330; reset: false. -/
  alloc : Bool
  /-- EVENT.CFG of this event: owner, kind, source. 32 bits; R330; reset: 0. -/
  cfg : Word
  /-- State of a manual event. R331; reset: false. -/
  set : Bool
  /-- Sets, wrapping. 16 bits; R331; reset: 0. -/
  count : Nat
  deriving DecidableEq, Repr

/-- An event that is not allocated. -/
def Event.unused : Event := ⟨false, 0, false, 0⟩

/-- Slices, fences and events (R315 to R341). -/
structure Objects where
  /-- Slices by number; default FREE. R315; reset: empty. -/
  slices : Tbl Slice
  /-- Fences by number; default FREE. R322; reset: empty. -/
  fences : Tbl Fence
  /-- Events by number; default not allocated. R330; reset: empty. -/
  events : Tbl Event
  /-- Fence selected by each slice in its window page; default 0. R318; reset: empty. -/
  fsel : Tbl Nat
  /-- SW_FSIG_LO of each slice; default 0. R318; reset: empty. -/
  fsigLo : Tbl Nat
  /-- Event selected by each slice in its window page; default 0. R318; reset: empty. -/
  esel : Tbl Nat
  /-- High words latched for each slice: 2 x slice for SW_JOBS_HI, 2 x slice + 1 for SW_FVAL_HI, value plus 1; default 0, not latched. R455; reset: empty. -/
  swLatch : Tbl Nat
  deriving DecidableEq, Repr

end Sys2Proof.Machine
end

