-- ==== Sys2Proof/Machine/RegOps.lean ====
section
/-! DEFINITION. Fields of words, and what the register map says of an address: its row, its masks and its
reset value (R8, R453, R456). -/

namespace Sys2Proof.Machine

/-- Bits `lo` to `lo + len - 1` of a number. -/
def bits (n lo len : Nat) : Nat := n / 2 ^ lo % 2 ^ len

/-- A word with `v` in bits `lo` to `lo + len - 1`. -/
def setBits (w : Word) (lo len v : Nat) : Word :=
  BitVec.ofNat 32 (w.toNat - bits w.toNat lo len * 2 ^ lo + v % 2 ^ len * 2 ^ lo)

/-- Bits of a word. -/
def fld (w : Word) (lo len : Nat) : Nat := bits w.toNat lo len

/-- One bit of a word. -/
def bit (w : Word) (k : Nat) : Bool := fld w k 1 == 1

/-- A truth value as a bit. -/
def b2n (b : Bool) : Nat := if b then 1 else 0

/-- Page of a byte address of the register window. -/
def pageOf (addr : Nat) : Nat := addr / 0x1000

/-- Pages present (R458). -/
def pagePresent (page : Nat) : Bool :=
  decide (page ≤ 0x23) || (decide (0x30 ≤ page) && decide (page ≤ 0x4F))

/-- The row covers offset `off`. -/
def RegRow.covers (r : RegRow) (off : Nat) : Bool :=
  decide (r.off ≤ off) && decide ((off - r.off) % r.stride = 0) && decide ((off - r.off) / r.stride < r.count)

/-- The row of a page-specific register; none where no register lies. -/
def rowOf (addr : Nat) : Option RegRow :=
  (pageRows (pageOf addr)).find? fun r => r.covers (addr % 0x1000)

/-- PAGE_CAP of a page (R456). -/
def pageCap (page : Nat) : Word :=
  BitVec.ofNat 32 (b2n (pageIrqMask page != 0) + 2 * b2n (pageLockable page) + 4 * b2n (pagePersistent page) +
    8 * b2n (pageMgmt page) + 16 * pageClock page + 65536 * pageLast page)

/-- PAGE_ID of a page (R456). -/
def pageId (page : Nat) : Word :=
  BitVec.ofNat 32 (page + 256 * (if page < 0x30 then 0 else page % 16) + 65536 * 0x55CE)

/-- Reset value of a register (R8, R456); 0 where none lies. DESIGN CHOICE (log entry 49). -/
def resetOf (addr : Nat) : Word :=
  let off := addr % 0x1000
  if off < 0x40 then
    if off = 0 then pageId (pageOf addr) else if off = 4 then 1 else if off = 8 then pageCap (pageOf addr) else 0
  else match rowOf addr with
    | some r => BitVec.ofNat 32 r.reset
    | none => 0

/-- Offset of PAGE_CTL. -/
abbrev offCtl : Nat := 0x00C
/-- Offset of PAGE_STAT. -/
abbrev offStat : Nat := 0x010
/-- Offset of PAGE_FAULT. -/
abbrev offFault : Nat := 0x014
/-- Offset of IRQ_STAT. -/
abbrev offIrqStat : Nat := 0x018
/-- Offset of IRQ_EN. -/
abbrev offIrqEn : Nat := 0x01C
/-- Offset of IRQ_SET. -/
abbrev offIrqSet : Nat := 0x020
/-- Offset of PAGE_LOCK. -/
abbrev offLock : Nat := 0x024

/-- IRQ_STAT bits that a page has: its own and page_fault, which the ICU page lacks (R456). -/
def irqBits (page : Nat) : Nat :=
  pageIrqMask page + (if page = 0x20 then 0 else 0x80000000)

/-- PAGE_FAULT bits (R456). -/
inductive PageFault where
  | denied | badSelect | reservedWrite | busyWrite | lockWrite | persist
  deriving DecidableEq, Repr

/-- Bit of a PAGE_FAULT cause. -/
def PageFault.bit : PageFault → Nat
  | .denied => 0 | .badSelect => 1 | .reservedWrite => 2 | .busyWrite => 3 | .lockWrite => 4 | .persist => 5

/-- Number of a completion code (R274). -/
def CC.num : CC → Nat
  | .ok => 0 | .authFail => 1 | .stateRefused => 2 | .incomplete => 3 | .atomicUncertain => 4
  | .deadTarget => 5 | .aborted => 6 | .orphaned => 7 | .malformed => 8 | .timeout => 9

/-- Completion code of a number; OK for the numbers that are no code. -/
def CC.ofNum : Nat → CC
  | 1 => .authFail | 2 => .stateRefused | 3 => .incomplete | 4 => .atomicUncertain
  | 5 => .deadTarget | 6 => .aborted | 7 => .orphaned | 8 => .malformed | 9 => .timeout | _ => .ok

/-- GATE_CODE (R53). -/
def GateCode.num : GateCode → Nat
  | .none => 0 | .retry => 1 | .noWindow => 2 | .perm => 3 | .classOp => 4 | .gatewayOnly => 5
  | .fenced => 6 | .sliceGone => 7

/-- Gate code of a number; NONE for 0 and above 7. -/
def GateCode.ofNum : Nat → GateCode
  | 1 => .retry | 2 => .noWindow | 3 => .perm | 4 => .classOp | 5 => .gatewayOnly | 6 => .fenced | 7 => .sliceGone | _ => .none

/-- RSP_STATUS and RD_STATUS (R56). -/
def PortStatus.num : PortStatus → Nat
  | .ok => 0 | .deadTarget => 1 | .aborted => 2 | .uncertain => 3 | .authFail => 4

/-- Rung numbers (R38). -/
def Rung.num : Rung → Nat
  | .u0 => 0 | .u1 => 1 | .u2 => 2 | .u3 => 3 | .u4 => 4 | .u5 => 5

/-- Rung of a number; U0 for the numbers that are no rung. -/
def Rung.ofNum : Nat → Rung
  | 1 => .u1 | 2 => .u2 | 3 => .u3 | 4 => .u4 | 5 => .u5 | _ => .u0

/-- QRING.Qn_STAT.state (R262). -/
def QState.num : QState → Nat
  | .off => 0 | .idle => 1 | .active => 2 | .quarantined => 3 | .resetting => 4 | .stopped => 5 | .halted => 6

/-- SLICE.STAT.state (R315). -/
def SliceSt.num : SliceSt → Nat
  | .free => 0 | .active => 1 | .removing => 2 | .tearing => 3 | .dead => 4

/-- FENCE.STAT.state (R322). -/
def FenceSt.num : FenceSt → Nat
  | .unsignalled => 0 | .signalled => 1 | .error => 2 | .free => 3

/-- RESET.CMD code of a domain (R426). -/
def Domain.num : Domain → Nat
  | .pair k => k.val | .bru => 8 | .pump => 9 | .scu => 10 | .block => 11

/-- Domain of a code (R426). -/
def Domain.ofNum (n : Nat) : Option Domain :=
  if h : n < 8 then some (.pair ⟨n, h⟩)
  else if n = 8 then some .bru else if n = 9 then some .pump else if n = 10 then some .scu
  else if n = 11 then some .block else none

end Sys2Proof.Machine
end

