-- ==== Sys2Proof/Machine/Units2.lean ====
section
/-! DEFINITION. The state of the units around the data path: power, time, faults, resets, injection, the
Event Well, counters, interrupts, persistent words, device memory transactions, key delivery, rail
samples, priming and test access. -/

namespace Sys2Proof.Machine

/-- The power controller (R38 to R46). The rung in force, the request and the refusal are PWR registers. -/
structure Power where
  /-- Rung in force. 3 bits; R38; reset: U0. -/
  rung : Rung
  /-- Rung being entered or, for U0, the exit that is running. R38; reset: none. -/
  moving : Option Rung
  /-- Newest RUNG_REQ written during a transition. R46; reset: none. -/
  queued : Option (BitVec 3)
  /-- An exit from U4 or U5 waits for its clocks to be seen. R80; reset: false. -/
  clockWait : Bool
  /-- Automatic entry (no RUNG_REQ) is running. R39; reset: false. -/
  auto : Bool
  deriving DecidableEq, Repr

/-- Network time and its source (R76). -/
structure Clock where
  /-- Network time in ns. 64 bits; R76; reset: 0, DESIGN CHOICE 0. -/
  now : Nat
  /-- TP_VALID. R76; reset: true, DESIGN CHOICE true. -/
  tpValid : Bool
  /-- Link clock that the running measurement window measures into CLK.MEAS_LNK. 4 bits; CLK page; reset: 0. -/
  lnkSel : Nat
  deriving DecidableEq, Repr

/-- A history entry (R418). -/
structure HistEntry where
  /-- Word 0. -/
  w0 : Word
  /-- Word 1. -/
  w1 : Word
  /-- Word 2. -/
  w2 : Word
  /-- Word 3. -/
  w3 : Word
  deriving DecidableEq, Repr

/-- The Fault Control Unit (R409 to R418); pending bits, FIRST and SEVTAB are registers. -/
structure Fcu where
  /-- Raises of each source, saturating at 0xFFFF; default 0. 16 bits each; R414; reset: empty. -/
  counts : Tbl Nat
  /-- History entries, oldest first, at most 16. R418; reset: empty. -/
  hist : List HistEntry
  /-- Entries not queued, saturating at 255. R418; reset: 0. -/
  lost : Nat
  /-- Raises detected that have not reached the FCU, each with the network time of its detection. R30, R414; reset: empty. -/
  inflight : List (Nat × Raise)
  /-- CHIP_RST_REQ. R80; reset: false. -/
  chipRst : Bool
  /-- ERR_OUT_VALID. R79; reset: false. -/
  errValid : Bool
  /-- ERR_OUT is asserted high. R79, R459; reset: true, the factory value of PCFG. -/
  errHigh : Bool
  deriving DecidableEq, Repr

/-- Phases of a domain reset (R427). -/
inductive ResetPhase where
  | fence | drain | clear | test
  deriving DecidableEq, Repr

/-- A domain reset that is running (R427). -/
structure ResetRun where
  /-- Domain. R426. -/
  dom : Domain
  /-- Phase. R427. -/
  phase : ResetPhase
  /-- Network time at FENCE. R427. -/
  start : Nat
  /-- Fault source that caused it; none when requested through CMD. RESET.LAST. -/
  source : Option Nat
  deriving DecidableEq, Repr

/-- Injection (R419): the armed checker. -/
structure Inject where
  /-- INJECT.SEL as it stood when the checker was armed. R419; reset: 0. -/
  sel : Word
  /-- INJECT.STAT.remaining. 8 bits; R419; reset: 0. -/
  remaining : Nat
  /-- INJECT.STAT.disarmed. R419; reset: false. -/
  disarmed : Bool
  /-- The inverted check, kind and unit, whose fault has not been raised yet. R419; reset: none. -/
  fired : Option (Nat × Nat)
  deriving DecidableEq, Repr

/-- A Well record (R433). -/
structure WellRec where
  /-- Word 0. -/
  w0 : Word
  /-- Word 1. -/
  w1 : Word
  /-- Word 2. -/
  w2 : Word
  /-- Word 3. -/
  w3 : Word
  /-- Word 4. -/
  w4 : Word
  /-- Word 5. -/
  w5 : Word
  /-- Word 6. -/
  w6 : Word
  /-- Word 7. -/
  w7 : Word
  deriving DecidableEq, Repr

/-- The record of an index not yet written (R434). -/
def WellRec.empty : WellRec := ⟨0, 0, 0, 0, 0, 0, 0, 0⟩

/-- What stands in the Well's staging queue (R437, R438). -/
inductive Staged where
  | record (r : WellRec)
  | trigger (r : WellRec)
  | lostTrigger
  deriving DecidableEq, Repr

/-- The Event Well (R432 to R441); trigger settings are persistent words, HOLDOFF and MARKn registers. -/
structure Well where
  /-- Records by index 0 to 8,191; default EMPTY. 32 bytes each; R432; reset: empty. -/
  ring : Tbl WellRec
  /-- Indices whose record holds an uncorrectable error. R441; reset: empty. -/
  bad : List Nat
  /-- Records written since cold reset. R432; reset: 0. -/
  seq : Nat
  /-- WELL.LOST, saturating. 32 bits; R437; reset: 0. -/
  lost : Nat
  /-- Staging queue, oldest first, at most 16 records. R437; reset: empty. -/
  staging : List Staged
  /-- A record was lost and the next one staged has gap set. R437; reset: false. -/
  gapNext : Bool
  /-- WELL.STAT.triggered. R438; reset: false. -/
  triggered : Bool
  /-- WELL.STAT.frozen. R438; reset: false. -/
  frozen : Bool
  /-- Post records still to write; none before the TRIGGER record has been written. R438; reset: none. -/
  postLeft : Option Nat
  /-- Suppressed raises of each source since its last record, saturating at 255; default 0. R437; reset: empty. -/
  suppressed : Tbl Nat
  /-- Network time plus 1 of each source's last FAULT record; default 0. R437; reset: empty. -/
  lastRecord : Tbl Nat
  deriving DecidableEq, Repr

/-- The counter unit (R442 to R445). -/
structure Counters where
  /-- Counters by number; default 0. 48 bits each; R442; reset: empty. -/
  live : Tbl Nat
  /-- Shadow set; default 0. R443; reset: empty. -/
  shadow : Tbl Nat
  /-- Where a snapshot stands: 1 its counters are to be written, 2 they are being written, 3 and 4 the same of its first line; 0 none
  is exported. R445; reset: 0. -/
  exporting : Nat
  /-- The counters of that snapshot, as latched; default 0. R445; reset: empty. -/
  snap : Tbl Nat
  /-- Network time at which that snapshot was latched. R445; reset: 0. -/
  latched : Nat
  deriving DecidableEq, Repr

/-- The interrupt controller (R446 to R450); pending, mask, route and configuration are registers. -/
structure Icu where
  /-- Each vector's count since its last firing; default 0. R447; reset: empty. -/
  since : Tbl Nat
  /-- Network time plus 1 at which each vector's timer started; default 0, stopped. R447; reset: empty. -/
  timer : Tbl Nat
  /-- Ready vectors. 64 bits; R448; reset: 0. -/
  ready : BitVec 64
  /-- The presented vector, or the trap (none), with its address; none while nothing is presented. R78; reset: none. -/
  presented : Option (Option Nat × BitVec 48)
  deriving DecidableEq, Repr

/-- A write on its way to the NVM macro (R462). -/
structure PsWrite where
  /-- Word 0 to 511. R462. -/
  word : Nat
  /-- Value. R462. -/
  value : Word
  /-- Count stored with it. R462. -/
  count : Nat
  /-- Management request answered when the last of its writes ends. R462. -/
  answer : Option LateAnswer
  /-- Page whose PAGE_FAULT.persist a failure sets. R456. -/
  page : Nat
  deriving DecidableEq, Repr

/-- The persistent register file as the block holds it (R459 to R465). -/
structure Persist where
  /-- Values in force; default: the factory value. 32 bits each; R459; reset: empty. -/
  vals : Tbl Word
  /-- Write counts; default 0. 20 bits each; R462; reset: empty. -/
  counts : Tbl Nat
  /-- Words found written at priming or written since (not blank). R460; reset: empty. -/
  written : List Nat
  /-- Words found corrupt at priming. R460; reset: empty. -/
  corrupt : List Nat
  /-- Accepted writes that have not been issued, oldest first. R462; reset: empty. -/
  queue : List PsWrite
  /-- The write waiting for PS_DONE. R462; reset: none. -/
  issued : Option PsWrite
  deriving DecidableEq, Repr

/-- What a Device Memory Port transaction is for (R62). -/
inductive DmUse where
  | op (queue op : Nat)            -- an operation of a command buffer
  | ring (queue : Nat)             -- a ring entry and its lists
  | status (queue : Nat)           -- completion record, status entries, head copy
  | walk (slice granule : Nat)     -- a Region Table walk
  | region (queue op : Nat)        -- a table write of a REGION_OP
  | partition (granule : Nat)      -- the block's Granule Key Table partition
  | partWrite (granule : Nat)      -- a write of that partition
  | dropped (queue op : Nat)       -- the dropped count of a DISPATCH or COMBINE that has completed
  | fresh (queue op : Nat)         -- the freshness table, for a BLIND_REDUCE
  | freshZero                      -- the freshness table, zeroed at a join
  | btt                            -- the Block Translation Table
  | mailbox                        -- ATTEST mailbox or policy image
  | scuImage                       -- SCU firmware partition
  | snapshot                       -- counter snapshot export
  | slot (id : Nat)                -- a slot operation's write, by its identifier
  deriving DecidableEq, Repr

/-- An outstanding Device Memory Port transaction (R62). -/
structure DmTxn where
  /-- DM_ID. 8 bits; R62. -/
  id : Nat
  /-- Port 0 to 3. R62. -/
  port : Nat
  /-- DM_AWRITE. R62. -/
  write : Bool
  /-- DM_ADDR. 52 bits; R62. -/
  addr : Nat
  /-- Its use. -/
  use : DmUse
  /-- Page of the block address that it was translated through, or whose entry it reads; none where it faulted. R293. -/
  page : Option Nat
  /-- It has faulted in translation: it is not driven, and it ends as one with an error flag does. R294. -/
  fault : Bool
  /-- The entry that it was translated through, or that it reads, has been invalidated since. R293. -/
  stale : Bool
  deriving DecidableEq, Repr

/-- An access of device memory within one page, by block address (R290, R292). -/
structure DmAccess where
  /-- Its use. -/
  use : DmUse
  /-- Queue on whose behalf it is made; none for the block's own. R292. -/
  queue : Option Nat
  /-- Table of BTT_FAULT_INFO that it belongs to; 0 for a queue's. R294. -/
  table : Nat
  /-- Block address. R290. -/
  addr : Nat
  /-- Bytes. R62. -/
  bytes : Nat
  /-- Bytes written; none for a read. R62. -/
  data : Option (List Byte)
  deriving DecidableEq, Repr

/-- A walk of the BTT that a miss has started (R293). -/
structure BttRead where
  /-- Page, block address [41:16]. R290. -/
  page : Nat
  /-- DM_ID of the read that is outstanding. R62. -/
  id : Nat
  /-- Level-1 entry read; none while it is being read. R290. -/
  l1 : Option (BitVec 64)
  deriving DecidableEq, Repr

/-- The Device Memory Ports (R62). -/
structure Dmp where
  /-- Outstanding transactions. R62; reset: empty. -/
  open_ : List DmTxn
  /-- Next identifier. Model's own; reset: 0. -/
  nextId : Nat
  /-- Accesses that wait for their page's BTT entries, oldest first. R293; reset: empty. -/
  waiting : List DmAccess
  /-- Walks of the BTT that run. R293; reset: empty. -/
  walks : List BttRead
  deriving DecidableEq, Repr

/-- One key on the Key Delivery Port (R74, R75). -/
structure KeyDelivery where
  /-- IDE stream. 8 bits; R74. -/
  stream : Nat
  /-- Sub-stream. 3 bits; R74. -/
  sub : Nat
  /-- KD_DIR. R74. -/
  dir : Bool
  /-- KD_KSET. R74. -/
  kset : Bool
  /-- A zero key. R190. -/
  zero : Bool
  /-- Share 0. R74. -/
  share0 : BitVec 256
  /-- Share 1. R74. -/
  share1 : BitVec 256
  /-- Transient slot that holds the key until it is taken; none for a zero key. R366. -/
  slot : Option Nat
  deriving DecidableEq, Repr

/-- Host-link keys (R22, R190, R191). -/
structure Ide where
  /-- Deliveries still to be taken, the one on the port first. R74; reset: empty. -/
  pending : List KeyDelivery
  /-- Key sets delivered to each stream: bit k set k, and bit 2 + k the set delivered last; default 0. R190; reset: empty. -/
  kset : Tbl Nat
  /-- IDE_REFRESH_REQs whose keys are being delivered: stream and who is answered. R191; reset: empty. -/
  asked : List (Nat × LateAnswer)
  /-- Streams whose keys have all been taken. R22; reset: empty. -/
  open_ : List Nat
  deriving DecidableEq, Repr

/-- The end-to-end cipher of gateway transfers (R188). -/
structure Bulk where
  /-- Data flits sent in this reset generation. 48 bits; R188; reset: 0. -/
  seq : Nat
  /-- The reset generation would have passed 0xFFFF within this join. R188; reset: false. -/
  stop : Bool
  deriving DecidableEq, Repr

/-- The Rail Sense Port (R77, R435). -/
structure Rail where
  /-- The seven latest samples, newest first. 16 bits each; R77, R435; reset: empty, read as 0. -/
  samples : List Nat
  deriving DecidableEq, Repr

/-- Kinds of priming (R467). -/
inductive PrimeKind where
  | cold | warm | block
  deriving DecidableEq, Repr

/-- Reset pins and priming (R81, R467, R468). -/
structure Prime where
  /-- Reset pin held asserted. R81; reset: none. -/
  pinHeld : Option PrimeKind
  /-- Phase 1 to 4 of a priming that is running. R467; reset: cold priming at phase 1. -/
  phase : Option (PrimeKind × Nat)
  /-- BLK_READY. R468; reset: false. -/
  ready : Bool
  /-- FW_BASE has been written since cold priming. R469; reset: false. -/
  fwBaseSeen : Bool
  /-- TRNG_FAIL was raised in phase 3. R471; reset: false. -/
  entropyFailed : Bool
  deriving DecidableEq, Repr

/-- The states of the IEEE 1149.1 controller (R82). -/
inductive TapState where
  | testLogicReset | runTestIdle
  | selectDr | captureDr | shiftDr | exit1Dr | pauseDr | exit2Dr | updateDr
  | selectIr | captureIr | shiftIr | exit1Ir | pauseIr | exit2Ir | updateIr
  deriving DecidableEq, Repr

/-- The test access port (R82, R377). -/
structure Tap where
  /-- State of the controller. R82; reset: testLogicReset. -/
  ctrl : TapState
  /-- The 5-bit instruction in force in the instruction register. R82; reset: 0x01, IDCODE. -/
  instr : Nat
  /-- The shift stage of the instruction register. R82; reset: 1. -/
  ir : BitVec 5
  /-- The test data register that the instruction selects, bit 0 nearest to TDO: 32 bits of IDCODE, or the BYPASS bit. R82; reset: empty. -/
  dr : List Bool
  deriving DecidableEq, Repr

/-- The test access port after TRST_N. -/
def Tap.fresh : Tap := ⟨.testLogicReset, 1, 1, []⟩

end Sys2Proof.Machine
end

