-- ==== Sys2Proof/Machine/Units4.lean ====
section
/-! DEFINITION. The state of the Cistern, of the random sources and of the life-cycle logic. -/

namespace Sys2Proof.Machine

/-- A Cistern slot (R361, R362): metadata and the two shares of its key. -/
structure Slot where
  /-- state: 0 FREE, 1 LIVE, 2 ERASING. 2 bits; R361. -/
  st : Nat
  /-- kind. 4 bits; R361. -/
  kind : Nat
  /-- origin. 2 bits; R361. -/
  origin : Nat
  /-- system. R361. -/
  system : Bool
  /-- owner slice. 10 bits; R361. -/
  owner : Nat
  /-- usage. 8 bits; R361. -/
  usage : Nat
  /-- family. 16 bits; R361. -/
  family : Nat
  /-- epoch. 16 bits; R361. -/
  epoch : Nat
  /-- Share 0. 256 bits; R362. -/
  share0 : BitVec 256
  /-- Share 1. 256 bits; R362. -/
  share1 : BitVec 256
  deriving DecidableEq, Repr

/-- A FREE slot (R361). -/
def Slot.free : Slot := ⟨0, 0, 0, false, 0, 0, 0, 0, 0, 0⟩

/-- A cached SEAL key set (R371). -/
structure KeySet where
  /-- Family. R371. -/
  family : Nat
  /-- Epoch. R371. -/
  epoch : Nat
  /-- Position 0 to 511: slots 128 + 4 x position and the three after it. R371. -/
  pos : Nat
  deriving DecidableEq, Repr

/-- A key set derived into a transient slot for one request (R371). -/
structure TransientSet where
  /-- Family. R371. -/
  family : Nat
  /-- Epoch. R371. -/
  epoch : Nat
  /-- Slot 96 to 127. R371. -/
  slot : Nat
  /-- Transaction that needs it. R371. -/
  txn : Nat
  deriving DecidableEq, Repr

/-- The Cistern and the random sources (R361 to R375). -/
structure Cistern where
  /-- Slots by number; default FREE. R361; reset: empty. -/
  slots : Tbl Slot
  /-- Key sets cached, least recently used first, at most 512. R371; reset: empty. -/
  sets : List KeySet
  /-- Key sets in transient slots. R371; reset: empty. -/
  transient : List TransientSet
  /-- Retirement floor of each family; default 0. 16 bits; R159; reset: empty. -/
  floors : Tbl Nat
  /-- Families retired by DESTROY. R372; reset: empty. -/
  retired : List Nat
  /-- Scramble drawn at priming. 32 bits; R363; reset: 0, DESIGN CHOICE 0. -/
  scramble : Word
  /-- Network time of the last TRNG health failures, newest first, at most three. R373; reset: empty. -/
  healthFails : List Nat
  /-- Generate calls since the last reseed. R374; reset: 0. -/
  calls : Nat
  deriving DecidableEq, Repr

/-- One programming operation of the Fuse Port (R73, R380). -/
structure FuseOp where
  /-- Word 0 to 127. R73. -/
  word : Nat
  /-- Bits programmed. R73. -/
  data : Word
  deriving DecidableEq, Repr

/-- The life-cycle logic (R377 to R382); the state in force and the last attempt are LCS registers. -/
structure LcsUnit where
  /-- Fuse array as last read; default 0. 128 words of 32 bits; R73; reset: empty, DESIGN CHOICE an unprogrammed array. -/
  fuses : Tbl Word
  /-- Programming operations still to run, the one on the Fuse Port first. R380; reset: empty. -/
  prog : List FuseOp
  /-- The FU_BUSY stall of the running operation has been raised. R73; reset: false. -/
  stalled : Bool
  /-- Target of the transition that runs. R379; reset: none. -/
  target : Option Lcs
  /-- Management request to answer. R407; reset: none. -/
  answer : Option LateAnswer
  /-- Network time of the last RAIL_GLITCH. R379; reset: none. -/
  railAt : Option Nat
  deriving DecidableEq, Repr

end Sys2Proof.Machine
end

