-- ==== Sys2Proof/Machine/Units5.lean ====
section
/-! DEFINITION. The state of the port cipher clusters, of the domain, and of the hang detector. -/

namespace Sys2Proof.Machine

/-- What a cluster keeps beside its page (R249, R252 to R259); its state, phase and counts are CLU registers. -/
structure Clu where
  /-- Key registers: the two shares of each key, by 4 x Cistern slot + part; default zero. R249; reset: empty. -/
  keys : Tbl (BitVec 256 × BitVec 256)
  /-- F10 to F19 are clock-gated, outside a known-answer test: the profile in force in the cluster is FRUGAL. R248, R259; reset: false. -/
  gated : Bool
  /-- A check of R250 has failed in the running known-answer test. R254; reset: false. -/
  checkFailed : Bool
  /-- Blocks inside the cluster when it was isolated that no cluster has processed again yet. R252; reset: 0. -/
  redo : Nat
  /-- Network time of each repair started since the cluster was last HELD, newest first. R256; reset: empty. -/
  repairs : List Nat
  /-- Network time of the failed check or isolation that started the repair. R253; reset: 0. -/
  since : Nat
  /-- The repair was started by CLU.CTL.isolate. R258; reset: false. -/
  manual : Bool
  /-- Attempts at the known-answer test in this repair. R255; reset: 0. -/
  attempts : Nat
  deriving DecidableEq, Repr

/-- A cluster after reset. -/
def Clu.fresh : Clu := ⟨[], false, false, 0, [], 0, false, 0⟩

/-- The confidential domain (R11 to R22, R392 to R396). The joined flag and the member id are CAP.MEMBER. -/
structure Dom where
  /-- The verified policy in force, with the home map. R18, R138; reset: none. -/
  policy : Option Policy
  /-- Steps of a leave still to be completed, the next one first. R395; reset: empty. -/
  leaving : List Nat
  deriving DecidableEq, Repr

/-- A candidate cycle of the hang detector (R423): its queues and fences in cycle order, and the passes that found it. -/
structure Candidate where
  /-- Queues, each waiting on the fence at the same place. R422. -/
  queues : List Nat
  /-- Fences. R422. -/
  fences : List Nat
  /-- Each queue's wait, by its place in the order of issue. R422. -/
  waits : List Nat
  /-- Each fence's signal, by the ring count of its buffer and its index. R422. -/
  signals : List (Nat × Nat)
  /-- Passes in a row that found it. R423. -/
  passes : Nat
  /-- Network time of the third pass. R423. -/
  third : Nat
  deriving DecidableEq, Repr

end Sys2Proof.Machine
end

