-- ==== Sys2Proof/Machine/Units6.lean ====
section
/-! DEFINITION. The state of the Blind Reduction Unit, of the Shaper and of the Scheduled Port. -/

namespace Sys2Proof.Machine

/-- A BLIND message that awaits its answer (R211, R216). -/
structure CollMsg where
  /-- Transaction tag. 32 bits; R167. -/
  txn : Nat
  /-- op: 0x10 BL_CONTRIB, 0x11 BL_READ, 0x12 BL_EXPMAX. R211. -/
  op : Nat
  /-- First block. R211. -/
  first : Nat
  /-- Blocks. R211. -/
  count : Nat
  deriving DecidableEq, Repr

/-- One stage of a collective: the stage of its descriptor, or the next stage of a LEADER (R213, R219). -/
structure Coll where
  /-- The descriptor. 64 bytes; R213. -/
  desc : Line
  /-- The BRU's copy of the group key K. 256 bits; R195. -/
  key : BitVec 256
  /-- Cistern slot of K, while it holds it. R361, R366. -/
  slot : Option Nat
  /-- Scale exponent plus 1 of each block whose scale is read or probed; default 0, the descriptor's. R205. -/
  scales : Tbl Nat
  /-- Next block to be sent or read. R215. -/
  next : Nat
  /-- Messages outstanding. R215. -/
  msgs : List CollMsg
  /-- Integers of each block that has been verified and demasked; default none. R216. -/
  sums : Tbl (List Int)
  /-- Outcome of each block that has been answered; default none. R216. -/
  fate : Tbl (Option CC)
  /-- First free value of the random bits of each block's conversion out; default 0. R207. -/
  rand : Tbl Nat
  /-- BLIND_TAG_FAIL has been raised for it. R217. -/
  tagBad : Bool
  /-- BLIND_INCOMPLETE has been raised for it. R217. -/
  shortBad : Bool
  deriving DecidableEq, Repr

/-- States of a collective context (R215). -/
inductive CollSt where
  | opening | probing | sending | receiving | draining
  deriving DecidableEq, Repr

/-- A collective context (R215). -/
structure Ctx where
  /-- Queue. R215. -/
  queue : Nat
  /-- Operation index. R215. -/
  op : Nat
  /-- Slice. R297. -/
  slice : Nat
  /-- State. R215. -/
  st : CollSt
  /-- tag_lanes2 of the region of each granule presented, in order, those of the next stage last. R192, R214. -/
  lanes : List Bool
  /-- probe_ok of the region of each granule presented. R214. -/
  probeOk : List Bool
  /-- The collective of the descriptor. R213. -/
  first : Coll
  /-- The next stage of a LEADER. R219. -/
  second : Option Coll
  /-- src_slot or dst_slot is set. R298. -/
  slotted : Bool
  /-- Blocks put. R299. -/
  put : List Nat
  /-- Blocks taken. R299. -/
  taken : List Nat
  deriving DecidableEq, Repr

/-- A context whose command has completed while messages that it sent are outstanding (R218). -/
structure Closing where
  /-- Queue. R215. -/
  queue : Nat
  /-- Operation index. R215. -/
  op : Nat
  /-- Slice. R217. -/
  slice : Nat
  /-- Transaction tags of the messages outstanding. R167, R218. -/
  txns : List Nat
  deriving DecidableEq, Repr

/-- The Blind Reduction Unit (R192 to R223). -/
structure Bru where
  /-- Collective contexts; with `closing` at most 64. R215; reset: empty. -/
  ctxs : List Ctx
  /-- Contexts not released yet, whose command has completed. R218; reset: empty. -/
  closing : List Closing
  /-- BLIND_REDUCEs that wait for a context, in order: queue, operation, descriptor, next-stage descriptor. R214; reset: empty. -/
  waiting : List (Nat × Nat × Line × Line)
  /-- Freshness table by collective id; default 0. 65,536 entries of 64 bits; R196; reset: empty, DESIGN CHOICE unused entries. -/
  fresh : Tbl (BitVec 64)
  deriving DecidableEq, Repr

/-- One participant's section of a DISPATCH or COMBINE (R240, R243). -/
structure Part where
  /-- Index entries of the slots in use: source row, valid. R240. -/
  entries : List (Nat × Bool)
  /-- Real count in the header. R240. -/
  real : Nat
  /-- n′, which may exceed the slots of a received header. R240, R243. -/
  shaped : Nat
  /-- value in the header. R240, R243. -/
  value : BitVec 64
  /-- Lines of the section written so far, in the order written. R240. -/
  pos : Nat
  /-- Lines of the received section read so far. R243. -/
  readPos : Nat
  /-- Its header has been received, or needs not be. R243. -/
  known : Bool
  /-- A received line failed. R243. -/
  failed : Bool
  /-- A write completed DEAD_TARGET. R242. -/
  dead : Bool
  /-- A write completed with another error. R242. -/
  aborted : Bool
  /-- Its step has been presented. R300. -/
  stepped : Bool
  /-- Slot operation of its step, until that has completed. R300. -/
  step : Option Nat
  /-- Its fence has been signalled, or the signal sent. R242. -/
  signalled : Bool
  /-- Its writes outstanding, by transaction tag. R242. -/
  outs : List Nat
  deriving DecidableEq, Repr

/-- A DISPATCH or COMBINE that runs (R237 to R244). -/
structure ShapeRun where
  /-- Queue. R237. -/
  queue : Nat
  /-- Operation index. R237. -/
  op : Nat
  /-- COMBINE. R243. -/
  combine : Bool
  /-- The descriptor. 64 bytes; R237. -/
  desc : Line
  /-- Member ids of the participants. R237. -/
  members : List Nat
  /-- Participants' sections. R240. -/
  parts : List Part
  /-- Run by steps. R298. -/
  stepped : Bool
  /-- Pool addresses at which the granules of its slabs are still to be presented to the Gate, where it is run by steps. R238. -/
  slabs : List Nat
  /-- Generator key. 256 bits; R241. -/
  genKey : BitVec 256
  /-- Generator blocks used. R241. -/
  genCtr : Nat
  /-- Real rows dropped. R239. -/
  dropped : Nat
  deriving DecidableEq, Repr

/-- A slot context (R298). -/
structure SlotCtx where
  /-- Keyed by collective id when true, by queue otherwise. R298. -/
  blind : Bool
  /-- Collective id or queue. R298. -/
  key : Nat
  /-- Queue of the command. R298. -/
  queue : Nat
  /-- Operation index of the command. R298. -/
  op : Nat
  /-- Granules pinned for it. R301. -/
  pins : List Nat
  deriving DecidableEq, Repr

/-- What stands in presentation order on the Scheduled Port (R305, R311). -/
inductive SlotItem where
  /-- A slot operation: op, id, and the status and data with which it completes. R303. -/
  | op (op id status : Nat) (data : BitVec 64)
  /-- A QUIET word. R311. -/
  | quiet (cycles : Nat)
  deriving DecidableEq, Repr

/-- The Scheduled Port (R295 to R314); its open window and tail are SCHED.STAT bits. -/
structure Sched where
  /-- Slot contexts, at most 16. R298; reset: empty. -/
  ctxs : List SlotCtx
  /-- Commands that wait for a slot context: keyed by collective id, key, queue, operation. R298; reset: empty. -/
  waiting : List (Bool × Nat × Nat × Nat)
  /-- Slot operations and QUIET words, in the order of presentation. R305; reset: empty. -/
  items : List SlotItem
  deriving DecidableEq, Repr

end Sys2Proof.Machine
end

