-- ==== Sys2Proof/Machine/Units7.lean ====
section
/-! DEFINITION. The state of the Security Controller Unit: firmware, secured sessions, the join exchange, measurement
registers and the messages that wait for it. -/

namespace Sys2Proof.Machine

/-- A secured session (R397, R406). -/
structure Session where
  /-- Session id. R397. -/
  id : Nat
  /-- Transport it was opened over. R399. -/
  path : Path
  /-- FINISH has completed it. R397. -/
  up : Bool
  /-- MGMT_AUTH has succeeded in it. R406. -/
  auth : Bool
  /-- Certificate slot of its KEY_EXCHANGE. R393, R398. -/
  slot : Nat
  /-- TH2 transcript hash. 384 bits; R393, R406. -/
  th2 : BitVec 384
  deriving DecidableEq, Repr

/-- A measurement register (R404). -/
structure MeasReg where
  /-- It is in use. R404. -/
  used : Bool
  /-- Kind: 0 program, 1 weights. R404. -/
  kind : Nat
  /-- Owner slice. R404. -/
  owner : Nat
  /-- Bytes measured so far, whose SHA-384 state the register holds. R404. -/
  data : List Byte
  deriving DecidableEq, Repr

/-- An empty measurement register. -/
def MeasReg.empty : MeasReg := ⟨false, 0, 0, []⟩

/-- A join whose JOIN_REQ has been accepted (R393). -/
structure Join where
  /-- Session. R393. -/
  session : Nat
  /-- Path of the session. R393. -/
  path : Path
  /-- The policy that JOIN_REQ named. R393. -/
  policy : Policy
  /-- Its digest. R393. -/
  digest : BitVec 384
  /-- Join key KJ. 256 bits; R393. -/
  key : BitVec 256
  deriving DecidableEq, Repr

/-- A partial message of the Management Port (R405). -/
structure Partial where
  /-- Frame type. R405. -/
  type : Nat
  /-- msg. R405. -/
  msg : Nat
  /-- nfrag. R405. -/
  nfrag : Nat
  /-- Fragments taken so far. R405. -/
  taken : Nat
  /-- Bytes so far. R405. -/
  data : List Byte
  deriving DecidableEq, Repr

/-- A request that waits: with its message id on the management path (R385, R389). -/
structure Held where
  /-- msg of the management frames that carried it; 0 on the host path. R405. -/
  msg : Nat
  /-- The request. R389. -/
  req : ScuReq
  deriving DecidableEq, Repr

/-- The Security Controller Unit (R383 to R408); its status, update and report counters are registers. -/
structure Scu where
  /-- Firmware that runs. R385; reset: none. -/
  running : Option FwInfo
  /-- The staged image that FW_ACTIVATE has accepted. R388; reset: none. -/
  staged : Option FwInfo
  /-- The image that ran before the switch. R390; reset: none. -/
  old : Option FwInfo
  /-- DeviceID certificate of the certificate store, when its key matches. R398; reset: none. -/
  cert : Option (List Byte)
  /-- Secured sessions, the one idle longest first, at most four. R397; reset: empty. -/
  sessions : List Session
  /-- Next session id. Model's own; reset: 1. -/
  nextSession : Nat
  /-- Measurement registers 0 to 15; default empty. R404; reset: empty. -/
  meas : Tbl MeasReg
  /-- The join in progress. R393; reset: none. -/
  join : Option Join
  /-- Digest of the policy in force. R400; reset: 0. -/
  policyDigest : BitVec 384
  /-- Who is answered when the running leave completes. R395, R407; reset: none. -/
  leaver : Option LateAnswer
  /-- Requests held or waiting, in arrival order. R385, R389; reset: empty. -/
  held : List Held
  /-- A held attestation request has waited 50 ms in this PROBATION. R389; reset: false. -/
  late : Bool
  /-- Partial management message. R405; reset: none. -/
  frag : Option Partial
  /-- Received frames in the 16 KiB buffer of the Management Port, which the SCU has not taken, oldest first. R70; reset: empty. -/
  frames : List MgmtFrame
  /-- Complete management messages: frame type, msg, bytes, oldest first. R405; reset: empty. -/
  inbox : List (Nat × Nat × List Byte)
  /-- The boot has begun. R469; reset: false. -/
  booting : Bool
  /-- That boot follows a warm or block priming. R472; reset: false. -/
  afterPrime : Bool
  deriving DecidableEq, Repr

/-- The SCU after reset. -/
def Scu.fresh : Scu :=
  { running := none, staged := none, old := none, cert := none, sessions := [], nextSession := 1, meas := [], join := none
    policyDigest := 0, leaver := none, held := [], late := false, frag := none, frames := [], inbox := [], booting := false, afterPrime := false }

end Sys2Proof.Machine
end

