-- ==== Sys2Proof/Machine/Hw.lean ====
section
/-! DEFINITION. The volatile state of the block: every unit, and the register bank that is the home of
every register whose value no unit holds. -/

namespace Sys2Proof.Machine

/-- The block's state but for its fuses, its NVM macro and its image store, which no reset clears. -/
structure Hw where
  /-- Register bank by byte address; default: the reset value of the register map. 32 bits each; R8, R458; reset: empty. -/
  regs : Tbl Word
  /-- High words latched by a read of the low one: register window by address, host path first, management path at 0x80000 above; value plus 1, default 0, not latched. R455; reset: empty. -/
  latch : Tbl Nat
  /-- Power controller. -/
  pow : Power
  /-- Network time. -/
  clk : Clock
  /-- Gate. -/
  gate : Gate
  /-- Region tables. -/
  regions : Regions
  /-- Granted transactions outstanding, in the order of grant. R54; reset: empty. -/
  txns : List Txn
  /-- Next transaction tag. 32 bits; R167; reset: 0. -/
  nextTxn : Nat
  /-- Regulator. -/
  rgl : Regulator
  /-- Header words 0 and 5 of the last flit that went to the Stale Sump. R183; reset: 0. -/
  sumpWords : Word × Word
  /-- Link Ports 0 to 15. -/
  ports : Tbl LinkPort
  /-- Granule keys. -/
  gkt : Gkt
  /-- Rekey Pump. -/
  pump : Pump
  /-- Inbound gateway transfers in progress. R187; reset: empty. -/
  gw : List GwReq
  /-- Blind Reduction Unit. -/
  bru : Bru
  /-- DISPATCH and COMBINE operations that run. R237; reset: empty. -/
  shaper : List ShapeRun
  /-- Scheduled Port. -/
  sched : Sched
  /-- Command front end. -/
  cfe : Cfe
  /-- Slices, fences, events. -/
  obj : Objects
  /-- Fault Control Unit. -/
  fcu : Fcu
  /-- Cipher clusters 0 to 15; default fresh. R245; reset: empty. -/
  clus : Tbl Clu
  /-- The domain. -/
  dom : Dom
  /-- Candidate cycles of the hang detector. R423; reset: empty. -/
  hangs : List Candidate
  /-- Domain resets that are running, the most recent first. R427; reset: empty. -/
  resets : List ResetRun
  /-- Injection. -/
  inject : Inject
  /-- Event Well. -/
  well : Well
  /-- Counters. -/
  cnt : Counters
  /-- Interrupt controller. -/
  icu : Icu
  /-- Persistent words. -/
  per : Persist
  /-- Device Memory Ports. -/
  dmp : Dmp
  /-- Key Delivery Port. -/
  ide : Ide
  /-- Gateway transfers' end-to-end cipher. -/
  bulk : Bulk
  /-- Cistern and random sources. -/
  cis : Cistern
  /-- Security Controller Unit. -/
  scu : Scu
  /-- Life-cycle logic. -/
  lcs : LcsUnit
  /-- Rail samples. -/
  rail : Rail
  /-- Priming. -/
  prime : Prime
  /-- Test access port. -/
  tap : Tap
  /-- Free values taken so far. Model's own; reset: 0, DESIGN CHOICE 0. -/
  free : Nat
  /-- Everything driven on the ports, in order. Model's own; reset: empty. -/
  out : List Out
  deriving DecidableEq, Repr

end Sys2Proof.Machine
end

