-- ==== Sys2Proof/Machine/Nv.lean ====
section
/-! DEFINITION. What no reset clears: the fuse array and the NVM macro behind the Persistent Store Port. -/

namespace Sys2Proof.Machine

/-- The stores that keep their content without power (R71, R73). -/
structure Nv where
  /-- Fuse array. 128 words of 32 bits; R73; reset: empty, DESIGN CHOICE an unprogrammed array. -/
  fuses : Tbl Word
  /-- NVM macro, value, count and CRC of each word. 512 words of 64 bits; R71, R72; reset: empty, DESIGN CHOICE a blank macro. -/
  words : Tbl (BitVec 64)
  deriving DecidableEq, Repr

end Sys2Proof.Machine
end

