-- ==== Sys2Proof/Machine/State.lean ====
section
/-! DEFINITION. The state of the block, the reasons for which a step can stop, and the state after cold reset. -/

namespace Sys2Proof.Machine

/-- The block with the commands that wait for it. -/
structure State where
  /-- Commands waiting, first in, first out. Model's own; reset: empty. -/
  pending : List Instr
  /-- Everything that a reset can change. -/
  hw : Hw
  /-- Fuses and NVM macro. R71, R73. -/
  nv : Nv
  deriving DecidableEq, Repr

/-- No command stops the block: every row of the opcode table has an effect in every state. -/
inductive Fault where
  deriving DecidableEq, Repr

/-- Why a command is turned away. -/
inductive Refusal where
  /-- Raised by the dispatcher for a command whose meaning is not written: safe. -/
  | notModelled (mnemonic : String)
  deriving DecidableEq, Repr

/-- Volatile state right after cold reset: every register at its reset value, priming at phase 1. DEDUCED (log entry 14). DESIGN CHOICE (log entry 41). -/
def Hw.reset : Hw :=
  { regs := [], latch := []
    pow := { rung := .u0, moving := none, queued := none, clockWait := false, auto := false }
    clk := { now := 0, tpValid := true, lnkSel := 0 }
    gate := { windows := [], negatives := [], resolutions := [], retries := [], aged := [], era := 0, rtc := [] }
    regions := { table := [], gens := [], dir := [], maps := [], owner := [], running := none }
    txns := [], nextTxn := 0
    rgl := { items := [], nextSeq := 0, charged := [], sliceCharged := [], shareTotal := 0, waitingAll := [], slicesAll := []
             passedSteps := 0, passedBy := [], lastRobin := 12, pendingWrites := [], weights := [], breaches := [], windowStart := 0 }
    sumpWords := (0, 0)
    ports := []
    gkt := { part := [], cache := [], fills := [], rounds := [], acks := [], closes := [], pinned := [], openSeq := 0 }
    pump := { ranges := [], nextRange := 0, wet := none, budget := 0, rungPause := false, aborting := [] }
    gw := []
    bru := { ctxs := [], closing := [], waiting := [], fresh := [] }, shaper := []
    sched := { ctxs := [], waiting := [], items := [] }
    cfe := { queues := [], btt := [], bttInv := false, nextSeq := 0, issues := [], robin := [], covers := [], bad := [] }
    obj := { slices := [], fences := [], events := [], fsel := [], fsigLo := [], esel := [], swLatch := [] }
    fcu := { counts := [], hist := [], lost := 0, inflight := [], chipRst := false, errValid := false, errHigh := true }
    clus := []
    dom := { policy := none, leaving := [] }
    hangs := [], resets := []
    inject := { sel := 0, remaining := 0, disarmed := false, fired := none }
    well := { ring := [], bad := [], seq := 0, lost := 0, staging := [], gapNext := false, triggered := false, frozen := false
              postLeft := none, suppressed := [], lastRecord := [] }
    cnt := { live := [], shadow := [], exporting := 0, snap := [], latched := 0 }
    icu := { since := [], timer := [], ready := 0, presented := none }
    per := { vals := [], counts := [], written := [], corrupt := [], queue := [], issued := none }
    dmp := { open_ := [], nextId := 0, waiting := [], walks := [] }
    ide := { pending := [], kset := [], asked := [], open_ := [] }
    bulk := { seq := 0, stop := false }
    cis := { slots := [], sets := [], transient := [], floors := [], retired := [], scramble := 0, healthFails := [], calls := 0 }
    scu := Scu.fresh
    lcs := { fuses := [], prog := [], stalled := false, target := none, answer := none, railAt := none }
    rail := { samples := [] }
    prime := { pinHeld := none, phase := some (.cold, 1), ready := false, fwBaseSeen := false, entropyFailed := false }
    tap := Tap.fresh
    free := 0, out := [] }

/-- The block right after reset (R81, R467): no command waits. DESIGN CHOICE (log entry 40). -/
def State.reset : State := { pending := [], hw := Hw.reset, nv := { fuses := [], words := [] } }

end Sys2Proof.Machine
end

