-- ==== Sys2Proof/Machine/Lift.lean ====
section
/-! DEFINITION. How a meaning over the block's units becomes a meaning over the state. -/

namespace Sys2Proof.Machine

/-- An effect on the volatile state alone. -/
def State.onHw (s : State) (f : Hw → Hw) : Host.Outcome State Fault Refusal := .next { s with hw := f s.hw }

/-- An effect on the volatile state and on what no reset clears. -/
def State.onMachine (s : State) (f : Hw → Nv → Hw × Nv) : Host.Outcome State Fault Refusal :=
  .next { s with hw := (f s.hw s.nv).1, nv := (f s.hw s.nv).2 }

end Sys2Proof.Machine
end

