-- ==== Sys2Proof/Config.lean ====
section
/-! DEFINITION. What the spec leaves to the implementation or leaves open, and the published cryptographic
functions that the spec names without restating them. None of these constants has a body: nothing can be
proved of a value of theirs, so every claim holds whatever they are. -/

namespace Sys2Proof.Config

/-- Free values: the n-th value of a width that the spec leaves open (random bits, open results). -/
opaque freeBits : (w : Nat) → Nat → BitVec w

/-- AES-256 encryption of one block under a key (FIPS 197, named by R105, R162, R199). -/
opaque aesEnc : BitVec 256 → BitVec 128 → BitVec 128

/-- AES-256 decryption of one block under a key (FIPS 197). -/
opaque aesDec : BitVec 256 → BitVec 128 → BitVec 128

/-- SHA-384 (FIPS 180-4). -/
opaque sha384 : List Byte → BitVec 384

/-- HMAC-SHA-384 of a message under a key (FIPS 198-1). -/
opaque hmac384 : List Byte → List Byte → BitVec 384

/-- A signature of a message: ECDSA P-384 under a private key of 48 bytes, ML-DSA-87 under a seed of 32. -/
opaque sign : List Byte → List Byte → List Byte

/-- Verification of an ECDSA P-384 signature of a message under a public key. -/
opaque verify : List Byte → List Byte → List Byte → Bool

/-- The public part of a key pair. -/
opaque publicOf : List Byte → List Byte

/-- The shared secret of a key exchange: own private part and peer's public part. -/
opaque agree : List Byte → List Byte → List Byte

/-- Verification of a signature over a message by a ROM key: class (0 DEV, 1 PROD, 2 RMA), key index, message, signature. -/
opaque verifyRom : Nat → Nat → List Byte → List Byte → Bool

/-- The content of a certificate chain: subject's public key and identity; none for a chain that does not verify to the root digest given. -/
opaque chainSubject : BitVec 384 → List Byte → Option (List Byte × List Byte)

/-- Places of the shared pool of response and read data buffers beyond the first (R54 gives no size). -/
opaque poolPlaces : Nat

/-- The policy image (R392): its CBOR payload decoded, with the owner's public key; none where it is not well formed or the
owner's signature fails. -/
opaque policyOf : List Byte → Option (Machine.Policy × List Byte)

/-- ML-KEM-1024 encapsulation (FIPS 203) to a public key with random bits: ciphertext and shared secret. -/
opaque kemEncap : List Byte → BitVec 256 → List Byte × List Byte

/-- ML-KEM-1024 decapsulation with a private part. -/
opaque kemDecap : List Byte → List Byte → List Byte

/-- The SHA-384 digest of the root certificate of a chain. -/
opaque chainRoot : List Byte → BitVec 384

/-- A region record of a report as CBOR (R401 key 15). -/
opaque regionBytes : Machine.RegionRec → List Byte

/-- What the SCU writes to the hand-off area at a switch (R388); the spec gives no layout. -/
opaque handOff : Nat → List Byte

/-- The CBOR payload of a report (RFC 8949). -/
opaque reportBytes : Machine.Report → List Byte

/-- The bytes of an answer as DSP0274, DSP0277 and R398 lay them out, under a session or none. -/
opaque replyBytes : Option Nat → Machine.Reply → List Byte

/-- The payload of a transition token as CBOR. -/
opaque tokenBytes : Machine.Token → List Byte

/-- The certificate that DeviceID issues for one of the block's keys: signer's private key, subject's public key. -/
opaque issue : List Byte → List Byte → List Byte

/-- Public key that a DeviceID certificate names. -/
opaque certKey : List Byte → List Byte

/-- TH2 transcript hash of a session (DSP0274): peer's share, own private part, slot. -/
opaque th2 : List Byte → List Byte → Nat → BitVec 384

/-- FINISH verifies against a session's transcript. -/
opaque finishOk : BitVec 384 → List Byte → Bool

/-- SHA-384 of the SCU ROM. -/
opaque romDigest : BitVec 384

/-- Key certificate of R376 as bytes: its payload and two signatures. -/
opaque keyCert : List Nat → List Byte → List Byte → List Byte

end Sys2Proof.Config
end

