-- ==== Sys2Proof/Machine/Ops.lean ====
section
/-! DEFINITION. Named operations over the block's state that every family shares: registers and their
fields, page flags, interrupt sources, fault raises, counters, free values and outputs. -/

namespace Sys2Proof.Machine

/-- Stored value of the register at a byte address. -/
def Hw.reg (h : Hw) (a : Nat) : Word := h.regs.get (resetOf a) a

/-- The block with a register's stored value replaced. -/
def Hw.setReg (h : Hw) (a : Nat) (w : Word) : Hw := { h with regs := h.regs.put (resetOf a) a w }

/-- A field of a register. -/
def Hw.regF (h : Hw) (a lo len : Nat) : Nat := fld (h.reg a) lo len

/-- One bit of a register. -/
def Hw.regBit (h : Hw) (a k : Nat) : Bool := bit (h.reg a) k

/-- The block with a field of a register replaced. -/
def Hw.setF (h : Hw) (a lo len v : Nat) : Hw := h.setReg a (setBits (h.reg a) lo len v)

/-- A saturating count register advanced by `n` (the "Saturating count" registers of every page). -/
def Hw.addReg (h : Hw) (a n : Nat) : Hw :=
  h.setReg a (BitVec.ofNat 32 (min ((h.reg a).toNat + n) 0xFFFFFFFF))

/-- A saturating count register advanced by one. -/
def Hw.incReg (h : Hw) (a : Nat) : Hw := h.addReg a 1

/-- An output driven. DESIGN CHOICE (log entry 9). -/
def Hw.emit (h : Hw) (o : Out) : Hw := { h with out := h.out ++ [o] }

/-- What happens only once BLK_READY has been driven: accesses of the register window and of slice windows, and management
frames (R468). DESIGN CHOICE (log entry 48). -/
def Hw.whenReady (h : Hw) (f : Hw → Hw) : Hw := if h.prime.ready then f h else h

/-- A write of the Register Port that completes OK (R67, R452); RP_READY is 0 until BLK_READY (R468). -/
def Hw.access (h : Hw) (f : Hw → Hw) : Hw := h.whenReady fun h => (f h).emit (.regAnswer 0 0)

/-- A value that the spec leaves open, of width `w`. DESIGN CHOICE (log entry 6). -/
def Hw.freeVal (h : Hw) (w : Nat) : BitVec w := Config.freeBits w h.free

/-- The block after a free value has been taken. -/
def Hw.tookFree (h : Hw) : Hw := { h with free := h.free + 1 }

/-- Counter `k` of the counter unit advanced by `n`, wrapping at 48 bits (R442). -/
def Hw.tally (h : Hw) (k n : Nat) : Hw :=
  { h with cnt.live := h.cnt.live.put 0 k ((h.cnt.live.get 0 k + n) % 2 ^ 48) }

/-- An assertion counted toward the vector of ICU source `s` (R447). -/
def Hw.icuCount (h : Hw) (s : Nat) : Hw :=
  let v := h.regF (Reg.ICU_ROUTE (s / 4)) (8 * (s % 4)) 6
  let c := Reg.ICU_VCNTv v
  let h := h.setReg c (h.reg c + 1)
  let t := if h.icu.timer.get 0 v = 0 then h.clk.now + 1 else h.icu.timer.get 0 v
  { h with icu.since := h.icu.since.put 0 v (h.icu.since.get 0 v + 1), icu.timer := h.icu.timer.put 0 v t }

/-- ICU source `s` is masked. -/
def Hw.icuMasked (h : Hw) (s : Nat) : Bool := h.regBit (Reg.ICU_MASK (s / 32)) (s % 32)

/-- An edge source asserted (R447). -/
def Hw.icuAssert (h : Hw) (s : Nat) : Hw :=
  let h1 := h.setF (Reg.ICU_PEND (s / 32)) (s % 32) 1 1
  if h.icuMasked s then h1 else h1.icuCount s

/-- The page has an enabled IRQ_STAT bit set (R446). -/
def Hw.pageAsserts (h : Hw) (page : Nat) : Bool :=
  (h.reg (page * 0x1000 + offIrqStat) &&& h.reg (page * 0x1000 + offIrqEn)) != 0

/-- ICU level source of a page (R446). -/
def levelSource (page : Nat) : Nat :=
  if page ≤ 0x23 then 320 + page else if page ≤ 0x3F then 356 else 357

/-- A level source's pending bit follows its assertion (R447). -/
def Hw.icuLevel (h : Hw) (page : Nat) : Hw :=
  let s := levelSource page
  if h.pageAsserts page && !h.regBit (Reg.ICU_PEND (s / 32)) (s % 32) then h.icuAssert s else h

/-- Bit `k` of a page's IRQ_STAT set by the hardware (R456). -/
def Hw.setIrq (h : Hw) (page k : Nat) : Hw :=
  (h.setF (page * 0x1000 + offIrqStat) k 1 1).icuLevel page

/-- A PAGE_FAULT bit set, with its interrupt under PAGE_CTL.fault_irq (R456). -/
def Hw.pageFault (h : Hw) (page : Nat) (f : PageFault) : Hw :=
  let a := page * 0x1000 + offFault
  let fresh := !h.regBit a f.bit
  let h := h.setF a f.bit 1 1
  if fresh && h.regBit (page * 0x1000 + offCtl) 0 then h.setIrq page 31 else h

/-- Page-specific IRQ_STAT bits set with a fault source: page and bit (each page's chapter). -/
def sourceIrq (s : Nat) : List (Nat × Nat) :=
  if 48 ≤ s ∧ s ≤ 63 then [(0x40 + (s - 48), 2)]
  else if 64 ≤ s ∧ s ≤ 79 then [(0x40 + (s - 64), 3)]
  else if 80 ≤ s ∧ s ≤ 87 then [(0x40 + 2 * (s - 80), 4), (0x40 + 2 * (s - 80) + 1, 4)]
  else if 112 ≤ s ∧ s ≤ 127 then [(0x09, 1)]
  else if 128 ≤ s ∧ s ≤ 143 then [(0x09, 2)]
  else match s with
    | 216 => [(0x04, 2)] | 217 => [(0x04, 3)] | 218 => [(0x06, 0)] | 219 => [(0x06, 1)] | 220 => [(0x06, 2)]
    | 224 => [(0x07, 0)] | 225 => [(0x07, 1)] | 226 => [(0x08, 3)] | 227 => [(0x08, 1)] | 228 => [(0x08, 2)]
    | 229 => [(0x09, 0)] | 230 => [(0x0A, 0)] | 231 => [(0x0A, 1)] | 232 => [(0x09, 2)]
    | 240 => [(0x0B, 4)] | 241 => [(0x0B, 4)] | 242 => [(0x0B, 1)] | 243 => [(0x0B, 2)]
    | 248 => [(0x0D, 1), (0x0E, 1)] | 249 => [(0x0D, 0)] | 250 => [(0x0F, 2)] | 251 => [(0x0F, 0)]
    | 252 => [(0x0F, 1)] | 253 => [(0x11, 0)] | 254 => [(0x10, 1)] | 255 => [(0x13, 0)] | 256 => [(0x14, 0)]
    | 257 => [(0x1C, 0)] | 258 => [(0x1C, 1)] | 259 => [(0x1C, 1)] | 260 => [(0x1C, 1)] | 261 => [(0x1C, 1)]
    | 262 => [(0x1C, 1)] | 264 => [(0x15, 1)] | 266 => [(0x16, 0)] | 267 => [(0x16, 0)]
    | _ => []

/-- Fault sources that a failed check of a kind and unit of R419 leads to, where the fault is raised apart from the check. -/
def firedSources (kind unit : Nat) : List Nat :=
  if kind = 6 then [218, 220, 227] else if kind = 5 ∧ unit = 0 then [216] else if kind = 5 ∧ unit = 1 then [224, 225] else []

/-- The raise comes from the inverted check that has not led to a fault yet (R419). -/
def Hw.firedBy (h : Hw) (source : Nat) : Bool :=
  match h.inject.fired with
  | some (kind, unit) => decide (source ∈ firedSources kind unit)
  | none => false

/-- A fault detected: it is on its way to the FCU, and the page bits that go with its source are set (R30, R413). -/
def Hw.raiseWith (h : Hw) (r : Raise) : Hw :=
  let mine := h.firedBy r.source
  (sourceIrq r.source).foldl (fun h pb => h.setIrq pb.1 pb.2)
    { h with
      fcu.inflight := h.fcu.inflight ++ [(h.clk.now, if mine then { r with injected := true } else r)]
      inject.fired := if mine then none else h.inject.fired }

/-- A fault detected with its detail word and record words (R435). -/
def Hw.raise (h : Hw) (source : Nat) (detail w5 w6 w7 : Nat) : Hw :=
  h.raiseWith ⟨source, BitVec.ofNat 32 detail, BitVec.ofNat 32 w5, BitVec.ofNat 32 w6, BitVec.ofNat 32 w7, false, []⟩

/-- Detail word of a FAULT record (R435): slice, queue, instance and tag where they apply. -/
def detailWord (slice queue : Option Nat) (inst tag : Nat) : Nat :=
  (match slice with | some s => s % 1024 + 1024 | none => 0) +
  (match queue with | some q => (q % 64) * 2048 + 131072 | none => 0) + (inst % 16) * 262144 + (tag % 1024) * 4194304

/-- PWR.PROFILE_ACT: DETERMINISTIC is in effect (R36). -/
def Hw.deterministic (h : Hw) : Bool := h.regBit Reg.PWR_PROFILE_ACT 4

/-- VERIFIED is in effect (R36). -/
def Hw.verified (h : Hw) : Bool := h.regBit Reg.PWR_PROFILE_ACT 5

/-- FRUGAL is in effect (R33). -/
def Hw.frugal (h : Hw) : Bool := h.regF Reg.PWR_PROFILE_ACT 0 2 == 1

/-- A quiet window of the Scheduled Port is open (R311). -/
def Hw.quietOpen (h : Hw) : Bool := h.regBit Reg.SCHED_STAT 31

/-- Background work may be issued now: outside DETERMINISTIC, or in a quiet window (R152, R311). -/
def Hw.backgroundNow (h : Hw) : Bool := !h.deterministic || h.quietOpen

/-- The engines run: U0 is in force. What the Gate has granted in U1 or U2 waits for the exit (R38, R41). -/
def Hw.enginesRun (h : Hw) : Bool := h.pow.rung == .u0

/-- The SCU runs: CK_ENG, which drives it, is gated from U2 down (R38). -/
def Hw.scuClocked (h : Hw) : Bool := h.pow.rung == .u0 || h.pow.rung == .u1

/-- A page's RWL fields are locked (R457). -/
def Hw.locked (h : Hw) (page : Nat) : Bool := h.regBit (page * 0x1000 + offLock) 0

/-- Factory value of a persistent word (R459). The classes of R409 and the masks of R411 are its words
0x020 to 0x057. -/
def persistFactory (w : Nat) : Word :=
  if w = 0 then 1 else if w = 0x012 then 0x000088B5 else if w = 0x013 then 0xABE08CA0
  else if w = 0x018 then 0x000082F0 else if w = 0x01A then 0x00000400
  else if 0x020 ≤ w ∧ w ≤ 0x04F then
    (List.range 8).foldl (fun acc k => acc ||| (BitVec.ofNat 32 (defaultClass (8 * (w - 0x020) + k)) <<< (4 * k))) 0
  else if w = 0x051 then 0x01 else if w = 0x052 then 0x11 else if w = 0x053 then 0x05
  else if w = 0x054 then 0x15 else if w = 0x055 then 0x12 else if w = 0x056 then 0x16
  else if w = 0x057 then 0x1A else 0
where
  /-- Default class of a fault source (R409); 0 for a reserved one. -/
  defaultClass (s : Nat) : Nat :=
    if s ≤ 47 then 1 else if s ≤ 87 then 2 else if s < 96 then 0 else if s ≤ 159 then 1 else if s ≤ 178 then 2
    else if s < 184 then 0 else if s ≤ 200 then 1
    else if s = 201 ∨ s = 204 ∨ s = 205 ∨ s = 206 ∨ s = 208 ∨ s = 209 ∨ s = 216 ∨ s = 224 ∨ s = 241 ∨ s = 254 ∨ s = 264 ∨ s = 267 then 2
    else if s = 202 ∨ s = 203 ∨ s = 207 ∨ s = 210 ∨ s = 218 ∨ s = 219 ∨ s = 220 then 1
    else if s = 225 ∨ s = 226 ∨ s = 227 ∨ s = 228 ∨ s = 230 ∨ s = 232 ∨ s = 240 ∨ s = 242 ∨ s = 244 then 1
    else if s = 248 ∨ s = 249 ∨ s = 250 ∨ s = 251 ∨ s = 256 ∨ s = 257 ∨ s = 261 ∨ s = 262 ∨ s = 266 then 1
    else if s = 258 ∨ s = 259 ∨ s = 260 ∨ s = 265 then 3
    else if s = 268 then 7
    else if 272 ≤ s ∧ s ≤ 287 then (if s % 2 = 0 then 0 else if s = 287 then 2 else 4)
    else 0

/-- Fault sources that exist (R409, R410). -/
def sourceExists (s : Nat) : Bool :=
  !(decide (88 ≤ s ∧ s ≤ 95) || decide (179 ≤ s ∧ s ≤ 183) || decide (211 ≤ s ∧ s ≤ 215) || decide (221 ≤ s ∧ s ≤ 223)
    || decide (233 ≤ s ∧ s ≤ 239) || decide (245 ≤ s ∧ s ≤ 247) || decide (s = 263) || decide (269 ≤ s ∧ s ≤ 271)
    || decide (288 ≤ s))

/-- What SEVTAB.CLASSn keeps of a word: three bits for each source that exists; the fields of reserved sources and the
reserved bits read 0 (chapter 17, SEVTAB page). -/
def sevClassBits (n : Nat) (v : Word) : Word :=
  (List.range 8).foldl (fun (v : Word) k => if sourceExists (8 * n + k) then v else setBits v (4 * k) 4 0) (v &&& 0x77777777)

/-- Value in force of a persistent word (R459); reserved words read 0. -/
def Hw.perVal (h : Hw) (w : Nat) : Word := h.per.vals.get (persistFactory w) w

/-- Class in force of a fault source (R411). -/
def Hw.classOf (h : Hw) (s : Nat) : Nat := h.regF (Reg.SEVTAB_CLASS (s / 8)) (4 * (s % 8)) 3

/-- Reaction mask in force of a class (R411). -/
def Hw.reactOf (h : Hw) (c : Nat) : Word := h.reg (Reg.SEVTAB_REACT c)

/-- A fault source is pending. -/
def Hw.pending (h : Hw) (s : Nat) : Bool := h.regBit (Reg.FAULT_PEND (s / 32)) (s % 32)

/-- Pending sources whose class has the ERR_OUT reaction (R417). -/
def Hw.errHolders (h : Hw) : Nat :=
  ((List.range 384).filter fun s => h.pending s && bit (h.reactOf (h.classOf s)) 4).length

/-- ERR_OUT and its flag after a change from the level that held before (R79, R417). -/
def Hw.errUpdate (h : Hw) (was : Bool) : Hw :=
  let now := decide (0 < h.errHolders)
  let h := if now && !was then h.setIrq 0x1A 1 else h
  if now != was && h.fcu.errValid then h.emit (.errOut true (now == h.fcu.errHigh)) else h

/-- The block is joined (R11); the member id stands in CAP.MEMBER. -/
def Hw.joined (h : Hw) : Bool := h.regBit Reg.CAP_MEMBER 31

end Sys2Proof.Machine
end

