-- ==== Sys2Proof/Machine/Shared.lean ====
section
/-! DEFINITION. Shared operations over slices, fences and events (R315, R322 to R331): ownership, the
serial comparison, the signal, and what a change does to the FENCE_WAITs that wait for it. -/

namespace Sys2Proof.Machine

/-- A slice. -/
def Hw.slice (h : Hw) (s : Nat) : Slice := h.obj.slices.get Slice.unbound s

/-- A slice replaced. -/
def Hw.setSlice (h : Hw) (s : Nat) (v : Slice) : Hw := { h with obj.slices := h.obj.slices.put Slice.unbound s v }

/-- The slice that a PASID is bound to (R315); `free` slices have none. -/
def Hw.sliceOfPasid (h : Hw) (pasid : Nat) : Option Nat :=
  (h.obj.slices.find? fun p => p.2.st != .free && p.2.pasid == pasid).map (·.1)

/-- A fence. -/
def Hw.fence (h : Hw) (f : Nat) : Fence := h.obj.fences.get Fence.unused f

/-- A fence replaced. -/
def Hw.setFence (h : Hw) (f : Nat) (v : Fence) : Hw := { h with obj.fences := h.obj.fences.put Fence.unused f v }

/-- An event. -/
def Hw.event (h : Hw) (e : Nat) : Event := h.obj.events.get Event.unused e

/-- An event replaced. -/
def Hw.setEvent (h : Hw) (e : Nat) (v : Event) : Hw := { h with obj.events := h.obj.events.put Event.unused e v }

/-- FENCE.CFG.owner. -/
def Fence.owner (f : Fence) : Nat := fld f.cfg 0 10

/-- `s` is the fence's valid sharer. -/
def Fence.shares (f : Fence) (s : Nat) : Bool := bit f.cfg 24 && fld f.cfg 10 10 == s

/-- The fence is allocated (R322). -/
def Fence.allocated (f : Fence) : Bool := f.st != .free

/-- Slice `s` may wait on or poll the fence (R323). -/
def Fence.mayWait (f : Fence) (s : Nat) : Bool := f.allocated && (f.owner == s || (f.shares s && bit f.cfg 20))

/-- Slice `s` may signal the fence (R323). -/
def Fence.maySignal (f : Fence) (s : Nat) : Bool := f.allocated && (f.owner == s || (f.shares s && bit f.cfg 21))

/-- A fence at `c` reaches `v`: (c - v) mod 2^64 is below 2^63 (R324). -/
def fenceReaches (c v : BitVec 64) : Bool := decide ((c - v).toNat < 2 ^ 63)

/-- A signal of `s` is lower than `c`: (c - s) mod 2^64 lies in 1 to 2^63 - 1 (R324). -/
def fenceLower (c s : BitVec 64) : Bool := decide (1 ≤ (c - s).toNat) && decide ((c - s).toNat < 2 ^ 63)

/-- A wait for `v` is satisfied (R326). -/
def Fence.satisfies (f : Fence) (v : BitVec 64) : Bool := f.st == .error || (f.allocated && fenceReaches f.value v)

/-- Code with which a satisfied wait completes (R278, R326). -/
def Fence.waitCode (f : Fence) : CC := if f.st = .error then f.status else .ok

/-- Opcode of an operation (R270). -/
def QOp.opcode (o : QOp) : Nat := bits o.bytes.toNat 0 8

/-- A bit field of an operation's 32 bytes: byte offset, bit offset within it, width. -/
def QOp.field (o : QOp) (byte lo len : Nat) : Nat := bits o.bytes.toNat (8 * byte + lo) len

/-- An operation that is a FENCE_WAIT on fence `f` and waits (R278). -/
def QOp.waitsOn (o : QOp) (f : Nat) : Bool :=
  o.opcode == 9 && o.started && o.st == .issued && o.field 4 0 12 == f

/-- The FENCE_WAITs of a buffer that a change of a fence satisfies (R326). -/
def QOp.wake (o : QOp) (f : Nat) (v : Fence) : QOp :=
  if o.waitsOn f && v.satisfies (BitVec.ofNat 64 (o.field 8 0 64)) then
    { o with st := .satisfied v.waitCode (BitVec.ofNat 32 v.value.toNat) }
  else o

/-- The FENCE_WAITs of every queue that a change of a fence satisfies (R326). -/
def Hw.wakeWaiters (h : Hw) (f : Nat) : Hw :=
  let v := h.fence f
  { h with cfe.queues := h.cfe.queues.map fun nq =>
      (nq.1, { nq.2 with run := nq.2.run.map fun b => { b with ops := b.ops.map fun o => o.wake f v } }) }

/-- FENCE_WAITs waiting on a fence (R326). -/
def Hw.waiters (h : Hw) (f : Nat) : Nat :=
  h.cfe.queues.foldl (fun n nq => n + (match nq.2.run with | some b => (b.ops.filter fun o => o.waitsOn f).length | none => 0)) 0

/-- A set of an event (R331). -/
def Hw.eventSet (h : Hw) (e : Nat) : Hw :=
  let v := h.event e
  if !v.alloc then h
  else
    let manual := bit v.cfg 10
    let h := h.setEvent e { v with count := (v.count + 1) % 65536, set := manual }
    if manual && v.set then h else h.icuAssert (448 + fld v.cfg 16 6)

/-- The notify event of a fence, when notify is enabled (R329). -/
def Hw.fenceNotify (h : Hw) (f : Nat) : Hw :=
  if bit (h.fence f).cfg 23 then h.eventSet (h.fence f).event else h

/-- A lower signal: counted, recorded and raised; the fence is unchanged (R325). -/
def Hw.fenceRegress (h : Hw) (f member : Nat) : Hw :=
  ((h.incReg Reg.FENCE_REGRESS_CNT).setReg Reg.FENCE_LAST_REGRESS (BitVec.ofNat 32 (f + 4096 * (member % 65536) + 2 ^ 31))).raise
    253 (detailWord (some (h.fence f).owner) none 0 0) 0 0 0

/-- The fence after an accepted signal of `s` with an optional error status (R325). -/
def Fence.signalled (v : Fence) (s : BitVec 64) (err : Option CC) : Fence :=
  match v.st, err with
  | .error, _ => { v with value := s }
  | _, some c => { v with value := s, st := .error, status := c }
  | _, .none => { v with value := s, st := .signalled }

/-- A signal of fence `f` by `member`: accepted unless it is lower (R325), with its waiters and its notify event. -/
def Hw.fenceSignal (h : Hw) (f : Nat) (s : BitVec 64) (err : Option CC) (member : Nat) : Hw :=
  let v := h.fence f
  if fenceLower v.value s then h.fenceRegress f member
  else ((h.setFence f (v.signalled s err)).wakeWaiters f).fenceNotify f

/-- A fence set SIGNALLED_ERROR with status ORPHANED, unless it is in error already (R328, R339). -/
def Hw.fenceOrphan (h : Hw) (f : Nat) : Hw :=
  let v := h.fence f
  if v.st = .error ∨ v.st = .free then h
  else ((h.setFence f { v with st := .error, status := .orphaned }).wakeWaiters f).fenceNotify f

/-- This member's id while it is joined (R11). -/
def Hw.memberId (h : Hw) : Nat := h.regF Reg.CAP_MEMBER 0 16

/-- FENCE_ALLOC: the selected fence is allocated UNSIGNALLED with its initial value, unless it is allocated
already or its notify event is not its owner's (R322, R329). -/
def Hw.fenceAlloc (h : Hw) (value : Word) : Hw :=
  let f := h.regF Reg.FENCE_SEL 0 12
  let v := h.fence f
  let e := fld value 16 10
  if v.allocated then h
  else if bit v.cfg 23 && !((h.event e).alloc && fld (h.event e).cfg 0 10 == v.owner) then
    h.setFence f { v with refused := true }
  else h.setFence f { v with st := .unsignalled, value := v.init, status := .ok, event := e, refused := false, lastRemote := none }

/-- FENCE_FREE: the selected fence is orphaned, so that its waiters complete, and then freed (R328). -/
def Hw.fenceFree (h : Hw) : Hw :=
  let f := h.regF Reg.FENCE_SEL 0 12
  if !(h.fence f).allocated then h
  else
    let h := h.fenceOrphan f
    h.setFence f { h.fence f with st := .free, status := .ok }

/-- A fence returned to UNSIGNALLED with its initial value (R328). Waits that its new value satisfies are
satisfied; the others go on. -/
def Hw.fenceClear (h : Hw) (f : Nat) : Hw :=
  let v := h.fence f
  (h.setFence f { v with st := .unsignalled, value := v.init, status := .ok }).wakeWaiters f

/-- FENCE_RESET: FENCE.CMD op RESET of the selected fence (R328). -/
def Hw.fenceReset (h : Hw) : Hw :=
  let f := h.regF Reg.FENCE_SEL 0 12
  if (h.fence f).allocated then h.fenceClear f else h

/-- EVENT_ALLOC: the selected event is allocated (R330). -/
def Hw.eventAlloc (h : Hw) : Hw :=
  let e := h.regF Reg.EVENT_SEL 0 10
  if (h.event e).alloc then h else h.setEvent e { h.event e with alloc := true, set := false, count := 0 }

/-- EVENT_FREE: the selected event is freed (R330). -/
def Hw.eventFree (h : Hw) : Hw :=
  let e := h.regF Reg.EVENT_SEL 0 10
  h.setEvent e { h.event e with alloc := false, set := false }

/-- The owner of an event may set, clear and read it (R330). -/
def Hw.ownsEvent (h : Hw) (s e : Nat) : Bool := (h.event e).alloc && fld (h.event e).cfg 0 10 == s

/-- Manual events cleared by a W1C write of EVENT.STATEn (R331). -/
def Hw.eventClearMask (h : Hw) (n : Nat) (value : Word) : Hw :=
  (List.range 32).foldl (fun h k => if value.getLsbD k then h.setEvent (32 * n + k) { h.event (32 * n + k) with set := false } else h) h

end Sys2Proof.Machine
end

