-- ==== Sys2Proof/Machine/Send.lean ====
section
/-! DEFINITION. Messages of the Link Ports and the work waiting in the Regulator: headers and inline areas
(R166 to R170), the choice of a port (R172), the charge of work (R345), and the outstanding transactions. -/

namespace Sys2Proof.Machine

/-- Operation codes of fabric messages (R169). -/
inductive FabOp where
  | lineRead | groupRead | write | condWrite | atomAdd | atomMin | atomMax | atomCas
  | compRmin | compRmax | compGather | compFilter
  | gktGet | gktEntry | gktOpen | gktAck | gktClose | fenceRemote | sess | keyUpdate | sessEnd
  | bulkPut | bulkGet | bulkData | bulkAck
  deriving DecidableEq, Repr

/-- The op field (R169). -/
def FabOp.code : FabOp → Nat
  | .lineRead => 0x01 | .groupRead => 0x02 | .write => 0x03 | .condWrite => 0x04
  | .atomAdd => 0x08 | .atomMin => 0x09 | .atomMax => 0x0A | .atomCas => 0x0B
  | .compRmin => 0x0C | .compRmax => 0x0D | .compGather => 0x0E | .compFilter => 0x0F
  | .gktGet => 0x20 | .gktEntry => 0x21 | .gktOpen => 0x22 | .gktAck => 0x23 | .gktClose => 0x24
  | .fenceRemote => 0x28 | .sess => 0x30 | .keyUpdate => 0x31 | .sessEnd => 0x32
  | .bulkPut => 0x38 | .bulkGet => 0x39 | .bulkData => 0x3A | .bulkAck => 0x3B

/-- The op values that are not reserved (R169); 0x10 to 0x17 are the BLIND operations. -/
def opDefined (c : Nat) : Bool :=
  decide (1 ≤ c ∧ c ≤ 4) || decide (8 ≤ c ∧ c ≤ 0x17) || decide (0x20 ≤ c ∧ c ≤ 0x24) || c == 0x28 ||
    decide (0x30 ≤ c ∧ c ≤ 0x32) || decide (0x38 ≤ c ∧ c ≤ 0x3B)

/-- A field of an inline area: byte offset, bits. -/
def inlineField (area : BitVec 1664) (byte len : Nat) : Nat := bits area.toNat (8 * byte) len

/-- An inline area from (byte offset, value) pairs whose values do not overlap. -/
def inlineOf (fields : List (Nat × Nat)) : BitVec 1664 :=
  BitVec.ofNat 1664 (fields.foldl (fun acc p => acc + p.2 * 2 ^ (8 * p.1)) 0)

/-- A header (R167) of this block's own: `dst` is a member, `addr` a pool address. -/
def Hw.header (h : Hw) (op vc cls dflits dmode dst : Nat) (addr : BitVec 46) (rack lines arg txn : Nat) : Header :=
  { op := BitVec.ofNat 8 op, vc := BitVec.ofNat 2 vc, cls := BitVec.ofNat 3 cls, dflits := BitVec.ofNat 5 dflits,
    resp := false, status := 0, dmode := BitVec.ofNat 2 dmode, src := BitVec.ofNat 16 h.memberId,
    dst := BitVec.ofNat 16 (if dmode = 0 then dst else 0), addr := addr, rack := BitVec.ofNat 4 rack,
    lines := BitVec.ofNat 7 lines, arg := BitVec.ofNat 8 arg, txn := BitVec.ofNat 32 txn, pgen := 0 }

/-- A control message of one header flit to a member, or to the control group when `dst` is none (R169). -/
def Hw.controlMsg (h : Hw) (op : FabOp) (dst : Option Nat) (granule txn : Nat) (area : BitVec 1664) : Message :=
  { hdr := h.header op.code 3 3 0 (match dst with | some _ => 0 | none => 2) (dst.getD 0)
      (BitVec.ofNat 46 (granule * 2 ^ 21)) (h.regF Reg.GATE_RACKS 0 4) 0 0 txn,
    inlineArea := area, lines := [] }

/-- The answer to a request on a VC: its op, resp, txn and cls, to its sender (R169). -/
def Hw.answerMsg (h : Hw) (req : Header) (op : Nat) (vc : Nat) (status : Nat) (area : BitVec 1664) (lines : List SealedLine) : Message :=
  { hdr := { req with
      op := BitVec.ofNat 8 op, vc := BitVec.ofNat 2 vc, dflits := BitVec.ofNat 5 ((lines.length + 3) / 4), resp := true,
      status := BitVec.ofNat 3 status, dmode := 0, src := BitVec.ofNat 16 h.memberId, dst := req.src,
      lines := BitVec.ofNat 7 lines.length, arg := 0, pgen := 0 },
    inlineArea := area, lines := lines }

/-- Flits of a message (R166). -/
def Message.flits (m : Message) : Nat := 1 + m.hdr.dflits.toNat

/-- A Link Port. -/
def Hw.port (h : Hw) (p : Nat) : LinkPort := h.ports.get LinkPort.idle p

/-- A Link Port replaced. -/
def Hw.setPort (h : Hw) (p : Nat) (v : LinkPort) : Hw := { h with ports := h.ports.put LinkPort.idle p v }

/-- One VC of a port's egress scheduler. -/
def LinkPort.vc (p : LinkPort) (v : Nat) : EgressVc := p.vcs.get EgressVc.empty v

/-- A VC replaced. -/
def LinkPort.setVc (p : LinkPort) (v : Nat) (x : EgressVc) : LinkPort := { p with vcs := p.vcs.put EgressVc.empty v x }

/-- One VC of a port changed. -/
def Hw.modVc (h : Hw) (p v : Nat) (f : EgressVc → EgressVc) : Hw := h.setPort p ((h.port p).setVc v (f ((h.port p).vc v)))

/-- Messages of a transaction that have not started leave the egress queues. -/
def Hw.dropEgress (h : Hw) (id : Nat) : Hw :=
  (List.range 16).foldl (fun h p => (List.range 4).foldl (fun h v =>
    if ((h.port p).vc v).queue.any fun i => i.txn == some id && !i.started then
      h.modVc p v fun c => { c with queue := c.queue.filter fun i => !(i.txn == some id && !i.started) }
    else h) h) h

/-- The pair of a port is fenced: both of its clusters are out, or its reset domain is being reset (R257). -/
def Hw.portFenced (h : Hw) (p : Nat) : Bool :=
  h.regBit (Reg.CLU_STAT (p / 2 * 2)) 9 || h.resets.any fun r => r.dom.num == p / 2 || r.dom == .block

/-- Ports of a set that hold a session, in ascending order (R172); those of a fenced pair count as holding none (R257). -/
def Hw.sessionPorts (h : Hw) (set : Word) : List Nat :=
  (List.range 16).filter fun p => set.getLsbD p && (h.port p).sess == .up && !h.portFenced p

/-- The port of a message (R172): index ((key × 0x9E37_79B1) mod 2^32 × n) >> 32 among the n ports of the
set that hold a session; none while n is 0. -/
def Hw.choosePort (h : Hw) (set : Word) (key : Nat) : Option (Fin 16) :=
  let ps := h.sessionPorts set
  match ps[(key * 0x9E3779B1 % 2 ^ 32 * ps.length) / 2 ^ 32]? with
  | some p => if hp : p < 16 then some ⟨p, hp⟩ else none
  | none => none

/-- The port of a message by its header: LINK.POOL_PORTS by pool address [39:8], or LINK.CTL_PORTS by
destination member (R172). -/
def Hw.portFor (h : Hw) (hd : Header) : Option (Fin 16) :=
  if hd.dmode = 1 then h.choosePort (h.reg Reg.LINK_POOL_PORTS) (bits hd.addr.toNat 8 32)
  else h.choosePort (h.reg Reg.LINK_CTL_PORTS) hd.dst.toNat

/-- Master of a source (R342). -/
def Source.master : Source → Nat
  | .utp p => p.val | .sched => 8 | .cfe _ _ => 9 | .pump => 10 | .gktFetch => 12 | .gateway => 11 | .control => 12 | .left => 9

/-- A transaction by its tag. -/
def Hw.txn (h : Hw) (id : Nat) : Option Txn := h.txns.find? fun t => t.id == id

/-- A transaction changed. -/
def Hw.modTxn (h : Hw) (id : Nat) (f : Txn → Txn) : Hw :=
  { h with txns := h.txns.map fun t => if t.id = id then f t else t }

/-- A transaction no longer outstanding. -/
def Hw.dropTxn (h : Hw) (id : Nat) : Hw := { h with txns := h.txns.filter fun t => t.id != id }

/-- Bytes charged for a transaction (R345). -/
def Txn.charge (t : Txn) : Nat :=
  match t.kind with
  | .add | .min | .max | .cas => 16
  | .reduceMin | .reduceMax | .gather | .filter => 256
  | .blindPut | .blindTake => 256
  | _ => 64 * t.lines

/-- Data flits of a transaction's request (R169). -/
def Txn.dataFlits (t : Txn) : Nat :=
  match t.kind with
  | .store | .copyIn | .shapeWrite => (t.lines + 3) / 4
  | _ => 0

/-- Master of work: that of a slot operation is not counted as master 8 under DETERMINISTIC (R342). -/
def Hw.masterOf (h : Hw) (slot : Option Nat) (m : Nat) : Nat := if slot.isSome then (if h.deterministic then 13 else 8) else m

/-- Party of work: a slot operation, or a master (R357). -/
def partyOf (slot : Option Nat) (m : Nat) : Nat × Nat := match slot with | some id => (4, id) | none => (0, m)

/-- A transaction waits in its master's Regulator queue (R343). -/
def Hw.enqueueTxn (h : Hw) (t : Txn) : Hw :=
  { h with
    rgl.items := h.rgl.items ++ [{
      seq := h.rgl.nextSeq, master := h.masterOf t.slot t.src.master, slice := t.slice,
      work := .txn t.id, bytes := t.charge, port := none, vc := 0, flits := 1 + t.dataFlits, aged := false, promoted := false,
      deadline := t.deadline, waitedFor := 0, party := partyOf t.slot t.src.master, ahead := [] }]
    rgl.nextSeq := h.rgl.nextSeq + 1 }

/-- A message waits in a master's Regulator queue; control work is charged nothing (R343, R345). -/
def Hw.enqueueFor (h : Hw) (slot : Option Nat) (master slice bytes : Nat) (m : Message) (port : Option (Fin 16)) : Hw :=
  { h with
    rgl.items := h.rgl.items ++ [{
      seq := h.rgl.nextSeq, master := h.masterOf slot master, slice := slice, work := .message m, bytes := bytes, port := port,
      vc := m.hdr.vc, flits := m.flits, aged := false, promoted := false, deadline := none, waitedFor := 0
      party := partyOf slot master, ahead := [] }]
    rgl.nextSeq := h.rgl.nextSeq + 1 }

/-- A message that is no slot operation's waits in a master's Regulator queue (R343, R345). -/
def Hw.enqueueMsg (h : Hw) (master slice bytes : Nat) (m : Message) (port : Option (Fin 16)) : Hw :=
  h.enqueueFor none master slice bytes m port

/-- A control message of master 12 (R342). -/
def Hw.sendControl (h : Hw) (m : Message) : Hw := h.enqueueMsg 12 0 0 m none

/-- A control message tied to one port: SESS, KEY_UPDATE, SESS_END. -/
def Hw.sendOnPort (h : Hw) (p : Fin 16) (m : Message) : Hw := h.enqueueMsg 12 0 0 m (some p)

/-- Tags in use: those of transactions, of open rounds and of BLIND messages (R167). -/
def Hw.tagsInUse (h : Hw) : List Nat :=
  h.txns.map (·.id) ++ h.gkt.rounds.map (·.txn) ++ (h.bru.ctxs.flatMap fun c => (c.first.msgs ++ (c.second.map (·.msgs)).getD []).map (·.txn)) ++ h.bru.closing.flatMap (·.txns)

/-- The tag of the next transaction: 32 bits, unique among those outstanding (R167). -/
def Hw.newTag (h : Hw) : Nat :=
  let used := h.tagsInUse
  (((List.range (used.length + 1)).map fun k => (h.nextTxn + k) % 2 ^ 32).find? fun id => !decide (id ∈ used)).getD (h.nextTxn % 2 ^ 32)

/-- A tag taken. -/
def Hw.takeTag (h : Hw) : Hw := { h with nextTxn := (h.newTag + 1) % 2 ^ 32 }

/-- A new transaction, outstanding from now on; its tag is unique (R167). -/
def Hw.addTxn (h : Hw) (t : Txn) : Hw := { h.takeTag with txns := h.txns ++ [{ t with id := h.newTag }] }

/-- A transaction with nothing set but who asked, what, where and when. -/
def Hw.newTxn (h : Hw) (src : Source) (kind : ReqKind) (cls : Option RClass) (slice : Nat) (addr : BitVec 46) (lines : Nat) : Txn :=
  { id := h.newTag, src := src, tag := 0, kind := kind, cls := cls, slice := slice, region := 0, gen := 0, addr := addr,
    lines := lines, atype := 0, deadline := none, grantTime := h.clk.now, stage := .queued, data := [], epoch := 0, emin := 0,
    family := 0, keyed := false, again := none, fill := 0, verified := h.verified, cover := h.cfe.covers.get 0 slice, port := none, pgen := 0, reissues := 0,
    status := .ok, answer := [], checks := [], checked := false, sentAt := 0, arg := 0, slot := none }

/-- FENCE_REMOTE of this block (R169): fence, value, state and status. -/
def Hw.fenceRemoteMsg (h : Hw) (member fence : Nat) (value : BitVec 64) (err : Option CC) (txn : Nat) : Message :=
  h.controlMsg .fenceRemote (some member) 0 txn
    (inlineOf [(0, fence), (8, value.toNat), (16, match err with | some _ => 1 | none => 0), (17, match err with | some c => c.num | none => 0)])

end Sys2Proof.Machine
end

