-- ==== Sys2Proof/Machine/DevMem.lean ====
section
/-! DEFINITION. The Device Memory Ports and the Block Translation Table: the walk, its cache, the checks of an access, and what
leaves on the ports (R62, R290 to R294, R308). -/

namespace Sys2Proof.Machine

/-- QRING.Qn_CTL.slice. -/
def Hw.queueSlice (h : Hw) (n : Nat) : Nat := h.regF (Reg.QRING_Qn_CTL n) 16 10

/-- A 64 KiB aligned base of two registers: bits [31:16] and [51:32]. -/
def Hw.base52 (h : Hw) (lo hi : Nat) : Nat := h.regF lo 16 16 * 65536 + h.regF hi 0 20 * 2 ^ 32

/-- The first identifier from `k` on that no outstanding transaction has; `fuel` are tried. -/
def freeId (used : List Nat) : Nat → Nat → Nat
  | 0, k => k
  | fuel + 1, k => if k ∈ used then freeId used fuel ((k + 1) % 256) else k

/-- DM_ID of the next transaction (R62). DESIGN CHOICE (log entry 24). -/
def Hw.dmId (h : Hw) : Nat := freeId (h.dmp.open_.map (·.id)) 256 (h.dmp.nextId % 256)

/-- Device Memory Port of a transaction: under DETERMINISTIC, DMP3 carries those of slot operations and nothing else (R308), and a
counter snapshot leaves on DMP0 to DMP2 (R445). DESIGN CHOICE for the rest (log entry 24). -/
def Hw.dmPort (h : Hw) (use : DmUse) (id : Nat) : Nat :=
  match use with
  | .slot _ => if h.deterministic then 3 else id % 4
  | .snapshot => id % 3
  | _ => if h.deterministic then id % 3 else id % 4

/-- A transaction driven on a Device Memory Port at a physical address (R62). -/
def Hw.dmDrive (h : Hw) (use : DmUse) (page : Option Nat) (addr bytes : Nat) (data : Option (List Byte)) : Hw :=
  let id := h.dmId
  let t : DmTxn := { id := id, port := h.dmPort use id, write := data.isSome, addr := addr, use := use, page := page, fault := false, stale := false }
  let h : Hw := { h with dmp.open_ := h.dmp.open_ ++ [t], dmp.nextId := id + 1 }
  match data with
  | some d => h.emit (.dmWrite id addr d)
  | none => h.emit (.dmRead id addr bytes)

/-- A level-1 entry that is valid: bit 0 set and no reserved bit (R291). -/
def l1Valid (e : BitVec 64) : Bool := e.getLsbD 0 && bits e.toNat 1 15 == 0 && bits e.toNat 52 12 == 0

/-- A level-2 entry that is valid (R291). -/
def l2Valid (e : BitVec 64) : Bool := e.getLsbD 0 && bits e.toNat 2 14 == 0

/-- Physical address of the level-1 entry of a page: CFE.BTT_BASE, indexed by block address [41:29] (R290). -/
def Hw.l1Addr (h : Hw) (page : Nat) : Nat := h.base52 Reg.CFE_BTT_BASE_LO Reg.CFE_BTT_BASE_HI + 8 * bits page 13 13

/-- Physical address of the level-2 entry of a page: the table that the level-1 entry names, indexed by block address [28:16] (R290). -/
def l2Addr (l1 : BitVec 64) (page : Nat) : Nat := bits l1.toNat 16 36 * 65536 + 8 * bits page 0 13

/-- Block address [41:16]. -/
def pageNo (addr : Nat) : Nat := bits addr 16 26

/-- The cached level-2 entry of a page (R293). -/
def Hw.bttCached (h : Hw) (page : Nat) : Option (BitVec 64) := (h.cfe.btt.find? fun p => p.1 == page).map (·.2)

/-- A level-2 entry cached; the one cached first of 1,024 leaves (R293). DESIGN CHOICE (log entry 24). -/
def Hw.bttCache (h : Hw) (page : Nat) (e : BitVec 64) : Hw :=
  { h with cfe.btt := ((page, e) :: h.cfe.btt.filter fun p => p.1 != page).take 1024 }

/-- Fault kind of an access to a page that is mapped (R292); `slice` is the queue's, none for the block's own accesses. -/
def pageKind (slice : Option Nat) (e : BitVec 64) (write : Bool) : Option Nat :=
  match slice with
  | some s =>
    if e.getLsbD 63 then some 2
    else if !e.getLsbD 62 && bits e.toNat 52 10 != s then some 2
    else if write && !e.getLsbD 1 then some 1 else none
  | none => if write && !e.getLsbD 1 then some 1 else none

/-- Physical address of a block address by the entry of its page (R290, R291). -/
def physOf (e : BitVec 64) (addr : Nat) : Nat := bits e.toNat 16 36 * 65536 + addr % 65536

/-- A translation fault recorded and raised (R294): of a queue's access, or of one of the block's own to a table. DESIGN CHOICE for
an access that is neither (log entry 24). -/
def Hw.bttFault (h : Hw) (queue : Option Nat) (table kind addr : Nat) : Hw :=
  let h := h.setReg Reg.CFE_BTT_FAULT_ADDR (BitVec.ofNat 32 (bits addr 16 26))
  let h := h.setReg Reg.CFE_BTT_FAULT_INFO (BitVec.ofNat 32 (queue.getD 0 + 256 * table + 4096 * kind + 2 ^ 31))
  h.raise 249 (detailWord (queue.map h.queueSlice) queue 0 0)
    (h.reg Reg.CFE_BTT_FAULT_INFO).toNat (h.reg Reg.CFE_BTT_FAULT_ADDR).toNat 0

/-! ### Accesses whose entries a command brings -/

/-- The level-2 entry of a page, from the cache or by a walk, whose two reads leave on the ports and return what device memory holds
there; a miss is counted, and an entry found is cached (R290, R293). -/
def Hw.bttLookup (h : Hw) (page : Nat) (walk : BttWalk) : Hw × Option (BitVec 64) :=
  match h.bttCached page with
  | some e => (h, some e)
  | none =>
    let h := h.incReg Reg.CFE_BTT_MISS_CNT
    let a := h.l1Addr page
    let l1 := Tbl.get walk 0 a
    let h := h.emit (.dmRead h.dmId a 8)
    if !l1Valid l1 then (h, none)
    else
      let b := l2Addr l1 page
      let l2 := Tbl.get walk 0 b
      let h := h.emit (.dmRead h.dmId b 8)
      if l2Valid l2 then (h.bttCache page l2, some l2) else (h, none)

/-- Fault kind of an access through the BTT, the first case that applies (R292); `slice` is the queue's, none
for the block's own tables. -/
def Hw.bttCheck (h : Hw) (slice : Option Nat) (addr : Nat) (write : Bool) (walk : BttWalk) : Hw × Option Nat :=
  if bits addr 42 10 ≠ 0 then (h, some 3)
  else match h.bttLookup (pageNo addr) walk with
    | (h, none) => (h, some 0)
    | (h, some e) => (h, pageKind slice e write)

/-- A range of block addresses cut at page ends: address and bytes of each piece. -/
def pagePieces (addr bytes : Nat) : List (Nat × Nat) :=
  if bytes = 0 then []
  else (List.range ((addr + bytes - 1) / 65536 + 1 - addr / 65536)).map fun k =>
    let a := if k = 0 then addr else (addr / 65536 + k) * 65536
    (a, min (addr + bytes) ((addr / 65536 + k + 1) * 65536) - a)

/-- The first page of a range of block addresses that faults, with its kind (R292). -/
def Hw.bttRange (h : Hw) (slice : Option Nat) (addr bytes : Nat) (write : Bool) (walk : BttWalk) : Hw × Option (Nat × Nat) :=
  (pagePieces addr bytes).foldl (fun acc p =>
    match acc with
    | (h, some f) => (h, some f)
    | (h, none) =>
      match h.bttCheck slice p.1 write walk with
      | (h, some kind) => (h, some (p.1, kind))
      | (h, none) => (h, none)) (h, none)

/-! ### Accesses that wait for their entries -/

/-- An access that is not driven: its transaction ends as one that completes with an error flag (R62, R294). -/
def Hw.dmUndriven (h : Hw) (a : DmAccess) : Hw :=
  let id := h.dmId
  let t : DmTxn := { id := id, port := h.dmPort a.use id, write := a.data.isSome, addr := a.addr, use := a.use, page := none, fault := true, stale := false }
  { h with dmp.open_ := h.dmp.open_ ++ [t], dmp.nextId := id + 1 }

/-- An access that faults in translation: BTT_FAULT (R294), except for a snapshot's (R445). -/
def Hw.dmFaulted (h : Hw) (a : DmAccess) (kind : Nat) : Hw :=
  (if a.use = .snapshot then h else h.bttFault a.queue a.table kind a.addr).dmUndriven a

/-- An access whose page's entry is at hand: driven, or faulted (R292). -/
def Hw.dmGo (h : Hw) (a : DmAccess) (e : BitVec 64) : Hw :=
  match pageKind (a.queue.map h.queueSlice) e a.data.isSome with
  | some kind => h.dmFaulted a kind
  | none => h.dmDrive a.use (some (pageNo a.addr)) (physOf e a.addr) a.bytes a.data

/-- A read of a walk leaves: the level-1 entry, or the level-2 entry where `l1` is given (R293). -/
def Hw.walkRead (h : Hw) (page : Nat) (l1 : Option (BitVec 64)) : Hw :=
  let id := h.dmId
  let a := match l1 with | some e => l2Addr e page | none => h.l1Addr page
  { h.dmDrive .btt (some page) a 8 none with
    dmp.walks := (h.dmp.walks.filter fun r => r.page != page) ++ [({ page := page, id := id, l1 := l1 } : BttRead)] }

/-- An access within one page: it is driven, faults, or waits for the walk of its page (R292, R293). -/
def Hw.dmAsk (h : Hw) (a : DmAccess) : Hw :=
  if bits a.addr 42 10 ≠ 0 then h.dmFaulted a 3
  else match h.bttCached (pageNo a.addr) with
    | some e => h.dmGo a e
    | none =>
      let h : Hw := { h with dmp.waiting := h.dmp.waiting ++ [a] }
      if h.dmp.walks.any fun r => r.page == pageNo a.addr then h else (h.incReg Reg.CFE_BTT_MISS_CNT).walkRead (pageNo a.addr) none

/-- A write of device memory by block address, page by page (R62, R290). -/
def Hw.dmWrite (h : Hw) (use : DmUse) (queue : Option Nat) (table addr : Nat) (data : List Byte) : Hw :=
  (pagePieces addr data.length).foldl (fun h p => h.dmAsk ⟨use, queue, table, p.1, p.2, some ((data.drop (p.1 - addr)).take p.2)⟩) h

/-- A read of device memory by block address, page by page (R62, R290). -/
def Hw.dmRead (h : Hw) (use : DmUse) (queue : Option Nat) (table addr bytes : Nat) : Hw :=
  (pagePieces addr bytes).foldl (fun h p => h.dmAsk ⟨use, queue, table, p.1, p.2, none⟩) h

/-- The accesses that wait for a page go on, each by `f` (R293). -/
def Hw.dmRelease (h : Hw) (page : Nat) (f : Hw → DmAccess → Hw) : Hw :=
  let mine := h.dmp.waiting.filter fun a => pageNo a.addr == page
  mine.foldl f { h with
    dmp.waiting := h.dmp.waiting.filter fun a => pageNo a.addr != page
    dmp.walks := h.dmp.walks.filter fun r => r.page != page }

/-- A read of a walk has returned its entry (R291, R293): the walk goes on, and with the level-2 entry, or one that is not valid,
the accesses that wait for it. One that was invalidated meanwhile is walked again. -/
def Hw.walkReturn (h : Hw) (r : BttRead) (stale : Bool) (entry : BitVec 64) : Hw :=
  if stale then h.walkRead r.page none
  else match r.l1 with
    | none => if l1Valid entry then h.walkRead r.page (some entry) else h.dmRelease r.page fun h a => h.dmFaulted a 0
    | some _ =>
      if l2Valid entry then (h.bttCache r.page entry).dmRelease r.page fun h a => h.dmGo a entry
      else h.dmRelease r.page fun h a => h.dmFaulted a 0

/-- A read of a walk has failed: the accesses that wait for it end as ones with an error flag do (R62). -/
def Hw.walkFail (h : Hw) (r : BttRead) : Hw :=
  h.dmRelease r.page fun h a => h.dmUndriven a

/-- A transaction is no longer outstanding. -/
def Hw.dmEnd (h : Hw) (use : DmUse) : Hw := { h with dmp.open_ := h.dmp.open_.eraseP fun t => t.use == use }

/-- A transaction of a use that is outstanding. -/
def Hw.dmOpen (h : Hw) (use : DmUse) : Option DmTxn := h.dmp.open_.find? fun t => t.use == use

/-- The transaction of a use ends with the read or write that it was for: true where it has failed, which raises DMP_ERROR unless it
has faulted in translation (R62, R294, R475). -/
def Hw.dmClose (h : Hw) (t : DmTxn) (err : Bool) : Hw × Bool :=
  let h := h.dmEnd t.use
  if t.fault then (h, true) else if err then (h.raise 200 (detailWord none none t.port 0) 0 0 0, true) else (h, false)

/-- Little-endian bytes of a number. -/
def leBytes (n count : Nat) : List Byte := (List.range count).map fun k => BitVec.ofNat 8 (n / 2 ^ (8 * k))

/-- BTT_INV: invalidates the BTT cache entries of a range of pages, or all; busy reads 1 until no access
translated through them remains (R293). -/
def Hw.bttInvalidate (h : Hw) (value : Word) : Hw :=
  let page := fld value 0 26
  let len := max (h.regF Reg.CFE_BTT_INV_LEN 0 26) 1
  let hit := fun (p : Nat) => bit value 31 || (decide (page ≤ p) && decide (p < page + len))
  { h with
    cfe.btt := h.cfe.btt.filter fun p => !hit p.1
    cfe.bttInv := true
    dmp.open_ := h.dmp.open_.map fun t => match t.page with | some p => if hit p then { t with stale := true } else t | none => t }

/-- BTT_INV_DONE: no access through an invalidated entry remains, and busy clears (R293). -/
def Hw.bttInvDone (h : Hw) : Hw :=
  if h.cfe.bttInv && !(h.dmp.open_.any fun t => t.stale && t.use != .btt) then ({ h with cfe.bttInv := false } : Hw).setIrq 0x0D 2 else h

end Sys2Proof.Machine
end

