-- ==== Sys2Proof/Machine/Export.lean ====
section
/-! DEFINITION. The export of counter snapshots (R445). -/

namespace Sys2Proof.Machine

/-- Slots of the export area, log2 (R445). -/
def Hw.exportLog2 (h : Hw) : Nat := min (h.regF Reg.CNT_EXP_CTL 8 4) 8

/-- The slot that the next snapshot goes to. -/
def Hw.exportSlot (h : Hw) : Nat := (h.reg Reg.CNT_EXP_SEQ).toNat % 2 ^ h.exportLog2

/-- Block address of that slot. -/
def Hw.exportAddr (h : Hw) : Nat :=
  (h.reg Reg.CNT_EXP_BASE_LO).toNat + 2 ^ 32 * h.regF Reg.CNT_EXP_BASE_HI 0 10 + 4096 * h.exportSlot

/-- The first line of a snapshot (R445). -/
def Hw.exportHead (h : Hw) : List Byte :=
  leBytes (h.reg Reg.CNT_EXP_SEQ).toNat 8 ++ leBytes h.cnt.latched 8 ++ leBytes (h.reg Reg.SCU_RESET_GEN).toNat 4 ++ leBytes 1 4 ++
    List.replicate 40 0

/-- The counters of a snapshot, 8 bytes each (R445). -/
def Hw.exportBody (h : Hw) : List Byte := (List.range 256).flatMap fun c => leBytes (h.cnt.snap.get 0 c) 8

/-- A translation fault on the export area stops the export (R445). -/
def Hw.exportFault (h : Hw) : Hw :=
  ((({ h with cnt := { h.cnt with exporting := 0 } } : Hw).setF Reg.CNT_EXP_STAT 1 1 1)).setIrq 0x1F 0

/-- What a snapshot has to write leaves on the ports, its counters and then its first line: under DETERMINISTIC in a quiet window only
(R311, R445). -/
def Hw.exportGo (h : Hw) : Hw :=
  if !h.backgroundNow then h
  else if h.cnt.exporting = 1 then
    ({ h with cnt := { h.cnt with exporting := 2 } } : Hw).dmWrite .snapshot none 0 (h.exportAddr + 64) h.exportBody
  else if h.cnt.exporting = 3 then
    ({ h with cnt := { h.cnt with exporting := 4 } } : Hw).dmWrite .snapshot none 0 h.exportAddr h.exportHead
  else h

/-- A snapshot is latched, and its writes begin (R445). -/
def Hw.exportStart (h : Hw) : Hw :=
  ({ h with cnt := { h.cnt with exporting := 1, latched := h.clk.now, snap := h.cnt.live } } : Hw).exportGo

/-- A write of a snapshot has ended: its first line is written last, and then the snapshot is exported (R445). -/
def Hw.exportNext (h : Hw) : Hw :=
  if h.cnt.exporting = 2 then ({ h with cnt := { h.cnt with exporting := 3 } } : Hw).exportGo
  else if h.cnt.exporting = 4 then
    ({ h with cnt := { h.cnt with exporting := 0 } } : Hw).setReg Reg.CNT_EXP_SEQ (h.reg Reg.CNT_EXP_SEQ + 1)
  else h

end Sys2Proof.Machine
end

