-- ==== Sys2Proof/Machine/Slots.lean ====
section
/-! DEFINITION. Key slots of the Cistern, the key buses, and the key registers that they load (R245, R249, R361 to R365). -/

namespace Sys2Proof.Machine

/-- A slot. -/
def Hw.slot (h : Hw) (k : Nat) : Slot := h.cis.slots.get Slot.free k

/-- A slot replaced. -/
def Hw.setSlot (h : Hw) (k : Nat) (s : Slot) : Hw := { h with cis.slots := h.cis.slots.put Slot.free k s }

/-- The slot is LIVE. -/
def Slot.live (s : Slot) : Bool := s.st == 1

/-- The key that two shares hold (R362). -/
def Slot.key (s : Slot) : BitVec 256 := s.share0 ^^^ s.share1

/-- SLOT_META (R361). -/
def Slot.metaWord (s : Slot) : Word :=
  BitVec.ofNat 32 (s.st + 4 * s.kind + 64 * s.origin + 256 * b2n s.system + 512 * s.owner + 524288 * s.usage)

/-- SLOT_META_HI (R361). -/
def Slot.metaHi (s : Slot) : Word := BitVec.ofNat 32 (s.family + 65536 * s.epoch)

/-- A key placed in a slot as two fresh shares (R362). -/
def Hw.placeKey (h : Hw) (k : Nat) (s : Slot) (key : BitVec 256) : Hw :=
  let mask := h.freeVal 256
  h.tookFree.setSlot k { s with st := 1, share0 := mask, share1 := mask ^^^ key }

/-- A cluster's kept state. -/
def Hw.clu (h : Hw) (n : Nat) : Clu := h.clus.get Clu.fresh n

/-- A cluster's kept state replaced. -/
def Hw.setClu (h : Hw) (n : Nat) (c : Clu) : Hw := { h with clus := h.clus.put Clu.fresh n c }

/-- The other cluster of a pair (R245). -/
def partner (n : Nat) : Nat := if n % 2 = 0 then n + 1 else n - 1

/-- CLU.STAT.state: 0 IN_SERVICE, 1 REPAIRING, 2 MANUAL_OUT, 3 HELD, 4 FAILED. -/
def Hw.cluState (h : Hw) (n : Nat) : Nat := h.regF (Reg.CLU_STAT n) 0 3

/-- CLU.STAT.phase: 0 ZEROISE, 1 KAT, 2 RELOAD, 3 READMIT. -/
def Hw.cluPhase (h : Hw) (n : Nat) : Nat := h.regF (Reg.CLU_STAT n) 4 2

/-- The cluster is in a phase of a repair (R253). -/
def Hw.cluIn (h : Hw) (n phase : Nat) : Bool := h.cluState n == 1 && h.cluPhase n == phase

/-- The cluster takes key-bus writes: it is not in ZEROISE or KAT, nor out without keys (R249, R258). -/
def Hw.cluLoads (h : Hw) (n : Nat) : Bool := !(h.cluIn n 0 || h.cluIn n 1 || h.cluState n == 2)

/-- A key-bus write of the two shares of a key, to every cluster that `dest` names and that takes it (R249, R364). -/
def Hw.keyBus (h : Hw) (dest : Nat → Bool) (reg : Nat) (shares : BitVec 256 × BitVec 256) : Hw :=
  ((List.range 16).filter fun n => dest n && h.cluLoads n).foldl (fun h n =>
    h.setClu n { h.clu n with keys := (h.clu n).keys.put (0, 0) reg shares }) h

/-- A key placed in a slot and written to clusters over the key bus, as both clusters of a pair take it (R249, R362). -/
def Hw.placeBusKey (h : Hw) (dest : Nat → Bool) (k : Nat) (s : Slot) (key : BitVec 256) : Hw :=
  let h := h.placeKey k s key
  h.keyBus dest (4 * k) ((h.slot k).share0, (h.slot k).share1)

/-- The key of a cluster's key register, whose shares meet only here (R249). -/
def Hw.cluKey (h : Hw) (n reg : Nat) : BitVec 256 :=
  let s := (h.clu n).keys.get (0, 0) reg
  s.1 ^^^ s.2

/-- The cluster that serves a Link Port: its own, or the partner while that one serves both (R245, R252). -/
def Hw.serving (h : Hw) (p : Nat) : Nat := if h.regBit (Reg.CLU_STAT (partner p)) 8 then partner p else p

/-- The copies of a slot's key in key registers in clusters and in the BRU erased (R365). -/
def Hw.eraseCopies (h : Hw) (k : Nat) : Hw :=
  let h := (h.clus.map (·.1)).foldl (fun h n => h.setClu n { h.clu n with keys := (h.clu n).keys.filter fun r => r.1 / 4 != k }) h
  let wipe := fun (s : Coll) => if s.slot = some k then { s with key := 0, slot := none } else s
  { h with bru.ctxs := h.bru.ctxs.map fun c => { c with first := wipe c.first, second := c.second.map wipe } }

/-- A slot erased: both shares zero and FREE, with every key-register copy; an erasure of a slot that is not FREE is counted (R365). -/
def Hw.eraseSlot (h : Hw) (k : Nat) : Hw :=
  if h.slot k = Slot.free then h else ((h.setSlot k Slot.free).eraseCopies k).incReg Reg.CISTERN_ERASE_CNT

/-- Slots erased. -/
def Hw.eraseSlots (h : Hw) (ks : List Nat) : Hw := ks.foldl (fun h k => h.eraseSlot k) h

end Sys2Proof.Machine
end

