-- ==== Sys2Proof/Machine/Queue.lean ====
section
/-! DEFINITION. Shared operations over queues, buffers and operations: completion of an operation, a queue
that becomes guilty, the abort of its buffer, and the release of a context (R260 to R289). -/

namespace Sys2Proof.Machine

/-- Guilty causes (R284). -/
inductive Guilt where
  | badEntry | malformed | strict | ringOverflow | bufLimit | hang | driver | fault
  deriving DecidableEq, Repr

/-- Cause codes (R284). -/
def Guilt.num : Guilt → Nat
  | .badEntry => 1 | .malformed => 2 | .strict => 3 | .ringOverflow => 4 | .bufLimit => 5 | .hang => 6 | .driver => 7 | .fault => 8

/-- CFE detail codes (R272). -/
inductive Detail where
  | none | priv | unbound | notOwned | stopped | skipped | gate | guilty | rng
  deriving DecidableEq, Repr

/-- Numbers of the CFE detail codes (R272). -/
def Detail.num : Detail → Nat
  | .none => 0 | .priv => 1 | .unbound => 2 | .notOwned => 3 | .stopped => 4 | .skipped => 5 | .gate => 6 | .guilty => 7 | .rng => 8

/-- A queue. -/
def Hw.queue (h : Hw) (n : Nat) : Queue := h.cfe.queues.get Queue.off n

/-- A queue replaced. -/
def Hw.setQueue (h : Hw) (n : Nat) (q : Queue) : Hw := { h with cfe.queues := h.cfe.queues.put Queue.off n q }

/-- k of R261: values below 4 are taken as 4 and above 16 as 16. -/
def Hw.ringLog2 (h : Hw) (n : Nat) : Nat := min (max (h.regF (Reg.QRING_Qn_CTL n) 8 4) 4) 16

/-- An operation that has not been issued. -/
def QOp.fresh (bytes : BitVec 256) : QOp :=
  { bytes := bytes, st := .waiting, seq := 0, time := 0, started := false, aborting := false, next := 0, total := 0,
    txns := [], code := .ok, unit := 0, count := 0, mark := 0, waits := [], cover := 0, grants := [], fin := none }

/-- The operation has completed. -/
def QOp.ended (o : QOp) : Bool := match o.st with | .done .. => true | _ => false

/-- The operation is outstanding: issued and not completed (R271). -/
def QOp.outstanding (o : QOp) : Bool := match o.st with | .issued => true | .satisfied .. => true | _ => false

/-- The code an operation completed with. -/
def QOp.doneCode (o : QOp) : Option CC := match o.st with | .done c .. => some c | _ => none

/-- The running buffer's operation `i` of queue `n`. -/
def Hw.op (h : Hw) (n i : Nat) : Option QOp := match (h.queue n).run with | some b => b.ops[i]? | none => none

/-- An operation of a running buffer changed. -/
def Hw.modOp (h : Hw) (n i : Nat) (f : QOp → QOp) : Hw :=
  let q := h.queue n
  match q.run with
  | some b => h.setQueue n { q with run := some { b with ops := b.ops.modify i f } }
  | none => h

/-- Fields of a ring entry (R267): first bit and width. -/
def Buf.field (b : Buf) (lo len : Nat) : Nat := bits b.entry.toNat lo len

/-- stop_on_error of the entry. -/
def Buf.stopOnError (b : Buf) : Bool := b.field 82 1 == 1

/-- A field of a 64-byte descriptor: byte offset, bit offset within it, width (R213, R237). -/
def df (d : Line) (byte lo len : Nat) : Nat := bits d.toNat (8 * byte + lo) len

/-- Granules pinned, once for each slot context (R301). -/
def Hw.repin (h : Hw) : Hw := { h with gkt.pinned := h.sched.ctxs.flatMap SlotCtx.pins }

/-- The stages of a collective context. -/
def Ctx.stages (c : Ctx) : List Coll := c.first :: c.second.toList

/-- Transaction tags of a context's outstanding messages. -/
def Ctx.txns (c : Ctx) : List Nat := c.stages.flatMap fun s => s.msgs.map (·.txn)

/-- What an operation holds of the BRU, of the Shaper and of the slot context table is given back when it completes: K is erased, and
a context with messages outstanding is kept from reuse, unless the collective was aborted (R195, R215, R218, R298). -/
def Hw.dropRun (h : Hw) (n i : Nat) (aborted : Bool) : Hw :=
  let gone := h.bru.ctxs.filter fun c => c.queue == n && c.op == i
  let kept := if aborted then [] else (gone.filter fun c => c.txns != []).map fun c => ({ queue := n, op := i, slice := c.slice, txns := c.txns } : Closing)
  let h := h.eraseSlots (gone.flatMap fun c => c.stages.filterMap (·.slot))
  ({ h with
    bru.closing := h.bru.closing ++ kept
    bru.ctxs := h.bru.ctxs.filter fun c => !(c.queue == n && c.op == i)
    bru.waiting := h.bru.waiting.filter fun w => !(w.1 == n && w.2.1 == i)
    shaper := h.shaper.filter fun r => !(r.queue == n && r.op == i)
    sched.ctxs := h.sched.ctxs.filter fun c => !(c.queue == n && c.op == i)
    sched.waiting := h.sched.waiting.filter fun w => !(w.2.2.1 == n && w.2.2.2 == i) } : Hw).repin

/-- The descriptor that a BLIND_REDUCE has read, and the roles it names (R213). -/
def Hw.blindDesc (h : Hw) (n i : Nat) : Option Line :=
  match h.bru.ctxs.find? fun c => c.queue == n && c.op == i with
  | some c => some c.first.desc
  | none => (h.bru.waiting.find? fun w => w.1 == n && w.2.1 == i).map fun w => w.2.2.1

/-- BRU.LAST_CMD.result of a completion; none where the spec lists no result for it. -/
def blindResult (cc : CC) (detail : Nat) (isCfe : Bool) : Option Nat :=
  match cc with
  | .ok => some 0 | .malformed => some 4 | .aborted => some 5 | .deadTarget => some 6 | .authFail => some 7 | .incomplete => some 8
  | .stateRefused => if !isCfe then some detail else if detail = Detail.gate.num then some 10 else none
  | _ => none

/-- BRU.LAST_CMD and BRU.IRQ_STAT.done when a BLIND_REDUCE completes (R214, R217). -/
def Hw.blindLast (h : Hw) (n i : Nat) (cc : CC) (detail : Nat) (isCfe : Bool) : Hw :=
  match blindResult cc detail isCfe with
  | none => h
  | some r =>
    let d := (h.blindDesc n i).getD 0
    (h.setReg Reg.BRU_LAST_CMD (BitVec.ofNat 32 (r + 16 * df d 12 0 2 + 64 * h.queueSlice n + 65536 * df d 0 0 16))).setIrq 0x0B 0

/-- SHAPE.LAST_CMD.result of a completion (R244). -/
def shapeResult (cc : CC) : Nat :=
  match cc with
  | .ok => 0 | .malformed => 1 | .stateRefused => 2 | .deadTarget => 4 | .authFail => 5 | _ => 3

/-- Participant of the first failure of a DISPATCH or COMBINE (SHAPE.LAST_PEER). -/
def ShapeRun.peer (r : ShapeRun) : Option Nat := r.parts.findIdx? fun p => p.failed || p.dead || p.aborted

/-- The dropped count of an issued DISPATCH or COMBINE written, once (R244). -/
def Hw.droppedWrite (h : Hw) (n i : Nat) : Hw :=
  match h.op n i with
  | none => h
  | some o =>
    if (o.opcode = 4 ∨ o.opcode = 5) ∧ o.outstanding = true ∧ o.mark = 0 then
      let k := match h.shaper.find? fun r => r.queue == n && r.op == i with | some r => r.dropped | none => 0
      (h.modOp n i fun o => { o with mark := 1 }).dmWrite (.op n i) (some n) 0 (o.field 8 0 52 + 44) (leBytes k 4)
    else h

/-- What a DISPATCH or COMBINE leaves when it completes: LAST_CMD, LAST_PEER and the counts (R244). -/
def Hw.shapeLast (h : Hw) (n i : Nat) (opcode : Nat) (cc : CC) : Hw :=
  let run := h.shaper.find? fun r => r.queue == n && r.op == i
  let mode := match run with | some r => df r.desc 1 0 2 | none => 0
  let h := h.setReg Reg.SHAPE_LAST_CMD (BitVec.ofNat 32 ((opcode - 4) + 2 * mode + 16 * shapeResult cc + 256 * h.queueSlice n + 2 ^ 31))
  let h := (h.incReg (if opcode = 4 then Reg.SHAPE_DISPATCH_CNT else Reg.SHAPE_COMBINE_CNT)).setIrq 0x0C 0
  let h := if cc = .ok then h else h.setIrq 0x0C 2
  match run with
  | none => h
  | some r =>
    let h := if 0 < r.dropped then (h.addReg Reg.SHAPE_ROWS_DROP r.dropped).setIrq 0x0C 1 else h
    match r.peer with
    | some p => h.setReg Reg.SHAPE_LAST_PEER (BitVec.ofNat 32 (p + 65536 * r.members.getD p 0))
    | none => h

/-- Severity order of the codes with which a transfer operation completes (R131, R186): the lower number applies first. -/
def CC.rank : CC → Nat
  | .malformed => 0 | .stateRefused => 1 | .aborted => 2 | .deadTarget => 3 | .authFail => 4 | _ => 9

/-- The code that applies of two. -/
def CC.worse (a b : CC) : CC := if b.rank < a.rank then b else a

/-- COPY_AUTH_FAIL of a SEAL_COPY, raised once, with its first failed line and its failed lines (R130). -/
def Hw.copyFail (h : Hw) (n : Nat) (o : QOp) : Hw :=
  let a := o.mark - 1
  let s := h.queueSlice n
  let c := min o.count 15
  let h := (h.incReg Reg.SEAL_COPY_FAIL_CNT).setReg Reg.SEAL_LAST_ALARM (BitVec.ofNat 32 (8 + 16384 * s + 16777216 * c + 2 * 2 ^ 28 + 2 ^ 31))
  let h := (h.setReg Reg.SEAL_LAST_ADDR_LO (BitVec.ofNat 32 (a / 64 * 64 % 2 ^ 32))).setReg Reg.SEAL_LAST_ADDR_HI (BitVec.ofNat 32 (a / 2 ^ 32))
  h.raise 220 (detailWord (some s) (some n) 0 0) (a % 2 ^ 32) (a / 2 ^ 32) c

/-- What the completion of any REGION_OP does to the Gate's negative results (R97, R102). -/
def Hw.negativesClear (h : Hw) : Hw := { h with gate.negatives := [], gate.era := h.gate.era + 1 }

/-- What the unit of an operation records when it completes, and gives back. -/
def Hw.unitDone (h : Hw) (n i : Nat) (o : QOp) (cc : CC) (detail : Nat) (isCfe : Bool) : Hw :=
  if o.opcode = 1 ∧ o.mark ≠ 0 then h.copyFail n o
  else if o.opcode = 3 then (h.blindLast n i cc detail isCfe).dropRun n i (cc == .aborted)
  else if o.opcode = 4 ∨ o.opcode = 5 then (h.shapeLast n i o.opcode cc).dropRun n i true
  else if o.opcode = 6 then
    { h with gkt.rounds := h.gkt.rounds.map fun (r : Round) => if r.cmd = some (n, i) then { r with cmd := none } else r }
  else if o.opcode = 7 then { h with pump.aborting := h.pump.aborting.filter fun x => x ≠ (n, i) }
  else if o.opcode = 0x0E then h.negativesClear
  else h

/-- Accesses of device memory by an operation that completes before they end: their outcome no longer bears on it (R62). -/
def Hw.dmOrphan (h : Hw) (n i : Nat) : Hw :=
  let use := fun (u : DmUse) => if u = .op n i ∨ u = .fresh n i then DmUse.dropped n i else u
  { h with
    dmp.open_ := h.dmp.open_.map fun t => { t with use := use t.use }
    dmp.waiting := h.dmp.waiting.map fun a => { a with use := use a.use } }

/-- Transfers that an operation leaves unanswered when it completes: nothing that befalls them bears on it, nor on a later operation in
its place. A FENCE_REMOTE goes on as a message of the block's own, so that it can be sent again (R180, R284). -/
def Hw.txnsLeft (h : Hw) (o : QOp) : Hw :=
  { h with txns := h.txns.map fun t =>
      if t.id ∉ o.txns then t
      else if o.opcode = 8 then
        { t with
          src := .control, region := o.field 6 0 16, addr := BitVec.ofNat 46 (o.field 4 0 12)
          arg := if o.code = .ok then 0 else o.code.num, data := [⟨BitVec.ofNat 512 (o.field 8 0 64), 0⟩] }
      else { t with src := .left } }

/-- An operation's completion recorded, with the counters of R442. -/
def Hw.opDone (h : Hw) (n i : Nat) (cc : CC) (detail : Nat) (isCfe : Bool) (result : Word) : Hw :=
  match h.op n i with
  | none => h
  | some o =>
    if o.ended then h
    else
      let h := (((h.droppedWrite n i).modOp n i fun o => { o with st := .done cc detail isCfe result, txns := [], waits := [] }).incReg Reg.CFE_OPS_CNT).dmOrphan n i
      let h := h.txnsLeft o
      let h := h.unitDone n i o cc detail isCfe
      let h := if o.opcode ≤ 0x0E then h.tally (16 + o.opcode) 1 else h
      h.tally (32 + cc.num) 1

/-- Every operation not yet issued completes ABORTED with detail SKIPPED, and nothing further is issued (R271, R279). -/
def Hw.skipRest (h : Hw) (n : Nat) : Hw :=
  match (h.queue n).run with
  | none => h
  | some b =>
    let h := h.setQueue n { h.queue n with run := some { b with stopped := true } }
    (List.range b.ops.length).foldl (fun h i =>
      match h.op n i with
      | some o => if o.st = .waiting then h.opDone n i .aborted Detail.skipped.num true 0 else h
      | none => h) h

/-- The signal of a FENCE_SIGNAL operation with a status (R276): local, or FENCE_REMOTE to the member. -/
def Hw.signalOf (h : Hw) (n : Nat) (o : QOp) (err : Option CC) : Hw :=
  let f := o.field 4 0 12
  let v := BitVec.ofNat 64 (o.field 8 0 64)
  if o.field 16 0 1 = 1 then h.sendControl (h.fenceRemoteMsg (o.field 6 0 16) f v err 0)
  else if (h.fence f).maySignal (h.queueSlice n) then h.fenceSignal f v err h.memberId else h

/-- Result of a FENCE_WAIT that ends: the fence's value [31:0] (R273, R278). -/
def Hw.waitValue (h : Hw) (o : QOp) : Word := BitVec.ofNat 32 (h.fence (o.field 4 0 12)).value.toNat

/-- What a queue reset does to one operation of its buffer (R285 steps 2 and 3). -/
def Hw.abortOp (h : Hw) (n i : Nat) : Hw :=
  match h.op n i with
  | none => h
  | some o =>
    match o.st with
    | .done .. => h
    | .waiting =>
      let h := if o.opcode = 8 then h.signalOf n o (some .aborted) else h
      h.opDone n i .aborted Detail.skipped.num true 0
    | .satisfied cc result => h.opDone n i cc 0 true result
    | .issued =>
      if o.opcode = 8 ∧ o.started = false then (h.signalOf n o (some .aborted)).opDone n i .aborted Detail.guilty.num true 0
      else if (o.opcode = 0x0D ∨ o.opcode = 0x0E) ∧ o.started then h
      else if o.opcode = 9 then h.opDone n i .aborted Detail.guilty.num true (h.waitValue o)
      else if o.opcode = 6 ∨ (o.txns = [] ∧ o.fin = none) then h.opDone n i .aborted Detail.guilty.num true 0
      else h.modOp n i fun o => { o with aborting := true, code := o.code.worse .aborted }

/-- Every operation of the queue's buffer under R285 steps 2 and 3. -/
def Hw.abortBuffer (h : Hw) (n : Nat) : Hw :=
  match (h.queue n).run with
  | none => h
  | some b => (List.range b.ops.length).foldl (fun h i => h.abortOp n i) h

/-- A queue becomes guilty (R284), and its reset begins (R285). A queue that is being reset already keeps
the cause it has (R474). -/
def Hw.makeGuilty (h : Hw) (n : Nat) (cause : Guilt) (i : Nat) : Hw :=
  let q := h.queue n
  if q.st = .resetting ∨ q.st = .halted ∨ q.st = .off then h
  else
    let count := match q.run with | some b => b.count | none => q.head
    let tag := match q.run with | some b => b.field 384 32 | none => 0
    let h := h.setReg (Reg.QRING_Qn_ERR n) (BitVec.ofNat 32 (cause.num + 16 * (i % 4096) + 65536 * (count % 32768) + 2 ^ 31))
    let h := if n < 32 then h.setF Reg.QRING_GUILTY_LO n 1 1 else h.setF Reg.QRING_GUILTY_HI (n - 32) 1 1
    let h := (h.incReg Reg.CFE_GUILTY_CNT).raise 248 (detailWord (some (h.queueSlice n)) (some n) 0 0) tag count (cause.num + 16 * (i % 4096))
    let q := h.queue n
    let h := h.setQueue n { q with st := .resetting, idleArmed := false, run := q.run.map fun b => { b with guilty := true } }
    h.abortBuffer n

/-- A write of device memory by the operation has not ended (R62). -/
def Hw.opWriting (h : Hw) (n i : Nat) : Bool :=
  let mine := fun (u : DmUse) => u == .op n i || u == .fresh n i
  (h.dmp.open_.any fun t => t.write && mine t.use) || (h.dmp.waiting.any fun a => a.data.isSome && mine a.use)

/-- The operation's unit writes device memory, so that it completes only once those writes have ended (R62). -/
def QOp.writer (o : QOp) : Bool := (decide (1 ≤ o.opcode) && decide (o.opcode ≤ 5)) || o.opcode == 0x0D

/-- An operation completes (R271 to R284): its entry, its counters, and what its code does to its queue. One whose writes of
device memory have not ended, and could still make its code ABORTED, completes when they have (R62). -/
def Hw.opComplete (h : Hw) (n i : Nat) (cc : CC) (detail : Nat) (isCfe : Bool) (result : Word) : Hw :=
  match h.op n i with
  | none => h
  | some o =>
    if o.ended then h
    else
    let h := h.droppedWrite n i
    if o.writer && h.opWriting n i && decide (CC.aborted.rank < cc.rank) then h.modOp n i fun o => { o with fin := some (o.fin.getD (cc, detail, isCfe, result)) }
    else
      let stop := match (h.queue n).run with | some b => b.stopOnError | none => false
      let h := h.opDone n i cc detail isCfe result
      if cc = .malformed then h.makeGuilty n .malformed i
      else if cc = .stateRefused ∧ h.regBit (Reg.QRING_Qn_CTL n) 2 then h.makeGuilty n .strict i
      else if cc ≠ .ok ∧ stop = true then h.skipRest n
      else h

/-- An operation completes with a CFE detail code and no result (R272). -/
def Hw.opEnd (h : Hw) (n i : Nat) (cc : CC) (d : Detail) : Hw := h.opComplete n i cc d.num true 0

/-- An operation completes with the result code of its unit's LAST register (R272). -/
def Hw.opUnitEnd (h : Hw) (n i : Nat) (cc : CC) (result : Nat) : Hw := h.opComplete n i cc result false 0

/-- An operation stops with a code: it presents nothing more, and completes once its transfers have been answered (R62, R131,
R186, R294). -/
def Hw.opStop (h : Hw) (n i : Nat) (cc : CC) : Hw :=
  match h.op n i with
  | none => h
  | some o =>
    if o.txns = [] then h.opEnd n i (o.code.worse cc) .none
    else
      let h := h.modOp n i fun o => { o with total := o.next, code := o.code.worse cc }
      if o.opcode = 3 then
        { h with bru.ctxs := h.bru.ctxs.map fun c => if c.queue = n ∧ c.op = i then { c with st := .draining } else c }
      else h

/-- An operation's access of device memory has failed: it ends ABORTED (R62). -/
def Hw.opDmFail (h : Hw) (n i : Nat) : Hw :=
  match h.op n i with
  | none => h
  | some o =>
    if o.ended then h
    else match o.fin with
      | none => h.opStop n i .aborted
      | some (cc, d, c, r) =>
        let fin := if cc.worse .aborted = cc then (cc, d, c, r) else (.aborted, 0, true, 0)
        let h := h.modOp n i fun o => { o with fin := some fin }
        h.opComplete n i fin.1 fin.2.1 fin.2.2.1 fin.2.2.2

/-- A write of device memory by an operation has ended: with the last of them an outcome that waits for it is the completion (R62). -/
def Hw.opWrote (h : Hw) (n i : Nat) : Hw :=
  match h.op n i with
  | none => h
  | some o => match o.fin with
    | some (cc, d, c, r) => h.opComplete n i cc d c r
    | none => h

/-- A Gate refusal other than RETRY completes the operation that presented the transfer (R275). -/
def Hw.opGateRefused (h : Hw) (n i : Nat) (code : GateCode) : Hw :=
  h.opComplete n i (match code with | .fenced => .aborted | .sliceGone => .aborted | _ => .stateRefused) Detail.gate.num true
    (BitVec.ofNat 32 code.num)

/-- An access to device memory at an address that an operation names: its reads leave on the ports for `use`, and a fault is
recorded, and the operation completes ABORTED (R62, R294). -/
def Hw.accessFor (h : Hw) (use : DmUse) (n i addr bytes : Nat) (write : Bool) (walk : BttWalk) : Hw × Bool :=
  match h.bttRange (some (h.queueSlice n)) addr bytes write walk with
  | (h, some (a, kind)) => ((h.bttFault (some n) 0 kind a).opStop n i .aborted, false)
  | (h, none) => (if write then h else h.dmRead use (some n) 0 addr bytes, true)

/-- An access of an operation to device memory (R62, R294). -/
def Hw.opAccess (h : Hw) (n i addr bytes : Nat) (write : Bool) (walk : BttWalk) : Hw × Bool :=
  h.accessFor (.op n i) n i addr bytes write walk

end Sys2Proof.Machine
end

