-- ==== Sys2Proof/Machine/Cistern.lean ====
section
/-! DEFINITION. Shared operations of the Cistern: slots, erasure, derivation, family keys and the SEAL key-set
cache, the random sources, and KEY_OP (R361 to R376). -/

namespace Sys2Proof.Machine

/-- Bytes of a key, byte 0 the low one. -/
def keyBytes (k : BitVec 256) : List Byte := leBytes k.toNat 32

/-- A number from bytes, byte 0 the low one. -/
def ofBytes (bs : List Byte) : Nat := bs.foldr (fun b acc => acc * 256 + b.toNat) 0

/-- Big-endian bytes of a number. -/
def beBytes (n count : Nat) : List Byte := (leBytes n count).reverse

/-- ASCII bytes of a label. -/
def ascii (s : String) : List Byte := s.toList.map fun c => BitVec.ofNat 8 c.toNat

/-- The SP 800-108 counter-mode KDF with HMAC-SHA-384 (R369): fixed input [i]32, label, 0x00, context, [L]32. -/
def kdf (key : List Byte) (label : String) (context : List Byte) (len : Nat) : List Byte :=
  ((List.range ((len + 383) / 384)).flatMap fun i =>
    beBytes (Config.hmac384 key (beBytes (i + 1) 4 ++ ascii label ++ [0] ++ context ++ beBytes len 4)).toNat 48).take (len / 8)

/-- A 256-bit key from the KDF. -/
def kdfKey (key : List Byte) (label : String) (context : List Byte) : BitVec 256 := BitVec.ofNat 256 (ofBytes (kdf key label context 256))

/-- The open key of a family on this member (R372). -/
def Hw.familySlot (h : Hw) (f : Nat) : Option Nat :=
  (h.cis.slots.find? fun p => p.2.live && decide (2176 ≤ p.1) && p.2.kind == 1 && p.2.usage == 0x41 && p.2.family == f).map (·.1)

/-- A family's retirement floor (R159). -/
def Hw.familyFloor (h : Hw) (f : Nat) : Nat := h.cis.floors.get 0 f

/-- A family that DESTROY retired (R372). -/
def Hw.familyRetired (h : Hw) (f : Nat) : Bool := decide (f ∈ h.cis.retired)

/-- The SEAL key set of a family and epoch is held (R371). -/
def Hw.hasKeySet (h : Hw) (f e : Nat) : Bool := h.cis.sets.any fun s => s.family == f && s.epoch == e

/-- A key set used: it becomes the most recently used (R371). -/
def Hw.useKeySet (h : Hw) (f e : Nat) : Hw :=
  { h with cis.sets := (h.cis.sets.filter fun s => !(s.family == f && s.epoch == e)) ++ (h.cis.sets.filter fun s => s.family == f && s.epoch == e) }

/-- A key set of the family may be derived (R371). -/
def Hw.mayDerive (h : Hw) (f e : Nat) : Bool :=
  (h.familySlot f).isSome && decide (h.familyFloor f ≤ e) && !h.familyRetired f

/-- The 640 bits of the key set (f, E) (R369). -/
def Hw.keySetBytes (h : Hw) (f e : Nat) : List Byte :=
  match h.familySlot f with
  | some k => kdf (keyBytes (h.slot k).key) "SIRVIS SEAL" (beBytes e 2) 640
  | none => []

/-- K1, K2 and H of a family and epoch, as the SCU derives them (R106, R369). -/
def Hw.derivedKeys (h : Hw) (f e : Nat) : BitVec 256 × BitVec 256 × BitVec 128 :=
  let b := h.keySetBytes f e
  (BitVec.ofNat 256 (ofBytes (b.take 32)), BitVec.ofNat 256 (ofBytes ((b.drop 32).take 32)), BitVec.ofNat 128 (ofBytes (b.drop 64)))

/-- A key set dropped from the cache and its slots erased. -/
def Hw.dropSets (h : Hw) (p : KeySet → Bool) : Hw :=
  let gone := h.cis.sets.filter p
  let h := { h with cis.sets := h.cis.sets.filter fun s => !p s }
  gone.foldl (fun h s => h.eraseSlots [128 + 4 * s.pos, 129 + 4 * s.pos, 130 + 4 * s.pos, 131 + 4 * s.pos]) h

/-- A key set placed at a position of the cache (R371). -/
def Hw.placeSet (h : Hw) (f e pos : Nat) : Hw :=
  let (k1, k2, hk) := h.derivedKeys f e
  let part : Slot := { Slot.free with kind := 3, origin := 2, system := true, usage := 1, family := f, epoch := e }
  let all := fun (_ : Nat) => true
  let h := (h.placeBusKey all (128 + 4 * pos) part k1).placeBusKey all (129 + 4 * pos) part k2
  let h := (h.placeBusKey all (130 + 4 * pos) part (hk.setWidth 256)).placeKey (131 + 4 * pos) part 0
  { h with cis.sets := h.cis.sets ++ [⟨f, e, pos⟩] }

/-- The registers that hold K1, K2 and H of a set: those of its three slots, or of its transient slot (R249, R371). -/
def Hw.setRegs (h : Hw) (f e : Nat) : Option (Nat × Nat × Nat) :=
  match h.cis.sets.find? fun s => s.family == f && s.epoch == e with
  | some s => some (4 * (128 + 4 * s.pos), 4 * (129 + 4 * s.pos), 4 * (130 + 4 * s.pos))
  | none => (h.cis.transient.find? fun t => t.family == f && t.epoch == e).map fun t => (4 * t.slot, 4 * t.slot + 1, 4 * t.slot + 2)

/-- K1, K2 and H as the key registers of cluster `n` hold them; none where no such set is held (R106, R249). -/
def Hw.sealKeys (h : Hw) (n f e : Nat) : Option (BitVec 256 × BitVec 256 × BitVec 128) :=
  (h.setRegs f e).map fun r => (h.cluKey n r.1, h.cluKey n r.2.1, (h.cluKey n r.2.2).setWidth 128)

/-- A position of the cache that is free. -/
def Hw.freeSetPos (h : Hw) : Option Nat := (List.range 512).find? fun p => !(h.cis.sets.any fun s => s.pos == p)

/-- A free transient slot (R366). -/
def Hw.freeTransient (h : Hw) : Option Nat := ((List.range 32).map (· + 96)).find? fun k => !(h.slot k).live

/-- A missing key set derived (R371): into a free position, over the least recently used set that is not
pinned, or into a transient slot for `txn` alone. -/
def Hw.deriveSet (h : Hw) (pinned : Nat → Nat → Bool) (f e txn : Nat) : Hw :=
  if h.hasKeySet f e || !h.mayDerive f e then h
  else match h.freeSetPos with
    | some p => h.placeSet f e p
    | none =>
      match h.cis.sets.find? fun s => !pinned s.family s.epoch with
      | some old => (h.dropSets fun s => s == old).placeSet f e old.pos
      | none =>
        match h.freeTransient with
        | some k =>
          let (k1, k2, hk) := h.derivedKeys f e
          let all := fun (_ : Nat) => true
          let h := h.placeBusKey all k { Slot.free with kind := 3, origin := 2, system := true, usage := 1, family := f, epoch := e } k1
          let h := (h.keyBus all (4 * k + 1) (h.freeVal 256, h.freeVal 256 ^^^ k2)).tookFree
          let h := (h.keyBus all (4 * k + 2) (h.freeVal 256, h.freeVal 256 ^^^ hk.setWidth 256)).tookFree
          { h with cis.transient := h.cis.transient ++ [⟨f, e, k, txn⟩] }
        | none => h

/-- A transient key set erased when its request completes (R371). -/
def Hw.endTransient (h : Hw) (txn : Nat) : Hw :=
  let gone := h.cis.transient.filter fun t => t.txn == txn
  let h := { h with cis.transient := h.cis.transient.filter fun t => t.txn != txn }
  h.eraseSlots (gone.map (·.slot))

/-- Key sets of transient slots dropped, and their slots erased (R159, R372). -/
def Hw.dropTransient (h : Hw) (p : TransientSet → Bool) : Hw :=
  let gone := h.cis.transient.filter p
  ({ h with cis.transient := h.cis.transient.filter fun t => !p t } : Hw).eraseSlots (gone.map (·.slot))

/-- A family key erased with every key set of its family (R365, R372). -/
def Hw.eraseFamily (h : Hw) (f : Nat) : Hw :=
  let h := match h.familySlot f with | some k => h.eraseSlot k | none => h
  (h.dropSets fun s => s.family == f).dropTransient fun t => t.family == f

/-- A free slice slot, 2,176 to 8,191 (R366). -/
def Hw.freeSliceSlot (h : Hw) : Option Nat := ((List.range 6016).map (· + 2176)).find? fun k => !(h.slot k).live

/-- LIVE slots. -/
def Hw.liveSlots (h : Hw) : Nat := (h.cis.slots.filter fun p => p.2.live).length

/-- FREE slice slots. -/
def Hw.sliceFree (h : Hw) : Nat := 6016 - (h.cis.slots.filter fun p => p.2.live && decide (2176 ≤ p.1)).length

/-- The slot belongs to a slice (R361). -/
def Hw.ownsSlot (h : Hw) (s k : Nat) : Bool := (h.slot k).live && !(h.slot k).system && (h.slot k).owner == s

/-- What a leave erases (R370): DMS, the class keys, family keys, the key-set cache, link session keys and transient slots. -/
def Hw.eraseDomainKeys (h : Hw) : Hw :=
  let h := h.dropSets fun _ => true
  let doomed := (h.cis.slots.filter fun p => (decide (10 ≤ p.1) && decide (p.1 ≤ 127)) || decide (2176 ≤ p.1)).map (·.1)
  let h := h.eraseSlots doomed
  { h with cis.transient := [], cis.floors := [], cis.retired := [] }

/-- Every slot erased (R45, R381, R382, R471). -/
def Hw.wipeCistern (h : Hw) : Hw :=
  let h := h.eraseSlots (h.cis.slots.map (·.1))
  ({ h with cis.sets := [], cis.transient := [] }).setF Reg.CISTERN_STAT 31 1 1

/-- DRBG output is ready: the source is instantiated and no reseed waits (R374). -/
def Hw.drbgReady (h : Hw) : Bool := h.regBit Reg.CISTERN_DRBG_STAT 0 && !h.regBit Reg.CISTERN_DRBG_STAT 1

/-- A generate call of the DRBG counted (R374). -/
def Hw.drbgCall (h : Hw) : Hw := ({ h with cis.calls := h.cis.calls + 1 }).tookFree

/-- CISTERN.LAST_OP written and CISTERN.IRQ_STAT.op set when a KEY_OP completes. -/
def Hw.keyOpLast (h : Hw) (subop result slice : Nat) : Hw :=
  (h.setReg Reg.CISTERN_LAST_OP (BitVec.ofNat 32 (subop + 256 * result + 4096 * slice + 2 ^ 31))).setIrq 0x16 1

/-- A KEY_OP completes: OK with a result word, or STATE_REFUSED with its result in the status detail (R375). -/
def Hw.keyOpEnd (h : Hw) (n i subop result : Nat) (word : Nat) : Hw :=
  let h := h.keyOpLast subop result (h.queueSlice n)
  h.opComplete n i (if result = 0 then .ok else .stateRefused) result false (BitVec.ofNat 32 (if result = 0 then word else 0))

/-- The KEY_OP that a queue has outstanding at an index, with the sub-operation asked for (R281, R375). -/
def Hw.keyOp (h : Hw) (n i subop : Nat) : Option QOp :=
  match h.op n i with
  | some o => if o.st = .issued ∧ o.opcode = 0x0D ∧ o.field 4 0 8 = subop then some o else none
  | none => none

/-- The slot that a binding index names (R281). -/
def Hw.bound (h : Hw) (n : Nat) (o : QOp) : Option Nat :=
  match (h.queue n).run with | some b => b.bind[o.field 6 0 6]? | none => none

/-- The SCU takes a KEY_OP only while it is ready and no firmware update is held (R281, R389). -/
def Hw.scuReady (h : Hw) : Bool := h.regBit 0x15010 0 && decide (h.regF Reg.SCU_UPD_STAT 0 2 < 2)

/-- FAMILY_OPEN: derives a family key into a free slice slot (R375). Under DETERMINISTIC, what a KEY_OP loads waits for a quiet
window (R311). -/
def Hw.familyOpen (h : Hw) (n i : Nat) : Hw :=
  match h.keyOp n i 0 with
  | none => h
  | some o =>
    if !h.scuReady || !h.backgroundNow then h
    else
      let f := o.field 8 0 16
      if !h.joined then h.keyOpEnd n i 0 1 0
      else if (h.familySlot f).isSome then h.keyOpEnd n i 0 2 0
      else if h.familyRetired f then h.keyOpEnd n i 0 6 0
      else match h.freeSliceSlot with
        | none => h.keyOpEnd n i 0 3 0
        | some k =>
          let key := kdfKey (keyBytes (h.slot 10).key) "SIRVIS FAMILY" (beBytes f 2)
          let h := h.placeKey k { Slot.free with kind := 1, origin := 2, owner := h.queueSlice n, usage := 0x41, family := f } key
          h.keyOpEnd n i 0 0 k

/-- A SEAL region of the family stands on this member. -/
def Hw.familyInUse (h : Hw) (f : Nat) : Bool :=
  h.regions.table.any fun p => match p.2 with | some r => r.cls == .sealed && r.family == f | none => false

/-- KEY_ERASE: erases the bound slot and every cached key set of its family (R375). -/
def Hw.keyErase (h : Hw) (n i : Nat) : Hw :=
  match h.keyOp n i 1 with
  | none => h
  | some o =>
    if !h.scuReady then h
    else match h.bound n o with
      | none => h.opEnd n i .stateRefused .unbound
      | some k =>
        if !h.ownsSlot (h.queueSlice n) k then h.keyOpEnd n i 1 4 0
        else if (h.slot k).usage = 0x41 ∧ h.familyInUse (h.slot k).family = true then h.keyOpEnd n i 1 5 0
        else if (h.slot k).usage = 0x41 then (h.eraseFamily (h.slot k).family).keyOpEnd n i 1 0 0
        else (h.eraseSlot k).keyOpEnd n i 1 0 0

end Sys2Proof.Machine
end

