-- ==== Sys2Proof/Machine/SealCrypto.lean ====
section
/-! DEFINITION. The line cipher of SEAL: tweak, XTS-AES-256, GHASH and the line MAC (R105 to R111). AES itself
is the published cipher of Config; what the spec lays out around it is written here. -/

namespace Sys2Proof.Machine

/-- A 16-byte string as a number with its first byte least significant, read with its first byte most significant. -/
def swap128 (x : BitVec 128) : BitVec 128 := BitVec.ofNat 128 (ofBytes (leBytes x.toNat 16).reverse)

/-- Product of a tweak and the primitive element of IEEE 1619, byte 0 low. -/
def mulAlpha (t : BitVec 128) : BitVec 128 :=
  if t.getLsbD 127 then (t <<< 1) ^^^ 0x87 else t <<< 1

/-- Whitening value of block `j`: the tweak times the j-th power of the primitive element. -/
def whiten (t : BitVec 128) : Nat → BitVec 128
  | 0 => t
  | j + 1 => mulAlpha (whiten t j)

/-- Block `j` of a line. -/
def Line.block (l : Line) (j : Nat) : BitVec 128 := BitVec.ofNat 128 (bits l.toNat (128 * j) 128)

/-- A line of four blocks. -/
def lineOf (f : Nat → BitVec 128) : Line :=
  BitVec.ofNat 512 ((List.range 4).foldl (fun acc j => acc + (f j).toNat * 2 ^ (128 * j)) 0)

/-- The tweak value i of a line (R107): line index, epoch, rack. -/
def tweakValue (rack epoch addr : Nat) : Nat :=
  bits addr 6 40 + epoch % 2 ^ 16 * 2 ^ 40 + rack % 16 * 2 ^ 56

/-- The line's tweak T (R107). -/
def sealTweak (k2 : BitVec 256) (rack epoch addr : Nat) : BitVec 128 :=
  Config.aesEnc k2 (BitVec.ofNat 128 (tweakValue rack epoch addr))

/-- XTS encryption of a line (R105). -/
def xtsEnc (k1 : BitVec 256) (t : BitVec 128) (l : Line) : Line :=
  lineOf fun j => Config.aesEnc k1 (Line.block l j ^^^ whiten t j) ^^^ whiten t j

/-- XTS decryption of a line (R105). -/
def xtsDec (k1 : BitVec 256) (t : BitVec 128) (l : Line) : Line :=
  lineOf fun j => Config.aesDec k1 (Line.block l j ^^^ whiten t j) ^^^ whiten t j

/-- One bit of a GHASH product: the accumulator and the running multiple. -/
def gmulStep (acc : BitVec 128 × BitVec 128) (b : Bool) : BitVec 128 × BitVec 128 :=
  (if b then acc.1 ^^^ acc.2 else acc.1,
   if acc.2.getLsbD 0 then (acc.2 >>> 1) ^^^ (0xE1000000000000000000000000000000 : BitVec 128) else acc.2 >>> 1)

/-- Product of SP 800-38D of two blocks whose first byte is the most significant. -/
def gmul (x y : BitVec 128) : BitVec 128 :=
  (((List.range 128).map fun k => x.getLsbD (127 - k)).foldl gmulStep (0, y)).1

/-- GHASH of SP 800-38D. -/
def ghash (h : BitVec 128) (blocks : List (BitVec 128)) : BitVec 128 :=
  blocks.foldl (fun acc b => gmul (acc ^^^ b) h) 0

/-- The line MAC (R111). -/
def lineMac (hk t : BitVec 128) (rack epoch addr lc : Nat) (plain : Line) : BitVec 28 :=
  let l := BitVec.ofNat 128 (tweakValue rack epoch addr + lc % 4 * 2 ^ 60)
  let s := ghash (swap128 hk) ((List.range 4).map (fun j => swap128 (Line.block plain j)) ++ [l])
  BitVec.ofNat 28 ((s ^^^ swap128 (whiten t 4)).toNat / 2 ^ 100)

/-- The metadata word (R109). -/
def metaWord (mac : BitVec 28) (epoch lc : Nat) : Word :=
  BitVec.ofNat 32 (mac.toNat + epoch % 4 * 2 ^ 28 + lc % 4 * 2 ^ 30)

/-- The length code of a line. -/
def SealedLine.lc (l : SealedLine) : Nat := fld l.tagWord 30 2

/-- The epoch tag of a line. -/
def SealedLine.etag (l : SealedLine) : Nat := fld l.tagWord 28 2

/-- A line sealed under a family's epoch by cluster `n` (R105 to R111). -/
def Hw.sealLine (h : Hw) (n family epoch addr lc : Nat) (plain : Line) : SealedLine :=
  let (k1, k2, hk) := (h.sealKeys n family epoch).getD (0, 0, 0)
  let rack := h.regF Reg.GATE_RACKS 0 4
  let t := sealTweak k2 rack epoch addr
  ⟨xtsEnc k1 t plain, metaWord (lineMac hk t rack epoch addr lc plain) epoch lc⟩

/-- A line opened under a family's epoch by cluster `n`: its plaintext, and whether its MAC matches (R111, R112). -/
def Hw.openLine (h : Hw) (n family epoch addr : Nat) (l : SealedLine) : Line × Bool :=
  let (k1, k2, hk) := (h.sealKeys n family epoch).getD (0, 0, 0)
  let rack := h.regF Reg.GATE_RACKS 0 4
  let t := sealTweak k2 rack epoch addr
  let plain := xtsDec k1 t l.data
  (plain, (lineMac hk t rack epoch addr l.lc plain).toNat == fld l.tagWord 0 28)

/-- A line filled with a region's fill pattern. -/
def fillLine (w : Word) : Line :=
  BitVec.ofNat 512 ((List.range 16).foldl (fun acc k => acc + w.toNat * 2 ^ (32 * k)) 0)

end Sys2Proof.Machine
end

