-- ==== Sys2Proof/Machine/Gcm.lean ====
section
/-! DEFINITION. AES-256-GCM of SP 800-38D over byte strings, from the block cipher of Config (R163, R188). Bytes 0
of a string are its first; a 96-bit IV is a string whose first byte is the most significant. -/

namespace Sys2Proof.Machine

/-- A block from at most 16 bytes, the first most significant, padded with zeros. -/
def blockOfBytes (bs : List Byte) : BitVec 128 :=
  BitVec.ofNat 128 ((List.range 16).foldl (fun acc k => acc * 256 + (bs.getD k 0).toNat) 0)

/-- The blocks of a byte string, the last padded with zeros. -/
def blocksOfBytes (bs : List Byte) : List (BitVec 128) :=
  (List.range ((bs.length + 15) / 16)).map fun k => blockOfBytes ((bs.drop (16 * k)).take 16)

/-- The cipher on a block whose first byte is the most significant. -/
def aesBig (key : BitVec 256) (b : BitVec 128) : BitVec 128 := swap128 (Config.aesEnc key (swap128 b))

/-- Bytes of a block, the most significant first. -/
def blockBytes (b : BitVec 128) : List Byte := beBytes b.toNat 16

/-- The counter mode of GCM: the text XOR its keystream. Encryption and decryption are the same. -/
def gcmCrypt (key : BitVec 256) (iv : BitVec 96) (text : List Byte) : List Byte :=
  let stream := (List.range ((text.length + 15) / 16)).flatMap fun k =>
    blockBytes (aesBig key (BitVec.ofNat 128 (iv.toNat * 2 ^ 32 + (k + 2) % 2 ^ 32)))
  List.zipWith (· ^^^ ·) text stream

/-- The tag over associated data and ciphertext. -/
def gcmTag (key : BitVec 256) (iv : BitVec 96) (aad cipher : List Byte) : BitVec 128 :=
  let h := aesBig key 0
  let lens := BitVec.ofNat 128 (8 * aad.length * 2 ^ 64 + 8 * cipher.length)
  ghash h (blocksOfBytes aad ++ blocksOfBytes cipher ++ [lens]) ^^^ aesBig key (BitVec.ofNat 128 (iv.toNat * 2 ^ 32 + 1))

/-- The words of a header (R167): 256 bits, word 0 low. -/
def Header.bits (hd : Header) : BitVec 256 :=
  let w0 := hd.op.toNat + hd.vc.toNat * 2 ^ 8 + hd.cls.toNat * 2 ^ 10 + hd.dflits.toNat * 2 ^ 13 + b2n hd.resp * 2 ^ 18 +
    hd.status.toNat * 2 ^ 19 + hd.dmode.toNat * 2 ^ 22
  let w1 := hd.src.toNat + hd.dst.toNat * 2 ^ 16
  let w3 := hd.addr.toNat / 2 ^ 32 + hd.rack.toNat * 2 ^ 14
  let w4 := hd.lines.toNat + hd.arg.toNat * 2 ^ 8
  BitVec.ofNat 256 (w0 + w1 * 2 ^ 32 + hd.addr.toNat % 2 ^ 32 * 2 ^ 64 + w3 * 2 ^ 96 + w4 * 2 ^ 128 + hd.txn.toNat * 2 ^ 160 +
    hd.pgen.toNat * 2 ^ 192)

/-- The fields of a header's 32 bytes (R167). -/
def Header.ofBits (b : BitVec 256) : Header :=
  let n := b.toNat
  let f := fun (w lo len : Nat) => Machine.bits n (32 * w + lo) len
  { op := BitVec.ofNat 8 (f 0 0 8), vc := BitVec.ofNat 2 (f 0 8 2), cls := BitVec.ofNat 3 (f 0 10 3), dflits := BitVec.ofNat 5 (f 0 13 5),
    resp := f 0 18 1 == 1, status := BitVec.ofNat 3 (f 0 19 3), dmode := BitVec.ofNat 2 (f 0 22 2), src := BitVec.ofNat 16 (f 1 0 16),
    dst := BitVec.ofNat 16 (f 1 16 16), addr := BitVec.ofNat 46 (f 2 0 32 + f 3 0 14 * 2 ^ 32), rack := BitVec.ofNat 4 (f 3 14 4),
    lines := BitVec.ofNat 7 (f 4 0 7), arg := BitVec.ofNat 8 (f 4 8 8), txn := BitVec.ofNat 32 (f 5 0 32), pgen := BitVec.ofNat 8 (f 6 0 8) }

/-- Bytes of a header, or of its words 0 to 5 for the end-to-end cipher of R188. -/
def Header.bytes (hd : Header) : List Byte := leBytes hd.bits.toNat 32

/-- The 256 bytes of a data flit's four lines; lines beyond those given are 0 (R168). -/
def flitBytes (ls : List SealedLine) : List Byte :=
  (List.range 4).flatMap fun k => leBytes ((ls[k]?.map SealedLine.data).getD 0).toNat 64

/-- The 16 bytes that a data flit's side-band carries, four to a line (R168). -/
def flitTag (ls : List SealedLine) : BitVec 128 :=
  blockOfBytes ((List.range 4).flatMap fun k => leBytes ((ls[k]?.map SealedLine.tagWord).getD 0).toNat 4)

/-- A data flit of four lines from its 256 bytes and its 16-byte tag in the side-band (R168). -/
def flitOf (bs : List Byte) (tag : BitVec 128) : List SealedLine :=
  (List.range 4).map fun k =>
    ⟨BitVec.ofNat 512 (ofBytes ((bs.drop (64 * k)).take 64)), BitVec.ofNat 32 (ofBytes (((blockBytes tag).drop (4 * k)).take 4))⟩

/-- The data flits of a list of lines, four lines to a flit. -/
def flitsOf (ls : List SealedLine) : List (List SealedLine) :=
  (List.range ((ls.length + 3) / 4)).map fun k => (ls.drop (4 * k)).take 4

end Sys2Proof.Machine
end

