-- ==== Sys2Proof/Machine/Crc.lean ====
section
/-! DEFINITION. The cyclic checks the spec gives: CRC-12 of a persistent word (R72), CRC-8 of a Granule Key
Table entry (R135) and CRC-32C of a Region Table entry (R89). Each takes its message highest bit first
unless it says otherwise. -/

namespace Sys2Proof.Machine

/-- One bit shifted into a CRC register of `w` bits, highest bit first. -/
def crcStep (w poly : Nat) (crc : Nat) (b : Bool) : Nat :=
  let top := crc / 2 ^ (w - 1) % 2 == 1
  let s := crc * 2 % 2 ^ w
  if top != b then Nat.xor s poly else s

/-- Message bits of a number of `len` bits, highest first. -/
def bitsHigh (n len : Nat) : List Bool := (List.range len).map fun k => n / 2 ^ (len - 1 - k) % 2 == 1

/-- CRC-12 of the low 52 bits of a persistent word (R72): x^12 + x^11 + x^3 + x^2 + x + 1, initial value 0.
DEDUCED (log entry 20): bit 51 enters first. -/
def crc12 (n : Nat) : Nat := (bitsHigh n 52).foldl (crcStep 12 0x80F) 0

/-- A persistent word as stored (R72): value, write count and CRC. -/
def persistWord (value : Word) (count : Nat) : BitVec 64 :=
  let low := value.toNat + count % 2 ^ 20 * 2 ^ 32
  BitVec.ofNat 64 (low + crc12 low * 2 ^ 52)

/-- A stored word whose CRC matches (R460). -/
def persistOk (w : BitVec 64) : Bool := crc12 (w.toNat % 2 ^ 52) == w.toNat / 2 ^ 52

/-- CRC-8 of a Granule Key Table entry (R135): bits 39 to 0, then 63 to 48. -/
def crc8 (n : Nat) : Nat := (bitsHigh (n % 2 ^ 40) 40 ++ bitsHigh (n / 2 ^ 48) 16).foldl (crcStep 8 0x07) 0

/-- One bit of the reflected CRC-32C. -/
def crc32cStep (c : Nat) (b : Bool) : Nat :=
  let s := c / 2
  if (c % 2 == 1) != b then Nat.xor s 0x82F63B78 else s

/-- CRC-32C (Castagnoli) of the low `len` bits of a number, byte 0 first (R89). -/
def crc32c (n len : Nat) : Nat :=
  Nat.xor (((List.range len).map fun k => n / 2 ^ k % 2 == 1).foldl crc32cStep 0xFFFFFFFF) 0xFFFFFFFF

end Sys2Proof.Machine
end

