-- ==== Sys2Proof/Machine/GktOps.lean ====
section
/-! DEFINITION. Granule Key Table entries, homes, the GKT cache and the fills (R134 to R143). -/

namespace Sys2Proof.Machine

/-- An entry as 64 bits (R135). -/
def GktEntry.word (e : GktEntry) : BitVec 64 :=
  let low := e.family % 65536 + e.epoch % 65536 * 2 ^ 16 + b2n e.dual * 2 ^ 32 + e.pstate % 8 * 2 ^ 33 + 2 ^ 36
  let n := low + e.home % 65536 * 2 ^ 48
  BitVec.ofNat 64 (n + crc8 n * 2 ^ 40)

/-- An entry's fields (R135). -/
def gktDecode (w : BitVec 64) : GktEntry :=
  let n := w.toNat
  ⟨bits n 0 16, bits n 16 16, bits n 32 1 == 1, bits n 33 3, bits n 48 16⟩

/-- The crc of an entry matches (R135). -/
def gktCrcOk (w : BitVec 64) : Bool := crc8 w.toNat == bits w.toNat 40 8

/-- The valid bit of an entry (R135). -/
def gktValid (w : BitVec 64) : Bool := w.getLsbD 36

/-- An entry read from a partition that may be used (R137). -/
def gktUsable (w : BitVec 64) : Bool := gktValid w && gktCrcOk w && decide (bits w.toNat 33 3 ≤ 5)

/-- Members of the home map in force. -/
def Hw.homes (h : Hw) : List Nat := match h.dom.policy with | some p => p.homeMap | none => []

/-- The hash of R138. -/
def homeHash (rack g salt n : Nat) : Nat :=
  let m := 2 ^ 32
  let x := (Nat.xor (rack % 16 * 2 ^ 25 + g % 2 ^ 25) salt) * 0x9E3779B1 % m
  let x := Nat.xor x (x / 2 ^ 15) * 0x85EBCA6B % m
  let x := Nat.xor x (x / 2 ^ 13)
  x * n / m

/-- The home of a granule of this rack (R138). -/
def Hw.homeOf (h : Hw) (g : Nat) : Nat :=
  match h.dom.policy with
  | some p => (p.homeMap[homeHash (h.regF Reg.GATE_RACKS 0 4) g p.salt.toNat p.homeMap.length]?).getD 0
  | none => 0

/-- This member homes the granule. -/
def Hw.homesHere (h : Hw) (g : Nat) : Bool := h.joined && h.homeOf g == h.memberId

/-- The stored word of this partition (R134). -/
def Hw.partWord (h : Hw) (g : Nat) : BitVec 64 := h.gkt.part.get 0 g

/-- The entry of this partition, when it is usable. -/
def Hw.partEntry (h : Hw) (g : Nat) : Option GktEntry :=
  if gktUsable (h.partWord g) then some (gktDecode (h.partWord g)) else none

/-- Block address of a granule's entry in this partition (R134). -/
def Hw.partAddr (h : Hw) (g : Nat) : Nat := (h.reg Reg.GKT_PART_BASE_LO).toNat + h.regF Reg.GKT_PART_BASE_HI 0 20 * 2 ^ 32 + 8 * g

/-- A read of this partition leaves (R134, R137). -/
def Hw.partAsk (h : Hw) (g : Nat) : Hw := h.dmRead (.partition g) none 3 (h.partAddr g) 8

/-- A word written to this partition (R134). -/
def Hw.partPut (h : Hw) (g : Nat) (w : BitVec 64) : Hw :=
  ({ h with gkt.part := h.gkt.part.put 0 g w } : Hw).dmWrite (.partWrite g) none 3 (h.partAddr g) (leBytes w.toNat 8)

/-- An entry written to this partition. -/
def Hw.setPart (h : Hw) (g : Nat) (e : GktEntry) : Hw := h.partPut g e.word

/-- An entry of this partition cleared. -/
def Hw.clearPart (h : Hw) (g : Nat) : Hw := h.partPut g 0

/-- The cached entry of a granule (R140). -/
def Hw.cached (h : Hw) (g : Nat) : Option GktEntry := (h.gkt.cache.find? fun p => p.1 == g).map (·.2)

/-- A cached entry used: it becomes the most recently used of its set (R140). -/
def Hw.gktTouch (h : Hw) (g : Nat) : Hw :=
  { h with gkt.cache := (h.gkt.cache.filter fun p => p.1 != g) ++ (h.gkt.cache.filter fun p => p.1 == g) }

/-- An entry placed in the GKT cache; the least recently used entry of a full set that is not pinned leaves (R140, R301). -/
def Hw.gktPlace (h : Hw) (g : Nat) (e : GktEntry) : Hw :=
  let rest := h.gkt.cache.filter fun p => p.1 != g
  let set := rest.filter fun p => p.1 % 4096 == g % 4096
  let kept := if set.length < 16 then rest
    else match set.find? fun p => !decide (p.1 ∈ h.gkt.pinned) with
      | some v => rest.filter fun p => p.1 != v.1
      | none => rest
  if (kept.filter fun p => p.1 % 4096 == g % 4096).length < 16 then { h with gkt.cache := kept ++ [(g, e)] } else h

/-- A cached entry dropped. -/
def Hw.gktDrop (h : Hw) (p : Nat × GktEntry → Bool) : Hw := { h with gkt.cache := h.gkt.cache.filter fun x => !p x }

/-- A cached entry replaced where it is held. -/
def Hw.gktUpdate (h : Hw) (g : Nat) (f : GktEntry → GktEntry) : Hw :=
  { h with gkt.cache := h.gkt.cache.map fun p => if p.1 = g then (p.1, f p.2) else p }

/-- GKT.LAST_ERR and the raise of GKT_CORRUPT or GKT_HOME_DEAD (R137, R139). -/
def Hw.gktError (h : Hw) (homeDead : Bool) (g home : Nat) : Hw :=
  let h := h.setReg Reg.GKT_LAST_ERR (BitVec.ofNat 32 (home % 65536 + 65536 * b2n homeDead + 2 ^ 31))
  h.raise (if homeDead then 225 else 224) (detailWord none none 0 0) (g * 2 ^ 21 % 2 ^ 32) (g * 2 ^ 21 / 2 ^ 32 + home % 65536 * 65536) (if homeDead then 0x20 else 0)

/-- A granule in OPENING, QUEUED, WET or CLOSING, whose key sets are pinned (R371). -/
def GktEntry.moving (e : GktEntry) : Bool := decide (1 ≤ e.pstate ∧ e.pstate ≤ 4)

/-- The key set of a family and epoch is pinned (R371). -/
def Hw.keyPinned (h : Hw) (f e : Nat) : Bool :=
  (h.gkt.part.any fun p => gktUsable p.2 && (gktDecode p.2).moving && (gktDecode p.2).family == f &&
    ((gktDecode p.2).epoch == e || (gktDecode p.2).epoch == e + 1)) ||
  (h.gkt.cache.any fun p => p.2.moving && p.2.family == f && (p.2.epoch == e || p.2.epoch == e + 1))

/-- Granule of a pool address. -/
def granuleOf (addr : Nat) : Nat := bits addr 21 25

/-- The operation writes the pool. -/
def ReqKind.writes : ReqKind → Bool
  | .store | .copyIn | .shapeWrite => true
  | _ => false

/-- A request that FENCE_SIGNAL covers (R277). -/
def ReqKind.covered : ReqKind → Bool
  | .store | .add | .min | .max | .cas => true
  | _ => false

/-- Lowest live epoch of an entry (R135). -/
def GktEntry.emin (e : GktEntry) : Nat := if e.dual then e.epoch - 1 else e.epoch

/-- A transaction with its granule's entry recorded (R113). -/
def Txn.record (t : Txn) (e : GktEntry) : Txn :=
  { t with keyed := true, epoch := e.epoch, emin := e.emin, family := e.family }

/-- Live epochs from a lowest one. -/
def liveEpochs (epoch emin : Nat) : List Nat := if emin == epoch then [epoch] else [epoch, emin]

/-- Epochs whose key sets a transaction needs: those of its record, and those of the entry read again for its answer (R113). -/
def Txn.keyNeeds (t : Txn) : List Nat :=
  if t.kind.writes then [t.epoch]
  else (liveEpochs t.epoch t.emin ++ match t.again with | some a => liveEpochs a.1 a.2 | none => []).eraseDups

/-- The key set may be used by a transaction: it is cached, or derived for that transaction alone. -/
def Hw.keySetFor (h : Hw) (f e txn : Nat) : Bool :=
  h.hasKeySet f e || h.cis.transient.any fun x => x.family == f && x.epoch == e && x.txn == txn

/-- Key sets that a transaction waits for: not held, but derivable (R371). -/
def Hw.keyMissing (h : Hw) (t : Txn) : List Nat :=
  t.keyNeeds.filter fun e => !h.keySetFor t.family e t.id && h.mayDerive t.family e

end Sys2Proof.Machine
end

