-- ==== Sys2Proof/Machine/ShapeCore.lean ====
section
/-! DEFINITION. The Shaper's sections: their layout and lines, what an answered transfer does to its section, the fences of
the participants, and the end of a command (R237 to R244). -/

namespace Sys2Proof.Machine

/-- P. -/
def shapeP (d : Line) : Nat := df d 0 0 8 + 1
/-- mode. -/
def shapeMode (d : Line) : Nat := df d 1 0 2
/-- fence_en. -/
def shapeFenceEn (d : Line) : Bool := df d 1 2 1 == 1
/-- slots. -/
def shapeSlots (d : Line) : Nat := df d 2 0 13
/-- bucket. -/
def shapeBucket (d : Line) : Nat := df d 4 0 13
/-- Row size in lines. -/
def shapeRowLines (d : Line) : Nat := df d 6 0 6 + 1
/-- self. -/
def shapeSelf (d : Line) : Nat := df d 7 0 8
/-- rows. -/
def shapeRows (d : Line) : Nat := df d 8 0 21
/-- fence_base. -/
def shapeFence (d : Line) : Nat := df d 12 0 12
/-- src_addr. -/
def shapeSrc (d : Line) : Nat := df d 16 0 52
/-- route_addr. -/
def shapeRoute (d : Line) : Nat := df d 24 0 52
/-- recv_addr. -/
def shapeRecv (d : Line) : Nat := df d 24 0 46
/-- slab_base. -/
def shapeSlab (d : Line) : Nat := df d 32 0 46
/-- slab_stride in bytes. -/
def shapeStride (d : Line) : Nat := df d 40 0 32 * 2 ^ 21
/-- value. -/
def shapeValue (d : Line) : BitVec 64 := BitVec.ofNat 64 (df d 48 0 64)
/-- member_map. -/
def shapeMap (d : Line) : Nat := df d 56 0 52

/-- Index lines of a section of that many slots (R240). -/
def indexLines (slots : Nat) : Nat := (slots + 7) / 8

/-- Section size S (R240). -/
def sectionSize (d : Line) : Nat :=
  (64 * (1 + indexLines (shapeSlots d)) + shapeSlots d * 64 * shapeRowLines d + 255) / 256 * 256

/-- Pool address of section `origin` of slab `dest` (R240). -/
def sectionAddr (d : Line) (dest origin : Nat) : Nat := shapeSlab d + dest * shapeStride d + origin * sectionSize d

/-- Lines written of a section whose shaped count is n (R240). -/
def sectionLines (d : Line) (n : Nat) : Nat := 1 + indexLines n + n * shapeRowLines d

/-- Line offset in the section of the p-th line written (R240). -/
def linePlace (d : Line) (n p : Nat) : Nat := if p ≤ indexLines n then p else 1 + indexLines (shapeSlots d) + (p - 1 - indexLines n)

/-- The run of an operation. -/
def Hw.run (h : Hw) (n i : Nat) : Option ShapeRun := h.shaper.find? fun r => r.queue == n && r.op == i

/-- A run changed. -/
def Hw.modRun (h : Hw) (n i : Nat) (f : ShapeRun → ShapeRun) : Hw :=
  { h with shaper := h.shaper.map fun r => if r.queue = n ∧ r.op = i then f r else r }

/-- One participant's section changed. -/
def Hw.modPart (h : Hw) (n i k : Nat) (f : Part → Part) : Hw := h.modRun n i fun r => { r with parts := r.parts.modify k f }

/-- The section has been received and may be written; always so for DISPATCH (R243). -/
def Part.ready (p : Part) : Bool := p.known && decide (1 + indexLines p.shaped ≤ p.readPos)

/-- Nothing more is written of the section. -/
def ShapeRun.wrote (r : ShapeRun) (p : Part) : Bool := p.failed || (p.dead && !p.ready) || (p.ready && decide (sectionLines r.desc p.shaped ≤ p.pos))

/-- The section is finished: everything written and acknowledged, and its step completed where it has one (R242, R300). -/
def ShapeRun.partOver (r : ShapeRun) (p : Part) : Bool := r.wrote p && p.outs == [] && (!r.stepped || (p.stepped && p.step.isNone))

/-- Status of the fence of a finished section (R242, R243). -/
def Part.fenceStatus (p : Part) : Option CC := if p.failed then some .authFail else if p.dead || p.aborted then some .deadTarget else none

/-- A FENCE_REMOTE of the Shaper, tracked as a transaction of its own so that it can be reissued (R180, R242). -/
def Hw.sendSignal (h : Hw) (member fence : Nat) (value : BitVec 64) (err : Option CC) : Hw :=
  let t := { h.newTxn .control .bulk none 0 (BitVec.ofNat 46 fence) 0 with
    region := member, arg := match err with | some c => c.num | none => 0, data := [⟨BitVec.ofNat 512 value.toNat, 0⟩] }
  (h.addTxn t).sendControl (h.fenceRemoteMsg member fence value err t.id)

/-- The participant fence of a finished section signalled (R242, R243). -/
def Hw.shapeSignal (h : Hw) (r : ShapeRun) (k : Nat) (p : Part) : Hw :=
  if !shapeFenceEn r.desc then h
  else
    let f := shapeFence r.desc + shapeSelf r.desc
    let m := r.members.getD k 0
    let v := shapeValue r.desc
    if m = h.memberId then
      (if (h.fence f).maySignal (h.queueSlice r.queue) then h.fenceSignal f v p.fenceStatus h.memberId else h)
    else h.sendSignal m f v p.fenceStatus

/-- Fences of every section that has just finished (R242). -/
def Hw.shapeSignals (h : Hw) (n i : Nat) : Hw :=
  match h.run n i with
  | none => h
  | some r =>
    (List.range r.parts.length).foldl (fun h k =>
      match r.parts[k]? with
      | some p => if r.partOver p && !p.signalled then (h.shapeSignal r k p).modPart n i k fun p => { p with signalled := true } else h
      | none => h) h

/-- A DISPATCH or COMBINE whose every section is finished completes (R244). -/
def Hw.shapeSettle (h : Hw) (n i : Nat) : Hw :=
  let h := h.shapeSignals n i
  match h.run n i, h.op n i with
  | some r, some o =>
    if o.st = .issued ∧ o.aborting = false ∧ o.next < o.total ∧ r.parts.all (·.signalled) then
      let cc : CC := if r.parts.any (·.aborted) then .aborted else if r.parts.any (·.dead) then .deadTarget
        else if r.parts.any (·.failed) then .authFail else .ok
      h.opUnitEnd n i cc (shapeResult cc)
    else h
  | _, _ => h

/-- A transfer of a section has ended with a code (R242, R244). -/
def Hw.shapeTxnEnd (h : Hw) (n i id : Nat) (cc : CC) : Hw :=
  (h.modRun n i fun r => { r with parts := r.parts.map fun p =>
      if id ∈ p.outs then
        { p with outs := p.outs.filter (· ≠ id), dead := p.dead || cc == .deadTarget, aborted := p.aborted || (cc != .ok && cc != .deadTarget) }
      else p }).shapeSettle n i

/-- Index entries of a received line (R240). -/
def entriesOf (l : Line) : List (Nat × Bool) := (List.range 8).map fun k => (bits l.toNat (64 * k) 32, bits l.toNat (64 * k + 32) 1 == 1)

/-- Lines of a received section taken up, each after its authentication (R243): the header first, then index lines. -/
def Part.receive (d : Line) (p : Part) (ls : List Line) (ok : Bool) : Part :=
  if !ok then { p with failed := true }
  else if p.readPos = 0 then
    let n := (ls.headD 0).toNat
    let shaped := bits n 0 32
    { p with readPos := 1, known := true, shaped := shaped, real := bits n 32 32, value := BitVec.ofNat 64 (bits n 64 64)
             failed := decide (shapeSlots d < shaped) }
  else { p with readPos := p.readPos + ls.length, entries := (p.entries ++ ls.flatMap entriesOf).take p.shaped }

/-- The lines of a read of a receive slab, authenticated (R243). -/
def Hw.shapeGot (h : Hw) (n i id : Nat) (ls : List Line) (ok : Bool) : Hw :=
  (h.modRun n i fun r => { r with parts := r.parts.map fun p =>
      if id ∈ p.outs then { p.receive r.desc ls ok with outs := p.outs.filter (· ≠ id) } else p }).shapeSettle n i

end Sys2Proof.Machine
end

