-- ==== Sys2Proof/Machine/Answer.lean ====
section
/-! DEFINITION. How a granted transaction ends: its answer to its master, its part in its operation, and the
records of what went wrong (R56, R119, R178, R181, R276, R277). -/

namespace Sys2Proof.Machine

/-- Operation code of the message that carries a transaction (R169). -/
def Txn.fabOp (t : Txn) : FabOp :=
  match t.kind with
  | .load | .copyOut | .shapeRead => if t.arg = 1 then .groupRead else .lineRead
  | .store | .copyIn | .shapeWrite => if t.src = .pump then .condWrite else .write
  | .add => .atomAdd | .min => .atomMin | .max => .atomMax | .cas => .atomCas
  | .reduceMin => .compRmin | .reduceMax => .compRmax | .gather => .compGather | .filter => .compFilter
  | .bulk => if t.data = [] then .bulkGet else .bulkPut
  | .blindPut | .blindTake | .reduceAcc => .lineRead

/-- The transaction waits in the Regulator. -/
def WorkItem.isTxn (i : WorkItem) (id : Nat) : Bool := match i.work with | .txn k => k == id | _ => false

/-- Work of a transaction leaves the Regulator. -/
def Hw.dropWork (h : Hw) (id : Nat) : Hw := { h with rgl.items := h.rgl.items.filter fun i => !i.isTxn id }

/-- An operation whose every transfer has been answered completes with its code (R131, R186, R285). -/
def Hw.opSettle (h : Hw) (n i : Nat) : Hw :=
  match h.op n i with
  | some o =>
    if o.st = .issued ∧ o.started = true ∧ o.txns = [] ∧ (o.total ≤ o.next ∨ o.aborting = true) then
      if o.aborting = true ∧ o.code.rank = CC.aborted.rank then h.opDone n i .aborted Detail.guilty.num true 0
      else if o.opcode = 3 ∧ o.unit = GateCode.classOp.num then h.opUnitEnd n i .stateRefused 1
      else if o.opcode = 3 ∧ (o.unit = GateCode.fenced.num ∨ o.unit = GateCode.sliceGone.num) then h.opUnitEnd n i .aborted 5
      else if o.opcode ≤ 5 ∨ o.opcode = 8 then
        (if o.unit = 0 then h.opEnd n i o.code .none else h.opGateRefused n i (GateCode.ofNum o.unit))
      else h.opUnitEnd n i o.code o.unit
    else h
  | none => h

/-- A transfer of an operation has ended with a code (R131, R186): of a DISPATCH or COMBINE the fences of what it finishes are signalled
first (R242, R243), and a remote FENCE_SIGNAL that dies completes DEAD_TARGET whatever it carries (R276). -/
def Hw.opTxnEnd (h : Hw) (n i id : Nat) (cc : CC) : Hw :=
  ((h.modOp n i fun o => { o with
      txns := o.txns.filter (· ≠ id)
      code := if o.opcode = 8 ∧ o.aborting = false ∧ cc ≠ .ok then cc else o.code.worse cc }).shapeTxnEnd n i id cc).opSettle n i

/-- The outcome of a covered write (R276, R277). -/
def Hw.coverOutcome (h : Hw) (t : Txn) (dead uncertain : Bool) : Hw :=
  match t.src with
  | .utp _ => { h with cfe.bad := h.cfe.bad ++ [(t.slice, t.cover, dead, uncertain)] }
  | _ => h

/-- The answer of a Transaction Port transaction waits for its port (R56). -/
def Hw.toPort (h : Hw) (id : Nat) (st : PortStatus) (lines : List Line) : Hw :=
  ((h.dropWork id).modTxn id fun t => { t with stage := .ready, status := st, answer := lines, checks := [], checked := true }).endTransient id

/-- A transaction that is answered with a status by the block itself: ABORTED with zeros, DEAD_TARGET with the
region's fill pattern, UNCERTAIN with zeros (R56, R178). -/
def Txn.blank (t : Txn) (st : PortStatus) : List Line :=
  match st with
  | .deadTarget => List.replicate (max t.lines 1) (fillLine t.fill)
  | _ => List.replicate (max t.lines 1) 0

/-- The source field of LINK.LAST_DEAD (R178). -/
def Source.deadCode : Source → Nat
  | .utp p => p.val | .sched => 8 | .cfe _ _ => 8 | .pump => 9 | .gktFetch => 10 | .gateway => 8 | .control => 8 | .left => 8

/-- The tag field of LINK.LAST_DEAD: REQ_TAG, or the queue (R178). -/
def Txn.deadTag (t : Txn) : Nat := match t.src with | .utp _ => t.tag.toNat | .cfe n _ => n | _ => 0

/-- Detail word of a fault about a transaction (R435). -/
def Txn.detail (t : Txn) : Nat :=
  match t.src with
  | .utp p => detailWord (some t.slice) none p.val t.tag.toNat
  | .cfe n _ => detailWord (some t.slice) (some n) 0 0
  | _ => detailWord (some t.slice) none 0 0

/-- DEAD_TARGET raised and recorded, once for a transaction (R178). -/
def Hw.deadRecord (h : Hw) (t : Txn) (op : Nat) : Hw :=
  let a := t.addr.toNat
  let h := ((h.incReg Reg.LINK_DEAD_CNT).tally 152 1).setReg Reg.LINK_LAST_DEAD
    (BitVec.ofNat 32 (t.src.deadCode + 16 * t.deadTag + 16384 * t.slice + 16777216 * (op % 128) + 2 ^ 31))
  let h := (h.setReg Reg.LINK_LAST_DEAD_ADDR_LO (BitVec.ofNat 32 (a / 64 * 64 % 2 ^ 32))).setReg Reg.LINK_LAST_DEAD_ADDR_HI (BitVec.ofNat 32 (a / 2 ^ 32))
  h.raise 229 t.detail (a % 2 ^ 32) (a / 2 ^ 32) op

/-- A CFE operation's writes of device memory (R62), at a block address translated by the cached entries. -/
def Hw.opWrite (h : Hw) (n i addr : Nat) (data : List Byte) : Hw := h.dmWrite (.op n i) (some n) 0 addr data

/-- Bytes of a line. -/
def lineBytes (l : Line) : List Byte := leBytes l.toNat 64

/-- IV of an end-to-end data flit (R188): sender, receiver, reset generation, bulk sequence. -/
def bulkIv (sender receiver gen seq : Nat) : BitVec 96 :=
  BitVec.ofNat 96 (sender % 65536 * 2 ^ 80 + receiver % 65536 * 2 ^ 64 + gen % 65536 * 2 ^ 48 + seq % 2 ^ 48)

/-- The domain's bulk class key (R188), in the key register of cluster `n` (R249). -/
def Hw.bulkKey (h : Hw) (n : Nat) : BitVec 256 := h.cluKey n 48

/-- Reset generation and bulk sequence that a BULK message carries: bytes 0 to 7 of a request, bytes 8 to 15 of an answer (R187). -/
def Message.bulkIdent (m : Message) : Nat × Nat :=
  let off := if m.hdr.resp then 8 else 0
  (inlineField m.inlineArea (off + 6) 16, inlineField m.inlineArea off 48)

/-- Data flits of a gateway message to member `receiver`, encrypted end to end by cluster `n` (R188). -/
def Hw.bulkSeal (h : Hw) (n receiver : Nat) (m : Message) : Message :=
  let (gen, seq) := m.bulkIdent
  let fs := flitsOf m.lines
  { m with lines := (List.range fs.length).flatMap fun k =>
      let iv := bulkIv h.memberId receiver gen (seq + k)
      let c := gcmCrypt (h.bulkKey n) iv (flitBytes (fs.getD k []))
      flitOf c (gcmTag (h.bulkKey n) iv (m.hdr.bytes.take 24) c) }

/-- The BULK_ACK or BULK_DATA of a gateway transfer (R187, R188): Gate code or failed lines, and its lines, which
its cluster encrypts end to end under this member's own bulk sequence. -/
def Hw.gwAnswer (h : Hw) (r : GwReq) (status count : Nat) (lines : List SealedLine) : Hw :=
  let put := r.hdr.op == 0x38
  let gen := h.regF Reg.SCU_RESET_GEN 0 16
  let seq := h.bulk.seq
  let m := h.answerMsg r.hdr (if put then 0x3B else 0x3A) 1 status (inlineOf [(0, count), (8, gen * 2 ^ 48 + seq % 2 ^ 48)]) lines
  ({ h with bulk.seq := seq + (lines.length + 3) / 4 } : Hw).enqueueMsg 11 (h.regF Reg.LINK_GW_SLICE 0 10) (64 * lines.length) m none

/-- Where the destination of a read of a copy lies: line `k` of the operation (R127, R185). -/
def QOp.devAddr (o : QOp) : Nat := o.field 8 0 52

/-- Pool address of a copy (R127, R185). -/
def QOp.poolAddr (o : QOp) : Nat := o.field 16 0 46

/-- Device memory address of a transaction's first line, within its operation. -/
def QOp.devOf (o : QOp) (t : Txn) : Nat := o.devAddr + (t.addr.toNat - o.poolAddr)

/-- The policy's error-fill default (R18). -/
def Hw.policyFill (h : Hw) : Word := match h.dom.policy with | some p => p.fill | none => 0

/-- A transaction ends with a status that the block gives it (R56, R131, R157, R178, R186). -/
def Hw.finishTxn (h : Hw) (id : Nat) (st : PortStatus) : Hw :=
  match h.txn id with
  | none => h
  | some t =>
    let h := if t.kind.covered then h.coverOutcome t (st == .deadTarget) (st == .uncertain) else h
    match t.src with
    | .utp _ => h.toPort id st (t.blank st)
    | .cfe n i =>
      let h := ((h.dropWork id).endTransient id).dropTxn id
      match h.op n i with
      | none => h
      | some o =>
        let h := if st = .deadTarget ∧ t.kind = .copyOut then
            let h := h.opWrite n i (o.devOf t) ((List.replicate (if t.arg = 1 then 4 else t.lines) (fillLine t.fill)).flatMap lineBytes)
            if t.arg = 1 then
              h.emit (.dmCode (o.field 28 0 32 * 2 ^ 20) ((t.addr.toNat - o.poolAddr) / 256) 3) else h
          else if st = .deadTarget ∧ t.kind = .bulk ∧ o.opcode = 2 ∧ t.data = [] then
            h.opWrite n i (o.devOf t) ((List.replicate t.lines (fillLine h.policyFill)).flatMap lineBytes)
          else h
        h.opTxnEnd n i id (match st with | .deadTarget => .deadTarget | .authFail => .authFail | .ok => .ok | _ => .aborted)
    | .gateway =>
      let r := h.gw.find? fun x => x.txn == id
      let h := { ((h.dropWork id).endTransient id).dropTxn id with gw := h.gw.filter fun x => x.txn != id }
      match r with
      | some r => h.gwAnswer r (match st with | .deadTarget => 2 | _ => 0) (if t.kind.writes then 0 else t.lines)
          (if t.kind.writes then [] else List.replicate t.lines ⟨fillLine t.fill, 0⟩)
      | none => h
    | _ => ((h.dropWork id).endTransient id).dropTxn id

/-- A transaction of the Regulator's queues goes on once its granule's entry and its key sets are there (R113,
R140, R371, R372). A store to a family that has no key completes ABORTED. -/
def Hw.advance (h : Hw) (id : Nat) : Hw :=
  match h.txn id with
  | none => h
  | some t0 =>
    if t0.stage ≠ .keyWait ∨ t0.cls ≠ some .sealed then h
    else
      let g := granuleOf t0.addr.toNat
      let found := if t0.keyed then some t0 else (h.cached g).map fun e => t0.record e
      match found with
      | none => h
      | some t =>
        let h := (h.gktTouch g).modTxn id fun _ => t
        if t.kind.writes && !h.keySetFor t.family t.epoch id && !h.mayDerive t.family t.epoch then h.finishTxn id .aborted
        else if h.keyMissing t ≠ [] then h
        else
          let h := t.keyNeeds.foldl (fun h e => h.useKeySet t.family e) h
          (h.modTxn id fun t => { t with stage := .queued }).enqueueTxn { t with stage := .queued }

/-- Every transaction that waits for keys looked at again, in the order of grant. -/
def Hw.advanceAll (h : Hw) : Hw := (h.txns.map (·.id)).foldl (fun h id => h.advance id) h

end Sys2Proof.Machine
end

