-- ==== Sys2Proof/Machine/Random.lean ====
section
/-! DEFINITION. Random sources and share refresh (R362, R373, R374), and the checker that injection arms (R419). -/

namespace Sys2Proof.Machine

/-- The armed checker is the one named: kind, unit, sub-unit, stage; a field that the kind does not use is
not compared (R419). -/
def Hw.injectHits (h : Hw) (kind : Nat) (unit sub stage : Option Nat) : Bool :=
  let s := h.inject.sel
  decide (0 < h.inject.remaining) && fld s 0 4 == kind &&
    (match unit with | some u => fld s 4 4 == u | none => true) &&
    (match sub with | some u => fld s 8 8 == u | none => true) &&
    (match stage with | some u => fld s 16 4 == u | none => true)

/-- One inverted check used; the checker is disarmed when its count is used (R419). -/
def Hw.injectUse (h : Hw) : Hw :=
  let h := { h with inject.remaining := h.inject.remaining - 1 }
  if h.inject.remaining = 0 then h.setF Reg.INJECT_CTL 0 1 0 else h

/-- A check whose outcome is `ok`, inverted when the named checker is armed: the outcome used and whether it
was inverted (R419). An inverted check fails whatever it compares. -/
def Hw.checked (h : Hw) (kind : Nat) (unit sub stage : Option Nat) (ok : Bool) : Hw × Bool × Bool :=
  if h.injectHits kind unit sub stage then
    ({ h.injectUse with inject.fired := if firedSources kind (unit.getD 0) = [] then h.inject.fired else some (kind, unit.getD 0) }, false, true)
  else (h, ok, false)

/-- A saturating field of 8 bits in a register, advanced by one. -/
def Hw.incField8 (h : Hw) (a lo : Nat) : Hw := h.setF a lo 8 (min (h.regF a lo 8 + 1) 255)

/-- TRNG_HEALTH: a health test fails (R373). `rct` is the repetition count test, otherwise the adaptive
proportion test. Three failures within 1 s stop the source until cold reset. -/
def Hw.trngHealth (h : Hw) (rct : Bool) : Hw :=
  if h.regBit Reg.CISTERN_TRNG_STAT 1 then h
  else
    let inj := h.injectHits 9 none (some (if rct then 0 else 1)) none
    let h := if inj then h.injectUse else h
    let h := (h.incField8 Reg.CISTERN_TRNG_STAT (if rct then 8 else 16)).setF Reg.CISTERN_TRNG_STAT 0 1 0
    let h := h.raiseWith ⟨266, BitVec.ofNat 32 (detailWord none none 0 0), 0, 0, 0, inj, []⟩
    let recent := (h.clk.now :: h.cis.healthFails).filter fun t => decide (h.clk.now ≤ t + 1000000000)
    let h := { h with cis.healthFails := recent.take 3 }
    if 3 ≤ recent.length then
      (h.setF Reg.CISTERN_TRNG_STAT 1 1 1).raiseWith ⟨267, BitVec.ofNat 32 (detailWord none none 0 0), 0, 0, 0, inj, []⟩
    else h

/-- A reseed carried out (R374). -/
def Hw.drbgReseedNow (h : Hw) : Hw :=
  ({ h with cis.calls := 0 }.setF Reg.CISTERN_DRBG_STAT 1 1 0).setF Reg.CISTERN_DRBG_STAT 8 24
    (min (h.regF Reg.CISTERN_DRBG_STAT 8 24 + 1) 0xFFFFFF)

/-- TRNG_STARTUP_PASS: the restarted source's start-up test passes; a reseed that waits proceeds (R373, R374). -/
def Hw.trngStartupPass (h : Hw) : Hw :=
  if h.regBit Reg.CISTERN_TRNG_STAT 1 || h.regBit Reg.CISTERN_TRNG_STAT 0 then h
  else
    let h := h.setF Reg.CISTERN_TRNG_STAT 0 1 1
    if h.regBit Reg.CISTERN_DRBG_STAT 1 then h.drbgReseedNow else h

/-- DRBG_RESEED: a reseed falls due; it waits while the source does not run (R374). -/
def Hw.drbgReseed (h : Hw) : Hw :=
  if !h.regBit Reg.CISTERN_DRBG_STAT 0 then h
  else if h.regBit Reg.CISTERN_TRNG_STAT 0 then h.drbgReseedNow
  else h.setF Reg.CISTERN_DRBG_STAT 1 1 1

/-- An operation that may wait for the DRBG: a collective, a DISPATCH or COMBINE that has not begun, or a KEY_OP (R374). -/
def QOp.drbgUser (o : QOp) : Bool := o.opcode == 3 || o.opcode == 0x0D || ((o.opcode == 4 || o.opcode == 5) && !o.started)

/-- DRBG_WAIT_TIMEOUT: an outstanding operation has waited more than 1 ms for the DRBG (R374). -/
def Hw.drbgWaitTimeout (h : Hw) (n i : Nat) : Hw :=
  match h.op n i with
  | none => h
  | some o =>
    if o.st ≠ .issued ∨ h.drbgReady = true ∨ o.drbgUser = false then h
    else if o.opcode = 0x0D then h.keyOpEnd n i (o.field 4 0 8) 8 0
    else h.opEnd n i .stateRefused .rng

/-- SHARE_REFRESH: a fresh mask XORed into both shares of every LIVE slot, in rungs U0 to U4 (R45, R362). -/
def Hw.shareRefresh (h : Hw) : Hw :=
  if h.pow.rung = .u5 then h
  else
    let mask := fun (k : Nat) => Config.freeBits 256 (h.free + k)
    let slots := h.cis.slots.zipIdx.map fun x =>
      if x.1.2.live then (x.1.1, { x.1.2 with share0 := x.1.2.share0 ^^^ mask x.2, share1 := x.1.2.share1 ^^^ mask x.2 }) else x.1
    let h := { h with cis := { h.cis with slots := slots }, free := h.free + slots.length }
    h.incReg Reg.CISTERN_REFRESH_CNT

end Sys2Proof.Machine
end

