-- ==== Sys2Proof/Machine/RegionTable.lean ====
section
/-! DEFINITION. The words of the Region Table, the Region Directory and the granule maps (R89, R92, R96). -/

namespace Sys2Proof.Machine

/-- Number of a class (R89). -/
def RClass.num : RClass → Nat
  | .sealed => 0 | .blind => 1 | .link => 2

/-- Class of a number (R89); 3 is reserved. -/
def RClass.ofNum : Nat → Option RClass
  | 0 => some .sealed | 1 => some .blind | 2 => some .link | _ => none

/-- Number of a region state (R89). -/
def RState.num : RState → Nat
  | .active => 0 | .creating => 1 | .destroying => 2

/-- Region state of a number (R89); 3 is reserved. -/
def RState.ofNum : Nat → Option RState
  | 0 => some .active | 1 => some .creating | 2 => some .destroying | _ => none

/-- Word 5 + k of an entry: share k (R89). -/
def Region.shareWord (r : Region) (k : Nat) : Nat :=
  match r.shares.find? fun s => s.1 == k with
  | some s => s.2.2.toNat + s.2.1 % 1024 * 2 ^ 16 + 2 ^ 31
  | none => 0

/-- Bytes 0 to 59 of a valid entry, as a number (R89). -/
def Region.low (r : Region) : Nat :=
  let w0 := 1 + 2 * r.cls.num + 8 * r.state.num + 32 * b2n r.lqFull + 64 * b2n r.lanes2 + 128 * b2n r.probeOk + 65536 * (r.gen % 65536)
  w0 + r.base % 2 ^ 25 * 2 ^ 32 + r.size % 2 ^ 26 * 2 ^ 64 + r.fill.toNat * 2 ^ 96 + r.family % 65536 * 2 ^ 128 +
    (List.range 8).foldl (fun acc k => acc + r.shareWord k * 2 ^ (32 * (5 + k))) 0

/-- A valid entry as its 64 bytes (R89). -/
def Region.line (r : Region) : Line := BitVec.ofNat 512 (r.low + crc32c r.low 480 * 2 ^ 480)

/-- The shares of an entry's words 5 to 12 (R89). -/
def sharesOf (n : Nat) : List (Nat × Nat × BitVec 4) :=
  (List.range 8).filterMap fun k =>
    let w := bits n (32 * (5 + k)) 32
    if bits w 31 1 = 1 then some (k, bits w 16 10, BitVec.ofNat 4 (bits w 0 4)) else none

/-- An entry of 64 bytes that a walk has read: none where a check of R96 fails. `crcOk` is the CRC's outcome. -/
def regionDecode (l : Line) (crcOk : Bool) : Option Region :=
  let n := l.toNat
  if bits n 0 1 = 0 ∨ crcOk = false then none
  else match RClass.ofNum (bits n 1 2), RState.ofNum (bits n 3 2) with
    | some c, some s =>
      some { cls := c, state := s, lqFull := bits n 5 1 == 1, lanes2 := bits n 6 1 == 1, probeOk := bits n 7 1 == 1, gen := bits n 16 16,
             base := bits n 32 25, size := bits n 64 26, fill := BitVec.ofNat 32 (bits n 96 32), family := bits n 128 16, shares := sharesOf n }
    | _, _ => none

/-- The CRC of an entry's 64 bytes matches (R89). -/
def regionCrcOk (l : Line) : Bool := crc32c (bits l.toNat 0 480) 480 == bits l.toNat 480 32

/-- A directory entry of a whole GiB (R92). -/
def dirWhole (region : Nat) : Word := BitVec.ofNat 32 (1 + 4 * region)

/-- A directory entry that names a map (R92). -/
def dirMapped (m : Nat) : Word := BitVec.ofNat 32 (2 + 4 * m)

/-- A granule map entry (R92). -/
def mapEntry (region : Nat) : Word := BitVec.ofNat 32 (region + 65536)

/-- REGION.MAP_COUNT, larger values taken as 65,536. -/
def Hw.mapCount (h : Hw) : Nat := min (h.regF Reg.REGION_MAP_COUNT 0 17) 65536

/-- What a directory entry says (R92, R96): none where a check fails. -/
def Hw.dirStep (h : Hw) (w : Word) : Option (Option WalkStage) :=
  match fld w 0 2 with
  | 0 => if fld w 2 30 = 0 then some none else none
  | 1 => if fld w 18 14 = 0 then some (some (.table (fld w 2 16))) else none
  | 2 => if fld w 19 13 = 0 ∧ fld w 2 17 < h.mapCount then some (some (.map (fld w 2 17))) else none
  | _ => none

/-- What a granule map entry says (R92, R96). -/
def mapStep (w : Word) : Option (Option WalkStage) :=
  if fld w 17 15 ≠ 0 then none else if bit w 16 then some (some (.table (fld w 0 16))) else some none

/-- Block address of what a walk reads next (R95). -/
def Hw.walkAddr (h : Hw) (g : Nat) : WalkStage → Nat
  | .cached => 0
  | .dir => h.base52 Reg.REGION_DIR_BASE_LO Reg.REGION_DIR_BASE_HI + 4 * (g / 512)
  | .map k => h.base52 Reg.REGION_MAP_BASE_LO Reg.REGION_MAP_BASE_HI + 2048 * k + 4 * (g % 512)
  | .table r => h.base52 Reg.REGION_TABLE_BASE_LO Reg.REGION_TABLE_BASE_HI + 64 * r

end Sys2Proof.Machine
end

