-- ==== Sys2Proof/Machine/Walk.lean ====
section
/-! DEFINITION. The Region Window cache, the Region Table cache and the walks that fill them (R93 to R98, R103). -/

namespace Sys2Proof.Machine

/-- The Region Table cache's entry for a granule (R93). -/
def Hw.rtcFor (h : Hw) (g : Nat) : Option (Nat × Region) := h.gate.rtc.find? fun p => decide (p.2.base ≤ g) && decide (g < p.2.base + p.2.size)

/-- The next read of a walk leaves (R95). -/
def Hw.walkAsk (h : Hw) (slice g : Nat) (st : WalkStage) : Hw :=
  match st with
  | .cached => h
  | .dir => h.dmRead (.walk slice g) none 1 (h.walkAddr g st) 4
  | .map _ => h.dmRead (.walk slice g) none 2 (h.walkAddr g st) 4
  | .table _ => h.dmRead (.walk slice g) none 1 (h.walkAddr g st) 64

/-- First read of a walk: the directory, or the Region Table entry of a listed region (R95, R98). -/
def Resolution.first (r : Resolution) : WalkStage := match r.listed with | some i => .table i | none => .dir

/-- A resolution joins those in flight, one for an aged source ahead of the others (R103), and its walk begins where the Region
Table cache has not answered it (R93, R95). -/
def Hw.queueResolution (h : Hw) (r : Resolution) : Hw :=
  let rs := h.gate.resolutions
  let h : Hw := { h with gate.resolutions :=
    if r.aged.isSome then (rs.filter fun x => x.aged.isSome) ++ [r] ++ (rs.filter fun x => x.aged.isNone) else rs ++ [r] }
  if r.stage = .cached then h else (h.incReg Reg.GATE_WALK_CNT).walkAsk r.slice r.granule r.stage

/-- A resolution before its first read: found already where the Region Table cache holds the entry (R93). -/
def Hw.newResolution (h : Hw) (slice g : Nat) (hit : Option (Nat × Region)) (aged listed : Option Nat) (pins : List Nat) : Resolution :=
  let first := match listed with | some i => WalkStage.table i | none => .dir
  ⟨slice, g, if hit.isSome then .cached else first, false, hit.map some, 0, false, h.gate.era, aged, listed, pins⟩

/-- A place for a window: the least recently hit one that is neither pinned nor kept for an aged source leaves (R98, R103). -/
def Hw.windowRoom (h : Hw) : List Window :=
  if h.gate.windows.length < 256 then h.gate.windows
  else match h.gate.windows.find? fun w => w.pinned == [] && (match w.guard with | some (_, t) => decide (t < h.clk.now) | none => true) with
    | some v => h.gate.windows.erase v
    | none => h.gate.windows

/-- A window placed for a slice's share of a region (R93, R97). DESIGN CHOICE where every window is pinned or kept (log entry 55). -/
def Hw.placeWindow (h : Hw) (slice idx : Nat) (e : Region) (perm : BitVec 4) (aged : Option Nat) : Hw :=
  let room := h.windowRoom
  if room.length < 256 then
    { h with gate.windows := room ++ [⟨slice, e.base, e.size, idx, e.gen, e.cls, e.state, perm, [], aged.map fun s => (s, h.clk.now + 1000)⟩] }
  else h

/-- Pinned windows. -/
def Hw.pinnedCount (h : Hw) : Nat := (h.gate.windows.filter fun w => w.pinned != []).length

/-- The window of a slice for a region pinned for a queue's buffer, at most 192 in all (R98). -/
def Hw.pinWindow (h : Hw) (slice idx n : Nat) : Hw :=
  let room := decide (h.pinnedCount < 192)
  { h with gate.windows := h.gate.windows.map fun w =>
      if w.slice = slice ∧ w.region = idx ∧ n ∉ w.pinned ∧ (w.pinned ≠ [] ∨ room = true) then { w with pinned := w.pinned ++ [n] } else w }

/-- The windows that a queue pinned released, those still to be placed among them (R98). -/
def Hw.unpinWindows (h : Hw) (n : Nat) : Hw :=
  { h with
    gate.windows := h.gate.windows.map fun w => { w with pinned := w.pinned.filter (· ≠ n) }
    gate.resolutions := h.gate.resolutions.map fun r => { r with pins := r.pins.filter (· ≠ n) } }

/-- A window placed for a listed region from the Region Table cache, and pinned (R93, R98). -/
def Hw.placeListed (h : Hw) (s n idx : Nat) (e : Region) : Hw :=
  match e.shares.find? fun x => x.2.1 == s with
  | some x => if e.state = .active then (h.placeWindow s idx e x.2.2 none).pinWindow s idx n else h
  | none => h

/-- The window of a listed region pinned for a queue's buffer: the one that is held, one placed from the Region Table cache, or one
that a resolution will place (R93, R94, R98). DESIGN CHOICE where 16 resolutions are in flight (log entry 55). -/
def Hw.pinListed (h : Hw) (n idx : Nat) : Hw :=
  let s := h.queueSlice n
  if h.gate.windows.any fun w => w.slice == s && w.region == idx then h.pinWindow s idx n
  else match h.gate.rtc.find? fun p => p.1 == idx with
    | some (_, e) => h.placeListed s n idx e
    | none => match h.regions.table.get none idx with
      | none => h
      | some e =>
        if h.gate.resolutions.any fun r => r.slice == s && r.granule == e.base then
          { h with gate.resolutions := h.gate.resolutions.map fun r =>
              if r.slice = s ∧ r.granule = e.base then { r with pins := r.pins ++ [n] } else r }
        else if 16 ≤ h.gate.resolutions.length then h
        else h.queueResolution (h.newResolution s e.base none none (some idx) [n])

end Sys2Proof.Machine
end

