-- ==== Sys2Proof/Machine/Cfe.lean ====
section
/-! DEFINITION. Queues at work: doorbells, fetch, issue, completion of a buffer, resets of a queue, and the
Block Translation Table's invalidation (R260 to R294). -/

namespace Sys2Proof.Machine

/-- FETCHER_IDLE_CHECK: after IDLE_ARMED the fetcher reads tail and PENDING again (R266). -/
def Hw.fetcherIdleCheck (h : Hw) (n : Nat) : Hw :=
  let q := h.queue n
  if q.st ≠ .active ∨ q.idleArmed = false then h
  else if q.tail ≠ q.fetch ∨ q.pending = true then h.setQueue n { q with idleArmed := false, pending := false }
  else if q.run.isSome then h.setQueue n { q with pending := false }
  else h.setQueue n { q with idleArmed := false, st := .idle, out := none }

/-- The reserved bits of a ring entry (R267), each a first bit and a width. -/
def entryReserved : List (Nat × Nat) :=
  [(0, 6), (52, 12), (76, 4), (85, 3), (88, 8), (106, 6), (112, 16), (180, 12), (192, 6), (244, 12),
   (263, 9), (281, 39), (320, 6), (372, 12), (416, 32)]

/-- The reserved fields of the entry are 0 and its counts in range (R269); status_addr is read only with status_en (R267). -/
def Buf.wellFormed (b : Buf) : Bool :=
  (entryReserved.all fun p => b.field p.1 p.2 == 0) && (b.field 83 1 == 0 || b.field 128 6 == 0) && decide (b.field 256 7 ≤ 64) && decide (b.field 272 9 ≤ 256) &&
    !(b.field 80 1 == 1 && (b.field 256 7 != 0 || b.field 272 9 != 0))

/-- Windows of the buffer's list that name a region in which the slice holds a share (R269, R287). -/
def Hw.listedRegion (h : Hw) (slice r : Nat) : Bool :=
  match h.regions.table.get none r with
  | some e => e.shares.any fun s => s.2.1 == slice
  | none => false

/-- A buffer judged when it would start: it starts, or a fault in translation of its reads is recorded and the queue becomes guilty with
cause BAD_ENTRY (R269, R288, R294). -/
def Hw.bufStart (h : Hw) (n : Nat) (b : Buf) : Hw :=
  let s := h.queueSlice n
  let q := h.queue n
  let h := match b.fault with | some (a, kind) => h.bttFault (some n) 0 kind a | none => h
  if b.fault.isSome || !b.wellFormed || !(b.bind.all fun k => h.ownsSlot s k) then
    (h.setQueue n { q with run := some b }).makeGuilty n .badEntry 0
  else
    let keep := b.field 80 1 == 1
    let listed := b.wins.filter fun r => h.listedRegion s r
    let (bind, wins) := if keep then q.ctx else (b.bind, listed)
    let h := h.setQueue n { q with
      run := some { b with bind := bind, wins := wins }, ctx := (bind, wins)
      winSkip := min (q.winSkip + (b.wins.length - listed.length)) 255 }
    wins.foldl (fun h r => h.pinListed n r) h

/-- A queue that is ACTIVE and runs nothing starts the buffer that it has preloaded (R288), or its fetcher arms its idle check at tail
(R266). -/
def Hw.queueGo (h : Hw) (n : Nat) : Hw :=
  let q := h.queue n
  if q.st ≠ .active ∨ q.run.isSome = true then h
  else match q.pre with
    | some b => (h.setQueue n { q with pre := none }).bufStart n b
    | none => h.setQueue n { q with idleArmed := q.fetch == q.tail }

/-- A doorbell judged by its queue (R262, R263, R265). -/
def Hw.doorbell (h : Hw) (n : Nat) (path : BellPath) (t : Nat) : Hw :=
  let q := h.queue n
  let device := h.regBit (Reg.QRING_Qn_CTL n) 1
  if q.st = .off ∨ q.st = .halted then h
  else if (path == .device) != device then h.setQueue n { q with foreign := min (q.foreign + 1) 15 }
  else
    let ahead := (t + 2 ^ 32 - q.fetch) % 2 ^ 32
    let old := (q.tail + 2 ^ 32 - q.fetch) % 2 ^ 32
    if 2 ^ h.ringLog2 n < ahead then (h.setIrq 0x0E 2).makeGuilty n .ringOverflow 0
    else if ahead < old then h.setQueue n { q with backward := min (q.backward + 1) 15 }
    else
      let idle := q.st == .idle
      let h := h.setQueue n { q with tail := t % 2 ^ 32, pending := !idle, st := if idle then .active else q.st }
      if idle && q.pre.isSome then h.queueGo n else h

/-- A buffer as the CFE reads it: the entry, the lists and the operations, with the accesses translated (R269, R292). -/
def Hw.readEntry (h : Hw) (n count : Nat) (entry : Line) (bind wins : List Nat) (ops : List (BitVec 256)) (walk : BttWalk) : Hw × Buf :=
  let s := some (h.queueSlice n)
  let base := (h.reg (Reg.QRING_Qn_BASE_LO n)).toNat + h.regF (Reg.QRING_Qn_BASE_HI n) 0 10 * 2 ^ 32
  let e := entry.toNat
  let parts := [(base + 64 * (count % 2 ^ h.ringLog2 n), 64), (bits e 0 52, 32 * (bits e 64 12 + 1)),
    (bits e 192 52, 2 * bits e 256 7), (bits e 320 52, 2 * bits e 272 9)]
  let (h, fault) := parts.foldl (fun acc p =>
    match acc with
    | (h, some f) => (h, some f)
    | (h, none) => h.bttRange s p.1 p.2 false walk) (h, none)
  (h, { entry := entry, count := count, bind := bind.take (bits e 256 7), wins := wins.take (bits e 272 9),
        ops := (ops.take (bits e 64 12 + 1)).map QOp.fresh, fault := fault, pre := false, stage := 0, first := none, stopped := false, guilty := false })

/-- RING_ENTRY_FETCH: the next entry and its lists are read, and the buffer starts or the queue becomes
guilty (R269). fetch advances, and the fetcher arms its idle check when it reaches tail (R266). -/
def Hw.ringEntryFetch (h : Hw) (n : Nat) (entry : Line) (bind wins : List Nat) (ops : List (BitVec 256)) (walk : BttWalk) : Hw :=
  let q := h.queue n
  if q.st ≠ .active ∨ q.run.isSome = true ∨ q.pre.isSome = true ∨ q.fetch = q.tail then h
  else
    let (h, b) := h.readEntry n q.fetch entry bind wins ops walk
    let q := h.queue n
    let f := (q.fetch + 1) % 2 ^ 32
    (h.setQueue n { q with fetch := f, idleArmed := f == q.tail }).bufStart n b

/-- PRELOAD: the next entry is read while a buffer runs, and its windows are placed and pinned; nothing of
R269 shows until it starts (R288). -/
def Hw.preload (h : Hw) (n : Nat) (entry : Line) (bind wins : List Nat) (ops : List (BitVec 256)) (walk : BttWalk) : Hw :=
  let q := h.queue n
  if q.st ≠ .active ∨ q.run.isNone = true ∨ q.pre.isSome = true ∨ q.fetch = q.tail ∨ h.regBit (Reg.QRING_Qn_CTL n) 4 = false then h
  else
    let (h, b) := h.readEntry n q.fetch entry bind wins ops walk
    let q := h.queue n
    let f := (q.fetch + 1) % 2 ^ 32
    let h := h.setQueue n { q with fetch := f, idleArmed := f == q.tail, pre := some { b with pre := true } }
    let listed := b.wins.filter fun r => h.listedRegion (h.queueSlice n) r
    listed.foldl (fun h r => h.pinListed n r) h

/-- Word 0 of an operation is well formed: its reserved bits are 0 and no after bit reaches before the buffer (R270). -/
def QOp.wordOk (o : QOp) (i : Nat) : Bool :=
  o.field 0 17 15 == 0 && decide (o.field 0 8 8 < 2 ^ i)

/-- Operations that operation `i` waits for under after and barrier (R270). -/
def QOp.deps (o : QOp) (i : Nat) : List Nat :=
  if o.field 0 16 1 = 1 ∨ o.opcode = 0x0B then List.range i
  else ((List.range 8).filter fun k => bits (o.field 0 8 8) k 1 == 1 && decide (k < i)).map fun k => i - 1 - k

/-- The operations of a buffer that are reserved bit patterns of their operands, by opcode: first byte, bit,
width (R273 to R282). Operands of other units are judged by the unit. -/
def operandReserved (opcode : Nat) : List (Nat × Nat × Nat) :=
  match opcode with
  | 0x00 => [(4, 0, 224)]
  | 0x08 => [(4, 12, 4), (16, 4, 4), (17, 4, 116)]
  | 0x09 => [(4, 12, 4), (6, 0, 16), (16, 0, 32), (24, 0, 64)]
  | 0x0A => [(4, 10, 214)]
  | 0x0B => [(4, 1, 223)]
  | 0x0C => [(4, 4, 4), (5, 1, 23), (8, 0, 6), (8, 52, 12), (16, 40, 88)]
  | 0x0E => [(4, 4, 4), (5, 6, 2), (8, 25, 7), (12, 26, 6), (22, 10, 6), (24, 4, 60)]
  | _ => []

/-- The operation is legal in itself as far as the CFE judges it (R270, R273, R276, R281, R282). -/
def QOp.legal (o : QOp) (i : Nat) : Bool :=
  o.wordOk i && decide (o.opcode ≤ 0x0E) && ((operandReserved o.opcode).all fun p => o.field p.1 p.2.1 p.2.2 == 0) &&
  (match o.opcode with
    | 0x08 => o.field 16 3 1 == 0 || (decide (1 ≤ o.field 17 0 4) && decide (o.field 17 0 4 ≤ 9))
    | 0x0C => decide (1 ≤ o.field 16 0 40)
    | 0x0D => decide (o.field 4 0 8 ≤ 3)
    | 0x0E =>
      decide (o.field 4 0 4 ≤ 4) &&
      (o.field 4 0 4 != 0 || (o.field 5 0 2 != 3 && o.field 12 0 26 != 0 && decide (o.field 8 0 25 + o.field 12 0 26 ≤ 2 ^ 25) &&
        (o.field 5 0 2 == 0 || o.field 20 0 16 == 0)))
    | _ => true)

/-- The next operation of a queue that may be issued: the first that waits, every dependency of which has
completed, while at most 15 are outstanding (R271). Nothing is issued past a BARRIER until it has been judged (R279). -/
def Hw.readyOp (h : Hw) (n : Nat) : Option Nat :=
  let q := h.queue n
  if q.st ≠ .active then none
  else match q.run with
    | none => none
    | some b =>
      if b.stopped || decide (16 ≤ (b.ops.filter QOp.outstanding).length) || (b.ops.any fun o => o.outstanding && o.opcode == 0x0B) then none
      else match b.ops.findIdx? fun o => o.st == .waiting with
        | some i => (match b.ops[i]? with
          | some o => if (o.deps i).all fun k => (match b.ops[k]? with | some d => d.ended | none => true) then some i else none
          | none => none)
        | none => none

/-- Transaction Port writes of a slice that are granted and not yet answered (R277). -/
def Hw.openWrites (h : Hw) (s : Nat) : List Nat :=
  (h.txns.filter fun t => t.slice == s && (match t.src with | .utp _ => true | _ => false) &&
    (match t.kind with | .store => true | .add => true | .min => true | .max => true | .cas => true | _ => false) &&
    (match t.stage with | .window => false | _ => true)).map (·.id)

/-- Weight of a slice for issue cycles: REG.SSHARE.cfe (R351). -/
def Hw.cfeWeight (h : Hw) (s : Nat) : Nat := fld (h.rgl.weights.get 0x1010 s) 8 8

/-- Slice `a` is served before slice `b`: a weight of 0 comes after every other, and fewer issue cycles for its weight first (R351). -/
def Hw.sliceAhead (h : Hw) (a b : Nat) : Bool :=
  let wa := h.cfeWeight a
  let wb := h.cfeWeight b
  if (wa == 0) != (wb == 0) then wb == 0
  else if wa = 0 then decide (h.cfe.issues.get 0 a < h.cfe.issues.get 0 b)
  else decide (h.cfe.issues.get 0 a * wb < h.cfe.issues.get 0 b * wa)

/-- The queue that the CFE serves next: the slice that is due among those with an operation ready, and of its ready queues the next
in turn (R271, R351). DESIGN CHOICE for how the proportion is kept (log entry 70). -/
def Hw.nextQueue (h : Hw) : Option Nat :=
  let ready := (List.range 64).filter fun n => (h.readyOp n).isSome
  match ready.map h.queueSlice with
  | [] => none
  | s :: ss =>
    let best := ss.foldl (fun a b => if h.sliceAhead b a then b else a) s
    let mine := ready.filter fun n => h.queueSlice n == best
    let from_ := h.cfe.robin.get 0 best
    match mine.find? fun n => decide (from_ ≤ n) with
    | some n => some n
    | none => mine.head?

/-- An issue cycle counted for the slice of a queue (R351). -/
def Hw.countIssue (h : Hw) (n : Nat) : Hw :=
  let s := h.queueSlice n
  { h with cfe.issues := h.cfe.issues.put 0 s (h.cfe.issues.get 0 s + 1), cfe.robin := h.cfe.robin.put 0 s (n + 1) }

/-- The first operation of a buffer is issued: where it follows another, the switch ends, and its time is recorded (R289). -/
def Hw.firstIssue (h : Hw) (n : Nat) : Hw :=
  let q := h.queue n
  match q.run with
  | none => h
  | some b =>
    if b.first.isSome then h
    else
      let h := h.setQueue n { q with run := some { b with first := some h.clk.now }, out := none }
      match q.out with
      | none => h
      | some (s, d) =>
        let t := if b.field 80 1 = 1 then 64 + d else 64 + 6 * s + (if b.pre then 0 else 2 * b.wins.length) + d
        h.setReg Reg.CFE_SWITCH_LAST (BitVec.ofNat 32 (min t 0xFFFF + 65536 * n))

/-- CFE_ISSUE: the next ready operation of the queue is issued, when it is the queue's turn; one that is illegal in itself completes
MALFORMED (R270, R271, R273). A covering FENCE_SIGNAL takes the writes it waits for (R277). DEDUCED (log entry 11). -/
def Hw.cfeIssue (h : Hw) (n : Nat) : Hw :=
  match h.readyOp n with
  | none => h
  | some i =>
    match h.op n i with
    | none => h
    | some o =>
      if h.nextQueue ≠ some n then h
      else
      let covers := o.opcode == 8 && o.field 16 1 1 == 1
      let s := h.queueSlice n
      let c := h.cfe.covers.get 0 s
      let h := h.modOp n i fun o => { o with
        st := .issued, seq := h.cfe.nextSeq, time := h.clk.now, waits := if covers then h.openWrites s else [], cover := c }
      let h := { h with cfe.nextSeq := h.cfe.nextSeq + 1, cfe.covers := if covers then h.cfe.covers.put 0 s (c + 1) else h.cfe.covers }
      let h := (h.firstIssue n).countIssue n
      if o.legal i then h else h.opEnd n i .malformed .none

/-- An operation that is outstanding under an opcode and has not been taken up by its unit. -/
def Hw.issuedOp (h : Hw) (n i opcode : Nat) : Option QOp :=
  match h.op n i with
  | some o => if o.st = .issued ∧ o.opcode = opcode ∧ o.started = false ∧ o.aborting = false then some o else none
  | none => none

/-- NOP completes OK (R273). -/
def Hw.nop (h : Hw) (n i : Nat) : Hw :=
  match h.issuedOp n i 0 with
  | some _ => h.opEnd n i .ok .none
  | none => h

/-- EVENT_SET sets an event of the slice (R279). -/
def Hw.eventSetOp (h : Hw) (n i : Nat) : Hw :=
  match h.issuedOp n i 0x0A with
  | none => h
  | some o =>
    let e := o.field 4 0 10
    if h.ownsEvent (h.queueSlice n) e then (h.eventSet e).opEnd n i .ok .none else h.opEnd n i .stateRefused .notOwned

/-- BARRIER completes once every earlier operation has; with stop set it aborts the rest after a failure (R279). -/
def Hw.barrierOp (h : Hw) (n i : Nat) : Hw :=
  match h.issuedOp n i 0x0B with
  | none => h
  | some o =>
    let earlier := match (h.queue n).run with | some b => b.ops.take i | none => []
    if o.field 4 0 1 = 1 ∧ (earlier.any fun d => d.doneCode != some .ok) = true then
      (h.opEnd n i .aborted .stopped).skipRest n
    else h.opEnd n i .ok .none

/-- FENCE_WAIT: the wait begins, and the operation completes once it is satisfied (R278, R326). DESIGN CHOICE (log entry 10). -/
def Hw.fenceWaitOp (h : Hw) (n i : Nat) : Hw :=
  match h.op n i with
  | none => h
  | some o =>
    if o.opcode ≠ 9 then h
    else match o.st with
      | .satisfied cc result => h.opComplete n i cc 0 true result
      | .issued =>
        if o.started then h
        else
          let f := h.fence (o.field 4 0 12)
          if !f.mayWait (h.queueSlice n) then h.opEnd n i .stateRefused .notOwned
          else if f.satisfies (BitVec.ofNat 64 (o.field 8 0 64)) then
            h.opComplete n i f.waitCode 0 true (BitVec.ofNat 32 f.value.toNat)
          else h.modOp n i fun o => { o with started := true }
      | _ => h

/-- FENCE_WAIT_TIMEOUT: the wait's timeout has passed, and it completes TIMEOUT (R278). -/
def Hw.fenceWaitTimeout (h : Hw) (n i : Nat) : Hw :=
  match h.op n i with
  | none => h
  | some o =>
    let us := o.field 20 0 32
    if o.opcode = 9 ∧ o.st = .issued ∧ o.started = true ∧ us ≠ 0 then
      h.opComplete n i .timeout 0 true (BitVec.ofNat 32 (h.fence (o.field 4 0 12)).value.toNat)
    else h

/-- Status of a covering FENCE_SIGNAL's writes (R276, R277): ATOMIC_UNCERTAIN before DEAD_TARGET. -/
def Hw.coverStatus (h : Hw) (s c : Nat) : Option CC :=
  if h.cfe.bad.any fun x => x.1 == s && x.2.1 == c && x.2.2.2 then some .atomicUncertain
  else if h.cfe.bad.any fun x => x.1 == s && x.2.1 == c && x.2.2.1 then some .deadTarget
  else none

/-- Error that a FENCE_SIGNAL signals, the first that applies (R276). -/
def Hw.signalStatus (h : Hw) (n i : Nat) (o : QOp) : Option CC :=
  if o.field 16 3 1 = 1 then some (CC.ofNum (o.field 17 0 4))
  else
    let cover := if o.field 16 1 1 = 1 then h.coverStatus (h.queueSlice n) o.cover else none
    match cover with
    | some c => some c
    | none =>
      if o.field 16 2 1 = 1 then
        let b := match (h.queue n).run with | some b => b.ops | none => []
        let codes := (List.range i).filterMap fun k =>
          if k ∈ o.deps i then (match b[k]? with | some d => (match d.doneCode with | some c => if c = .ok then none else some c | none => none) | none => none) else none
        codes.head?
      else none

/-- FENCE_SIGNAL: once its covered writes have had their responses it signals a local fence, or sends
FENCE_REMOTE and waits for the answer (R276, R277). -/
def Hw.fenceSignalOp (h : Hw) (n i : Nat) : Hw :=
  match h.issuedOp n i 8 with
  | none => h
  | some o =>
    let s := h.queueSlice n
    let still := o.waits.filter fun t => t ∈ h.openWrites s
    if still ≠ [] then h.modOp n i fun o => { o with waits := still }
    else
      let err := h.signalStatus n i o
      let f := o.field 4 0 12
      if o.field 16 0 1 = 1 then
        let t := { h.newTxn (.cfe n i) .bulk none s 0 0 with stage := .queued, grantTime := h.clk.now }
        let id := h.newTag
        let h := (h.addTxn t).modOp n i fun o => { o with started := true, txns := [id], code := err.getD .ok }
        h.sendControl (h.fenceRemoteMsg (o.field 6 0 16) f (BitVec.ofNat 64 (o.field 8 0 64)) err id)
      else if (h.fence f).maySignal s then
        (h.fenceSignal f (BitVec.ofNat 64 (o.field 8 0 64)) err h.memberId).opEnd n i (err.getD .ok) .none
      else h.opEnd n i .stateRefused .notOwned

/-- Status entry of an operation (R272): code, detail, cfe flag and result. -/
def QOp.statusBytes (o : QOp) : List Byte :=
  match o.st with
  | .done cc detail isCfe result => leBytes (cc.num + 256 * (detail % 128) + 32768 * b2n isCfe + result.toNat * 2 ^ 32) 8
  | _ => leBytes 0 8

/-- The completion record of a buffer (R268). -/
def Buf.record (b : Buf) : List Byte :=
  let codes := b.ops.map fun o => (o.doneCode.getD .ok)
  let bad := (codes.filter fun c => c != .ok).length
  let first := codes.findIdx fun c => c != .ok
  let skipped := b.ops.any fun o => match o.st with | .done .aborted d true _ => d == Detail.skipped.num | _ => false
  leBytes ((if bad = 0 then 0 else first + 32768) + 65536 * ((if bad = 0 then 0 else (codes[first]?.getD .ok).num) +
    16 * b2n b.guilty + 32 * b2n skipped + 128) + bad * 2 ^ 32) 8

/-- A write of a queue's status entries or completion record has not ended (R268). -/
def Hw.statusOpen (h : Hw) (n : Nat) : Bool :=
  (h.dmp.open_.any fun t => t.use == .status n) || h.dmp.waiting.any fun a => a.use == .status n

/-- Steps 3 to 5 of R268: head, event and interrupt; and the context is released (R289). -/
def Hw.bufEnd (h : Hw) (n : Nat) (b : Buf) : Hw :=
  let q := h.queue n
  let h := h.setQueue n { q with head := (b.count + 1) % 2 ^ 32, run := none }
  let sl := h.slice (h.queueSlice n)
  let h := h.setSlice (h.queueSlice n) { sl with jobs := (sl.jobs + 1) % 2 ^ 48 }
  let h := (h.unpinWindows n).tally 31 1
  let h := if b.field 84 1 = 1 then (if h.ownsEvent (h.queueSlice n) (b.field 96 10) then h.eventSet (b.field 96 10) else h) else h
  if b.field 81 1 = 1 then (h.icuAssert (384 + n)).setIrq 0x0E 0 else h

/-- The reset of a queue ends: it goes to QUARANTINED, STOPPED or IDLE, and from IDLE to ACTIVE where an entry is published or a doorbell
latched (R286). An entry that has been preloaded is not read again (R264). -/
def Hw.resetEnd (h : Hw) (n : Nat) : Hw :=
  let q := h.queue n
  let st := if (h.slice (h.queueSlice n)).quar then QState.quarantined
    else if h.regBit (Reg.QRING_Qn_CTL n) 5 then .stopped
    else if q.tail ≠ q.fetch ∨ q.pending = true ∨ q.pre.isSome = true then .active else .idle
  (h.setQueue n { q with st := st, pending := if st = .active then false else q.pending, idleArmed := false, out := none }).queueGo n

/-- A buffer whose completion record has been written ends, and its queue goes on (R268, R286, R288). -/
def Hw.bufLeave (h : Hw) (n : Nat) (b : Buf) : Hw :=
  let h := h.bufEnd n b
  match (h.queue n).st with
  | .resetting => h.resetEnd n
  | .active => h.queueGo n
  | _ => h

/-- The completion record of a buffer written (R268). -/
def Hw.recordWrite (h : Hw) (n : Nat) (b : Buf) : Hw :=
  let base := (h.reg (Reg.QRING_Qn_BASE_LO n)).toNat + h.regF (Reg.QRING_Qn_BASE_HI n) 0 10 * 2 ^ 32
  (h.setQueue n { h.queue n with run := some { b with stage := 2 } }).dmWrite (.status n) (some n) 0
    (base + 64 * (b.count % 2 ^ h.ringLog2 n) + 56) b.record

/-- The completion of a buffer goes on once no write of it is outstanding: after the status entries the record, and then the rest (R268).
A write that fails leaves what it was to write unwritten. -/
def Hw.bufStep (h : Hw) (n : Nat) : Hw :=
  match (h.queue n).run with
  | none => h
  | some b =>
    if h.statusOpen n then h
    else match b.stage with
      | 0 => h
      | 1 => h.recordWrite n b
      | _ => h.bufLeave n b

/-- The completion of a buffer begins: its status entries are written, where it has them, and then its record (R268). -/
def Hw.bufFinish (h : Hw) (n : Nat) : Hw :=
  match (h.queue n).run with
  | none => h
  | some b =>
    if b.stage ≠ 0 then h
    else
      let h := h.setQueue n { h.queue n with run := some { b with stage := 1 } }
      (if b.field 83 1 = 1 then h.dmWrite (.status n) (some n) 0 (b.field 128 52) (b.ops.flatMap QOp.statusBytes) else h).bufStep n

/-- BUFFER_COMPLETE: the last operation of the running buffer has completed (R268). `drain` is D of R289, as it is measured. -/
def Hw.bufferComplete (h : Hw) (n : Nat) (drain : Nat) : Hw :=
  let q := h.queue n
  match q.run with
  | none => h
  | some b =>
    if q.st = .resetting ∨ b.stage ≠ 0 ∨ b.ops.all QOp.ended = false then h
    else (h.setQueue n { q with out := some ((b.bind.filter fun k => (h.slot k).live).length, drain) }).bufFinish n

/-- QUEUE_RESET_END: every operation of the reset queue has completed: its record is written, and the reset ends (R285, R286). -/
def Hw.queueResetEnd (h : Hw) (n : Nat) : Hw :=
  let q := h.queue n
  if q.st ≠ .resetting then h
  else match q.run with
    | none => h.resetEnd n
    | some b => if b.ops.all QOp.ended then h.bufFinish n else h

/-- BUF_LIMIT: a buffer has run longer than Qn_LIMIT since its first issue: its oldest incomplete operation
completes TIMEOUT and the queue becomes guilty (R284). -/
def Hw.bufLimit (h : Hw) (n : Nat) : Hw :=
  let q := h.queue n
  let ms := h.regF (Reg.QRING_Qn_LIMIT n) 0 16
  match q.run with
  | none => h
  | some b =>
    match b.first, b.ops.findIdx? fun o => !o.ended with
    | some _, some i =>
      if q.st = .active ∧ ms ≠ 0 then
        let result := match h.op n i with | some o => if o.opcode = 9 then h.waitValue o else 0 | none => 0
        (h.opDone n i .timeout 0 true result).makeGuilty n .bufLimit i
      else h
    | _, _ => h

/-- QRESET: a write to QRING.QRESET resets a queue that is ACTIVE, IDLE or QUARANTINED (R284, R285). -/
def Hw.qreset (h : Hw) (value : Word) : Hw :=
  let n := fld value 0 6
  let q := h.queue n
  if bit value 31 && (q.st == .active || q.st == .idle || q.st == .quarantined) then
    let i := match q.run with | some b => (b.ops.findIdx? fun o => !o.ended).getD 0 | none => 0
    h.makeGuilty n .driver i
  else h

/-- The fields of Qn_CTL that may change only while the queue is OFF: producer, strict, admin, size and slice (R260). -/
def ctlFixed : Word := 0x03FF0F0E

/-- State of a queue that would be in `st` outside quarantine (R122, R262). -/
def Hw.orQuarantined (h : Hw) (n : Nat) (st : QState) : QState := if (h.slice (h.queueSlice n)).quar then .quarantined else st

/-- A queue enabled or its enable cleared (R262). Its counts clear when enable is set. A HALTED queue goes OFF with the end of the
removal. -/
def Hw.queueEnable (h : Hw) (n : Nat) (on : Bool) : Hw :=
  let q := h.queue n
  let a := Reg.QRING_Qn_CTL n
  if on then
    if q.st = .off then
      (h.setQueue n { Queue.off with st := h.orQuarantined n .idle, tail := q.tail, fetch := q.fetch, head := q.head, pre := q.pre }).setF a 0 1 1
    else h
  else if q.st = .off then h
  else if q.st = .halted then h.setF a 0 1 0
  else if q.st = .idle ∨ q.st = .stopped then (h.setQueue n { q with st := .off }).setF a 0 1 0
  else h.pageFault 0x0E .busyWrite

/-- A queue resumed: it leaves STOPPED for ACTIVE when an entry or a doorbell waits, and for IDLE otherwise (R262); while its slice is
quarantined, for QUARANTINED (R122). -/
def Hw.queueResume (h : Hw) (n : Nat) : Hw :=
  let q := h.queue n
  if q.st = .stopped then
    let st := h.orQuarantined n (if q.tail ≠ q.fetch ∨ q.pending = true ∨ q.pre.isSome = true then .active else .idle)
    (h.setQueue n { q with st := st, pending := q.pending && st == .quarantined, idleArmed := false }).queueGo n
  else h

/-- A write of Qn_CTL: one that changes a fixed field outside OFF is ignored; otherwise the fields take their values, then enable and
resume act (R260, R262). -/
def Hw.ctlWrite (h : Hw) (n : Nat) (value : Word) : Hw :=
  let a := Reg.QRING_Qn_CTL n
  let old := h.reg a
  let off := (h.queue n).st == .off
  if !off && (old &&& ctlFixed) != (value &&& ctlFixed) then h.pageFault 0x0E .busyWrite
  else
    let h := if off then h.setReg a ((old &&& 1) ||| (value &&& 0x03FF0F3E)) else h.setReg a ((old &&& (ctlFixed ||| 1)) ||| (value &&& 0x30))
    let h := h.queueEnable n (bit value 0)
    if bit value 6 then h.queueResume n else h

/-- QUEUE_ENABLE: a write to Qn_CTL (R260, R262). -/
def Hw.queueEnableWrite (h : Hw) (n : Nat) (value : Word) : Hw := h.ctlWrite n value

/-- QUEUE_RESUME: a write to Qn_CTL.resume (R262). -/
def Hw.queueResumeWrite (h : Hw) (n : Nat) (value : Word) : Hw := h.ctlWrite n value

/-- A queue's ring base written, only while it is OFF (R260). -/
def Hw.ringBaseWrite (h : Hw) (n : Nat) (high : Bool) (value : Word) : Hw :=
  let a := if high then Reg.QRING_Qn_BASE_HI n else Reg.QRING_Qn_BASE_LO n
  let v := if high then value &&& 0x3FF else value &&& 0xFFFFF000
  if (h.queue n).st = .off then h.setReg a v
  else if h.reg a = v then h else h.pageFault 0x0E .busyWrite

end Sys2Proof.Machine
end

