-- ==== Sys2Proof/Machine/SealLoad.lean ====
section
/-! DEFINITION. SEAL answers: etag resolution, decryption, the MAC check, the late alarm and the quarantine
(R112 to R126). -/

namespace Sys2Proof.Machine

/-- Line index within its granule. -/
def lineInGranule (addr : Nat) : Nat := bits addr 6 15

/-- The epoch below which no line is live: at the home, below PUMP.CURSOR of the WET granule, that granule's epoch E (R149). -/
def Hw.lineFloor (h : Hw) (addr : Nat) : Nat :=
  match h.pump.wet with
  | some w => if w.granule = granuleOf addr ∧ lineInGranule addr < w.cursor then w.epoch else 0
  | none => 0

/-- The live epoch of an entry that an etag names (R113). -/
def epochOf (epoch emin floor etag : Nat) : Option Nat :=
  (liveEpochs epoch emin).find? fun e => e % 4 == etag && decide (floor ≤ e)

/-- Epoch under which a line is opened, by its etag: of the record made at the grant, else of the entry read again (R113). -/
def Hw.lineEpoch (h : Hw) (t : Txn) (addr etag : Nat) : Option Nat :=
  let floor := h.lineFloor addr
  match epochOf t.epoch t.emin floor etag with
  | some e => some e
  | none => t.again.bind fun a => epochOf a.1 a.2 floor etag

/-- Address of line `k` of a transaction. -/
def Txn.lineAddr (t : Txn) (k : Nat) : Nat := t.addr.toNat + 64 * k

/-- A key set for the epoch can be used (R372): a family without one makes its lines not live. -/
def Hw.epochUsable (h : Hw) (t : Txn) (e : Nat) : Bool := h.keySetFor t.family e t.id || h.mayDerive t.family e

/-- One line of an answer: what is released in its place, and how it stands (R112, R113, R120, R126). The MAC
compare of the cluster of the port may be inverted (R419). -/
def Hw.openAnswer (h : Hw) (t : Txn) (addr : Nat) (l : SealedLine) : Hw × Line × LineCheck :=
  match h.lineEpoch t addr l.etag with
  | none => (h, fillLine t.fill, .stale)
  | some e =>
    if !h.epochUsable t e then (h, fillLine t.fill, .stale)
    else
      let (plain, ok) := h.openLine (h.serving ((t.port.map (·.val)).getD 0)) t.family e addr l
      let (h, ok, _) := h.checked 6 (t.port.map (·.val)) none none ok
      (h, plain, if ok then .pass else .macFail)

/-- Lines that an answer must hold (R118, R125): for a group read, line 0's lc + 1, or 4 when no line came. -/
def Txn.expected (t : Txn) (lines : List SealedLine) : Nat :=
  if t.arg = 1 then (match lines with | l :: _ => l.lc + 1 | [] => 4) else t.lines

/-- Every line of an answer, in order, each resolved on its own; a line that the answer does not carry has failed (R118, R125). The
rules speak of an answer with fewer or more lines than asked only for group reads: a line read treats a missing line alike, as one that
fails its MAC, and does not use a line beyond those asked. DESIGN CHOICE (log entry 59). -/
def Hw.openAll (h : Hw) (t : Txn) (lines : List SealedLine) : Hw × List Line × List LineCheck :=
  let lc0 := match lines with | l :: _ => l.lc | [] => 3
  (List.range (t.expected lines)).foldl (fun acc k =>
    let (h, ls, cs) := acc
    match lines[k]? with
    | none => (h, ls ++ [fillLine t.fill], cs ++ [.missing])
    | some l =>
      let (h, p, c) := h.openAnswer t (t.lineAddr k) l
      let c := if t.arg = 1 ∧ l.lc ≠ lc0 ∧ c = .pass then .macFail else c
      (h, ls ++ [p], cs ++ [c])) (h, [], [])

/-- Failed lines of an answer as a mask (R118). -/
def failMask (cs : List LineCheck) : Nat :=
  (List.range cs.length).foldl (fun acc k => if cs[k]? = some .pass then acc else acc + 2 ^ k) 0

/-- Queues of a slice. -/
def Hw.queuesOf (h : Hw) (s : Nat) : List Nat := (List.range 64).filter fun n => h.queueSlice n == s && (h.queue n).st != .off

/-- Quarantined slices, as SEAL.QUAR_STAT shows them. -/
def Hw.quarCount (h : Hw) : Nat := (h.obj.slices.filter fun p => p.2.quar).length

/-- SEAL.QUAR_STAT.count and .any. -/
def Hw.quarStat (h : Hw) : Hw :=
  (h.setF Reg.SEAL_QUAR_STAT 0 11 h.quarCount).setF Reg.SEAL_QUAR_STAT 31 1 (b2n (0 < h.quarCount))

/-- A slice quarantined: its queues start no further operation (R122). -/
def Hw.quarantine (h : Hw) (s : Nat) : Hw :=
  let v := h.slice s
  if !h.regBit Reg.SEAL_ALARM_CTL 0 || v.quar || v.st != .active then h
  else
    let h := h.setSlice s { v with quar := true }
    let h := (h.queuesOf s).foldl (fun h n =>
      let q := h.queue n
      if q.st = .active ∨ q.st = .idle then h.setQueue n { q with st := .quarantined } else h) h
    (h.quarStat.setF Reg.SEAL_QUAR_STAT 16 10 s).setIrq 0x06 3

/-- A queue that leaves the quarantine resumes at its next operation, or goes IDLE where nothing is published or running (R122, R262). -/
def Hw.queueRelease (h : Hw) (n : Nat) : Hw :=
  let q := h.queue n
  if q.st ≠ .quarantined then h
  else
    let busy := q.run.isSome || q.pre.isSome || q.tail != q.fetch
    (h.setQueue n { q with st := if busy then .active else .idle, pending := false }).queueGo n

/-- A slice released from quarantine. -/
def Hw.quarRelease (h : Hw) (s : Nat) : Hw :=
  let v := h.slice s
  if v.quar then ((h.queuesOf s).foldl (fun h n => h.queueRelease n) (h.setSlice s { v with quar := false })).quarStat else h

/-- QUAR_REL: a write to SEAL.QUAR_REL (R122). -/
def Hw.quarRel (h : Hw) (value : Word) : Hw := if bit value 31 then h.quarRelease (fld value 0 10) else h

/-- The alarm of a beat, by its lowest failed line, with the quarantine for released data (R119, R121, R122). -/
def Hw.alarm (h : Hw) (t : Txn) (port : Fin 8) (verified : Bool) : Hw :=
  match t.checks.findIdx? fun c => c != .pass with
  | none => h
  | some k =>
    let stale := t.checks[k]? == some .stale
    let a := t.lineAddr k
    let m := failMask t.checks
    let h := h.incReg (if stale then Reg.SEAL_STALE_CNT else Reg.SEAL_ALARM_CNT)
    let h := h.setReg Reg.SEAL_LAST_ALARM (BitVec.ofNat 32 (port.val + 16 * t.tag.toNat + 16384 * t.slice + 16777216 * (m % 16) +
      b2n stale * 2 ^ 28 + b2n verified * 2 ^ 30 + 2 ^ 31))
    let h := (h.setReg Reg.SEAL_LAST_ADDR_LO (BitVec.ofNat 32 (a / 64 * 64 % 2 ^ 32))).setReg Reg.SEAL_LAST_ADDR_HI (BitVec.ofNat 32 (a / 2 ^ 32))
    let h := (h.setIrq 0x06 (b2n stale)).raise (if stale then 219 else 218) t.detail (a % 2 ^ 32) (a / 2 ^ 32) (m % 16 + 16 * b2n verified)
    if verified then h else h.quarantine t.slice

/-- The strobe of a beat that has been transferred (R57, R119). -/
def Hw.strobe (h : Hw) (t : Txn) (port : Fin 8) : Hw :=
  (((h.emit (.untrusted port t.tag (BitVec.ofNat 4 (failMask t.checks)))).tally 14 1).alarm t port false).modTxn t.id fun t => { t with checks := [] }

/-- A line of the transaction's answer has failed. -/
def Txn.failed (t : Txn) : Bool := t.checks.any fun c => c != .pass

/-- Transferred beats of a port whose window is open, the first transferred first (R52, R57). -/
def Hw.windows (h : Hw) (p : Fin 8) : List Txn := h.txns.filter fun t => t.src == .utp p && t.stage == .window

/-- The strobes of a port that are due: those of its checked beats before which every beat has been checked (R57). -/
def Hw.strobes (h : Hw) (p : Fin 8) : Hw :=
  (((h.windows p).takeWhile Txn.checked).filter Txn.failed).foldl (fun h t => h.strobe t p) h

/-- Lines of a copy's transfer written to device memory, with its failures (R129, R130). -/
def Hw.copyLines (h : Hw) (n i : Nat) (t : Txn) (extra : Nat) (lines : List Line) (cs : List LineCheck) (noLine : Bool) : Hw :=
  match h.op n i with
  | none => h
  | some o =>
    let h := h.opWrite n i (o.devOf t) (lines.flatMap lineBytes)
    let h := if t.arg = 1 then h.emit (.dmCode (o.field 28 0 32 * 2 ^ 20) ((t.addr.toNat - o.poolAddr) / 256) (if noLine then 3 else lines.length - 1)) else h
    let bad := (cs.filter fun c => c != .pass).length + extra
    let first := match cs.findIdx? fun c => c != .pass with | some k => t.lineAddr k + 1 | none => t.lineAddr lines.length + 1
    if bad = 0 then h
    else h.modOp n i fun o => { o with count := o.count + bad, mark := if o.mark = 0 then first else min o.mark first }

/-- Lines not moved by a group transfer (SEAL.SAVED_LINES). -/
def Hw.savedLines (h : Hw) (n : Nat) : Hw := h.addReg Reg.SEAL_SAVED_LINES n

/-- A SEAL answer whose lines have been resolved is given to its requester (R116 to R121, R130, R187). -/
def Hw.sealRelease (h : Hw) (id : Nat) (lines : List SealedLine) : Hw :=
  match h.txn id with
  | none => h
  | some t =>
    let (h, plain, cs) := h.openAll t lines
    let extra := lines.length - plain.length
    match t.src with
    | .utp _ =>
      (h.modTxn id fun t => { t with
        stage := if t.verified then .held else .ready, answer := plain, checks := cs, checked := false, data := [] }).endTransient id
    | .cfe n i =>
      if t.kind = .copyOut then
        let h := (h.copyLines n i t extra plain cs (lines == [])).tally (130 + t.arg) plain.length
        let h := if t.arg = 1 then h.savedLines (4 - min plain.length 4) else h
        ((h.endTransient id).dropTxn id).opTxnEnd n i id (if (cs.any fun c => c != .pass) || 0 < extra then .authFail else .ok)
      else
        let h := ((h.endTransient id).dropTxn id).modOp n i fun o => { o with txns := o.txns.filter (· ≠ id) }
        (h.shapeGot n i id plain (cs.all fun c => c == .pass)).opSettle n i
    | .gateway =>
      let h := (h.endTransient id).dropTxn id
      match h.gw.find? fun x => x.txn == id with
      | some r => ({ h with gw := h.gw.filter fun x => x.txn != id } : Hw).gwAnswer r 0 (cs.filter fun c => c != .pass).length (plain.map fun l => ⟨l, 0⟩)
      | none => h
    | .left => (h.endTransient id).dropTxn id
    | _ => h

/-- A read of an entry at its home starts, unless one is in progress for the granule (R113, R140). -/
def Hw.startFill (h : Hw) (g : Nat) : Hw :=
  if h.gkt.fills.any fun f => f.granule == g then h
  else
    let home := h.homeOf g
    if h.homesHere g then
      ({ h with gkt.fills := h.gkt.fills ++ [({ granule := g, home := home, txn := none, overtaken := false, retried := false } : GktFill)] } : Hw).partAsk g
    else
      let id := h.newTag
      let t := { h.newTxn .gktFetch .load none 0 (BitVec.ofNat 46 (g * 2 ^ 21)) 0 with arg := 2 }
      let h := (h.addTxn t).incReg Reg.GKT_FETCH_CNT
      let h : Hw := { h with gkt.fills := h.gkt.fills ++ [({ granule := g, home := home, txn := some id, overtaken := false, retried := false } : GktFill)] }
      h.sendControl (h.controlMsg .gktGet (some home) g id (inlineOf [(0, g)]))

/-- The lines of a waiting answer resolved once its granule's entry has been read again, where a line needs it, and its key sets are
there (R113, R371). -/
def Hw.resolveAnswer (h : Hw) (id : Nat) : Hw :=
  match h.txn id with
  | none => h
  | some t => if t.stage = .resolving ∧ t.keyed = true ∧ h.keyMissing t = [] then h.sealRelease id t.data else h

/-- A SEAL answer: each line's etag is resolved against the record; a line that names no live epoch makes the
block read the granule's entry from its home (R113). -/
def Hw.sealAnswer (h : Hw) (id : Nat) (lines : List SealedLine) : Hw :=
  match h.txn id with
  | none => h
  | some t =>
    let unresolved := (List.range (t.expected lines)).any fun k =>
      match lines[k]? with | some l => (h.lineEpoch t (t.lineAddr k) l.etag).isNone | none => false
    let h := h.modTxn id fun t => { t with stage := .resolving, keyed := !unresolved, data := lines }
    if unresolved then (h.incReg Reg.SEAL_REFETCH_CNT).startFill (granuleOf t.addr.toNat) else h.resolveAnswer id

/-- SEAL_MAC_CHECK_DONE: the MAC check of an answer ends (R57, R117, R121). -/
def Hw.sealMacCheckDone (h : Hw) (id : Nat) : Hw :=
  match h.txn id with
  | none => h
  | some t =>
    match t.src with
    | .utp p =>
      if t.checked ∨ t.checks = [] then h
      else
        let h := h.modTxn id fun t => { t with checked := true }
        match t.stage with
        | .held =>
          if t.failed then
            (h.modTxn id fun t => { t with stage := .ready, status := .authFail, answer := t.blank .deadTarget, checks := [] }).alarm t p true
          else h.modTxn id fun t => { t with stage := .ready }
        | .window => h.strobes p
        | _ => h
    | _ => h

end Sys2Proof.Machine
end

