-- ==== Sys2Proof/Machine/Gkt.lean ====
section
/-! DEFINITION. Granule keys at work: misses, fills, GKT_GET and GKT_ENTRY, notices and acknowledgements, key-set
derivation and retirement (R137 to R145, R159, R371). The home's open rounds stand here too, since a round and
its acknowledgements change one another. -/

namespace Sys2Proof.Machine

/-- A fill is over: the transaction of its GKT_GET is no longer outstanding. -/
def Hw.endFill (h : Hw) (f : GktFill) : Hw :=
  let h := { h with gkt.fills := h.gkt.fills.filter fun x => x.granule != f.granule }
  match f.txn with | some id => (h.dropWork id).dropTxn id | none => h

/-- Transactions that wait for the entry of a granule (R140). -/
def Txn.waitsEntry (t : Txn) (g : Nat) : Bool :=
  t.cls == some .sealed && !t.keyed && granuleOf t.addr.toNat == g && (t.stage == .awaitData || t.stage == .keyWait || t.stage == .resolving)

/-- Every waiting transaction and answer looked at again. -/
def Hw.keysChanged (h : Hw) : Hw := (h.txns.map (·.id)).foldl (fun h id => (h.advance id).resolveAnswer id) h

/-- A fill that has ended with an entry: it is cached, and what waits for it goes on (R113, R140). -/
def Hw.fillDone (h : Hw) (f : GktFill) (e : GktEntry) : Hw :=
  let h := (h.endFill f).gktPlace f.granule e
  ({ h with txns := h.txns.map fun (t : Txn) => 
    if t.waitsEntry f.granule then (if t.stage = .resolving then { t with keyed := true, again := some (e.epoch, e.emin) } else t.record e) else t } : Hw).keysChanged

/-- A fill that has ended without an entry: the SEAL requests that wait for it complete DEAD_TARGET at once (R137, R139). -/
def Hw.fillFailed (h : Hw) (f : GktFill) (homeDead : Bool) : Hw :=
  let waiting := (h.txns.filter fun t => t.waitsEntry f.granule).map (·.id)
  let h := (h.endFill f).gktError homeDead f.granule f.home
  waiting.foldl (fun h id => h.finishTxn id .deadTarget) h

/-- GKT_CACHE_MISS: a request needs an entry missing from the cache (R140). -/
def Hw.gktCacheMiss (h : Hw) (id : Nat) : Hw :=
  match h.txn id with
  | none => h
  | some t =>
    let g := granuleOf t.addr.toNat
    if !t.waitsEntry g || t.stage = .resolving then h
    else match h.cached g with
      | some e => ((h.gktTouch g).modTxn id fun t => t.record e).advance id
      | none => (h.incReg Reg.GKT_MISS_CNT).startFill g

/-- The word that a read of this partition returns, none for an error flag. -/
def Hw.readWord (h : Hw) (g : Nat) (r : MemRead) : Option (BitVec 64) :=
  match r with
  | .error => none
  | .stored => some (h.partWord g)
  | .other c => some (BitVec.ofNat 64 c.toNat)

/-- A read of this partition within a command: it is translated and leaves, and gives none where it faults in translation or completes
with an error flag (R62, R137, R294). -/
def Hw.partTry (h : Hw) (g : Nat) (r : MemRead) (walk : BttWalk) : Hw × Option (BitVec 64) :=
  let a := h.partAddr g
  match h.bttCheck none a false walk with
  | (h, some kind) => (h.bttFault none 3 kind a, none)
  | (h, none) =>
    let h := h.emit (.dmRead h.dmId (match h.bttCached (pageNo a) with | some e => physOf e a | none => 0) 8)
    match h.readWord g r with
    | some w => (h, some w)
    | none => (h.raise 200 (detailWord none none 0 0) 0 0 0, none)

/-- A word of this partition judged; its CRC check may be inverted (R137, R419). -/
def Hw.partJudge (h : Hw) (w : BitVec 64) : Hw × Option GktEntry :=
  let (h, ok, _) := h.checked 5 (some 1) none none (gktCrcOk w)
  (h, if ok && gktUsable w then some (gktDecode w) else none)

/-- An entry of this partition read within a command, once more where the read fails, and judged: none where it is unusable (R137). -/
def Hw.partFetch (h : Hw) (g : Nat) (reads : MemRead × MemRead) (walk : BttWalk) : Hw × Option GktEntry :=
  let (h, w) := h.partTry g reads.1 walk
  let (h, w) := match w with | none => h.partTry g reads.2 walk | some w => (h, some w)
  match w with | some w => h.partJudge w | none => (h, none)

/-- What the reads of a granule's entry return. -/
def readsOf (reads : PartReads) (g : Nat) : MemRead × MemRead := Tbl.get reads (.stored, .stored) g

/-- GKT_PARTITION_READ: a read of the member's own partition that a fill waits for completes (R137, R140). -/
def Hw.gktPartitionRead (h : Hw) (g : Nat) (r : MemRead) : Hw :=
  match h.gkt.fills.find? fun f => f.granule == g && f.txn == none, h.dmOpen (.partition g) with
  | some f, some t =>
    let w := h.readWord g r
    let (h, bad) := h.dmClose t w.isNone
    match (if bad then none else w) with
    | none =>
      if f.retried then h.fillFailed f false
      else
        ({ h with gkt.fills := h.gkt.fills.map fun (x : GktFill) => if x.granule = g then { x with retried := true } else x } : Hw).partAsk g
    | some w =>
      let (h, e) := h.partJudge w
      match e with
      | some e => h.fillDone f e
      | none => h.fillFailed f false
  | _, some t => (h.dmClose t (h.readWord g r).isNone).1
  | _, none => h

/-- GKT_GET: a home answers with the entry, or with NO_TARGET when the entry is unusable (R137, R140). -/
def Hw.gktGet (h : Hw) (m : Message) (first second : MemRead) (walk : BttWalk) : Hw :=
  let g := inlineField m.inlineArea 0 25
  let (h, e) := h.partFetch g (first, second) walk
  match e with
  | some e => h.sendControl (h.answerMsg m.hdr 0x21 3 0 (inlineOf [(0, g), (8, e.word.toNat)]) [])
  | none => (h.gktError false g h.memberId).sendControl (h.answerMsg m.hdr 0x20 3 2 0 [])

/-- Flits of a message that go to the Stale Sump, each counted, with header words 0 and 5 of the last kept (R183). -/
def Hw.sumpFlits (h : Hw) (p : Fin 16) (m : Message) (n : Nat) (slot : Bool) : Hw :=
  let h := ((h.addReg (if slot then Reg.LINK_SUMP_SLOT else Reg.LINK_SUMP_UNMATCHED) n).tally 154 n).setReg Reg.LINK_SUMP_LAST
    (BitVec.ofNat 32 (m.hdr.op.toNat + 256 * p.val + 4096 * b2n slot + 2 ^ 31))
  ({ h with sumpWords := (m.hdr.bits.setWidth 32, m.hdr.txn) } : Hw).setIrq 0x09 3

/-- A message that goes to the Stale Sump (R183). -/
def Hw.sump (h : Hw) (p : Fin 16) (m : Message) (slot : Bool) : Hw := h.sumpFlits p m m.flits slot

/-- GKT_ENTRY, or a NO_TARGET answer to a GKT_GET: the cache is filled, or the answer is discarded and fetched
again (R137, R140, R143). -/
def Hw.gktEntry (h : Hw) (p : Fin 16) (m : Message) : Hw :=
  match h.gkt.fills.find? fun f => f.txn == some m.hdr.txn.toNat with
  | none => h.sump p m false
  | some f =>
    let w := BitVec.ofNat 64 (inlineField m.inlineArea 8 64)
    if m.hdr.status = 2 then h.fillFailed f true
    else if f.overtaken then ((h.endFill f).incReg Reg.GKT_DISCARD_CNT).startFill f.granule
    else
      let (h, ok, _) := h.checked 5 (some 1) none none (gktCrcOk w)
      if ok then h.fillDone f (gktDecode w) else h.fillFailed f true

/-- The granule lies in a range. -/
def inRange (g first count : Nat) : Bool := decide (first ≤ g) && decide (g < first + count)

/-- Fetches of a home's granules that a notice covers are overtaken (R143). -/
def Hw.overtake (h : Hw) (home : Nat) (p : Nat → Bool) : Hw :=
  { h with gkt.fills := h.gkt.fills.map fun f => if f.home == home && p f.granule then { f with overtaken := true } else f }

/-- SEAL writes to a range that have been granted and have not completed (R142). -/
def Hw.openSealWrites (h : Hw) (p : Nat → Bool) : List Nat :=
  (h.txns.filter fun t => t.cls == some .sealed && t.kind.writes && p (granuleOf t.addr.toNat) && t.stage != .ready && t.stage != .window).map (·.id)

/-- A notice that covers pinned entries starts their fetches at once (R301). -/
def Hw.refetchPinned (h : Hw) (hit : Nat → Bool) : Hw :=
  (h.gkt.pinned.eraseDups.filter hit).foldl (fun h g => h.startFill g) h

/-- A GKT_OPEN applied (R141, R142). -/
def Hw.applyOpen (h : Hw) (home first count seq txn : Nat) : Hw :=
  let hit := fun (g : Nat) => inRange g first count && h.homeOf g == home
  let held := h.gkt.cache.filter fun p => hit p.1
  let keys := held.map fun p => (p.2.family, p.2.epoch + 1)
  let stores := h.openSealWrites fun g => inRange g first count
  let h := ((h.gktDrop fun p => hit p.1).overtake home fun g => inRange g first count).incReg Reg.GKT_NOTICE_CNT
  let h := h.refetchPinned hit
  if h.gkt.acks.any fun a => a.home == home && a.seq == seq then h
  else { h with gkt.acks := h.gkt.acks ++ [⟨home, seq, txn, stores, keys⟩] }

/-- GKT_OPEN: a member applies a home's notice (R141). -/
def Hw.gktOpen (h : Hw) (m : Message) : Hw :=
  if !h.joined then h
  else h.applyOpen m.hdr.src.toNat (inlineField m.inlineArea 4 32) (inlineField m.inlineArea 8 32) (inlineField m.inlineArea 12 16)
    m.hdr.txn.toNat

/-- GKT_CLOSE: a member overwrites each entry that it holds cached for those granules with the carried epoch and dual (R141). The
notice carries no pstate: the entry's goes to IDLE, which is what the home has written. DESIGN CHOICE (log entry 60). -/
def Hw.gktClose (h : Hw) (m : Message) : Hw :=
  let n := inlineField m.inlineArea 0 8
  let recs := (List.range (min n 16)).map fun k =>
    let r := inlineField m.inlineArea (8 + 8 * k) 64
    (bits r 0 25, bits r 25 16, bits r 41 1 == 1)
  let home := m.hdr.src.toNat
  if !h.joined then h
  else
    let h := (h.overtake home fun g => recs.any fun r => r.1 == g).incReg Reg.GKT_NOTICE_CNT
    let h := recs.foldl (fun h r => h.gktUpdate r.1 fun e => { e with epoch := r.2.1, dual := r.2.2, pstate := 0 }) h
    h.refetchPinned fun g => recs.any fun r => r.1 == g

/-- Everything that GKT_ACK waits for has happened (R142). -/
def Hw.ackDue (h : Hw) (a : PendingAck) : Bool :=
  (a.keys.all fun k => h.hasKeySet k.1 k.2) &&
  (a.stores.all fun id => match h.txn id with | some t => t.stage == .ready || t.stage == .window | none => true)

/-- Granules of a range that are in OPENING, QUEUED, WET or CLOSING in this partition. -/
def Hw.granuleState (h : Hw) (g : Nat) : Nat := match h.partEntry g with | some e => e.pstate | none => 7

/-- A granule's entry has been found unusable: GKT_CORRUPT, nothing is written, and the granule leaves its round and the work list,
whose range ends with DEAD_TARGET (R137, R157). -/
def Hw.granuleUnusable (h : Hw) (g : Nat) : Hw :=
  let h := h.gktError false g h.memberId
  { h with
    gkt.rounds := h.gkt.rounds.map fun (r : Round) => { r with granules := r.granules.filter (· ≠ g) }
    pump.ranges := h.pump.ranges.map fun (r : PumpRange) =>
      if g ∈ r.granules then { r with granules := r.granules.filter (· ≠ g), dead := true } else r }

/-- A granule's entry read for its round or its sweep, and written again as `f` changes it (R157). -/
def Hw.partStep (h : Hw) (reads : PartReads) (walk : BttWalk) (f : GktEntry → GktEntry) (g : Nat) : Hw :=
  match h.partFetch g (readsOf reads g) walk with
  | (h, some e) => h.setPart g (f e)
  | (h, none) => h.granuleUnusable g

/-- A granule's pstate written beside the entry as it was last written, with no read of it. -/
def Hw.setPstate (h : Hw) (g st : Nat) : Hw := h.setPart g { gktDecode (h.partWord g) with pstate := st }

/-- Granules QUEUED or WET (PUMP.GRAN_LEFT). -/
def Hw.granLeft (h : Hw) : Nat :=
  h.pump.ranges.foldl (fun n r => n + (r.granules.filter fun g => h.granuleState g == 2 || h.granuleState g == 3).length) 0

/-- The status with which a finished range signals its fence (R157). -/
def PumpRange.status (r : PumpRange) (h : Hw) : Option CC :=
  if r.aborted then some .aborted else if r.timedOut then some .timeout else if r.dead then some .deadTarget
  else if r.lineFail then some .authFail
  else if r.granules.all fun g => h.granuleState g == 0 then none else some .deadTarget

/-- A range that is finished leaves the work list and signals its fence (R157). -/
def Hw.finishRange (h : Hw) (r : PumpRange) : Hw :=
  let st := r.status h
  let h := { h with pump.ranges := h.pump.ranges.filter fun x => x.id != r.id }
  let h := match r.fence with | some f => h.fenceSignal f r.value st h.memberId | none => h
  h.setIrq 0x08 0

/-- Ranges none of whose granules is OPENING, QUEUED, WET or CLOSING are finished (R157). -/
def Hw.settleRanges (h : Hw) : Hw :=
  (h.pump.ranges.filter fun r =>
      !(h.gkt.rounds.any fun o => o.range == r.id) && !(r.granules.any fun g => decide (1 ≤ h.granuleState g ∧ h.granuleState g ≤ 4))).foldl
    (fun h r => h.finishRange r) h

/-- PUMP.LAST_CMD written with a result (R156, R158). -/
def Hw.pumpLast (h : Hw) (abort : Bool) (result missing : Nat) : Hw :=
  h.setReg Reg.PUMP_LAST_CMD (BitVec.ofNat 32 (b2n abort + 16 * result + 65536 * missing))

/-- The REKEY_START of a round completes (R156), unless its operation has completed already. -/
def Hw.roundCommand (h : Hw) (r : Round) (cc : CC) (result missing : Nat) : Hw :=
  match r.cmd with
  | some (n, i) => (h.pumpLast false result missing).opUnitEnd n i cc result
  | none => h

/-- An acknowledgement of an open round: the last one moves its granules to QUEUED (R144). -/
def Hw.ackRound (h : Hw) (member seq : Nat) (reads : PartReads) (walk : BttWalk) : Hw :=
  match h.gkt.rounds.find? fun r => r.seq == seq with
  | none => h
  | some r =>
    let missing := r.missing.filter (· ≠ member)
    if missing ≠ [] then
      { h with gkt.rounds := h.gkt.rounds.map fun (x : Round) => if x.seq = seq then { x with missing := missing } else x }
    else
      let h := { h with gkt.rounds := h.gkt.rounds.filter fun x => x.seq != seq }
      let h := r.granules.foldl (fun h g => h.partStep reads walk (fun e => { e with pstate := 2 }) g) h
      (h.roundCommand r .ok 0 0).settleRanges

/-- GKT_ACK: a home receives an acknowledgement (R144). -/
def Hw.gktAck (h : Hw) (m : Message) (reads : PartReads) (walk : BttWalk) : Hw :=
  h.ackRound m.hdr.src.toNat (inlineField m.inlineArea 0 16) reads walk

/-- GKT_ACK_SEND: a member acknowledges a notice once its key sets are ready and its earlier stores have completed (R142). The
message answers the GKT_OPEN: it carries resp 1 and that request's txn (R169). DEDUCED (log entry 61). -/
def Hw.gktAckSend (h : Hw) (home seq : Nat) (reads : PartReads) (walk : BttWalk) : Hw :=
  match h.gkt.acks.find? fun a => a.home == home && a.seq == seq with
  | none => h
  | some a =>
    if !h.ackDue a then h
    else
      let h := { h with gkt.acks := h.gkt.acks.filter fun x => !(x.home == home && x.seq == seq) }
      if home = h.memberId then h.ackRound home seq reads walk
      else
        let m := h.controlMsg .gktAck (some home) 0 a.txn (inlineOf [(0, seq)])
        h.sendControl { m with hdr := { m.hdr with resp := true } }

/-- The GKT_OPEN of a round (R141). -/
def Hw.openMsg (h : Hw) (r : Round) : Message :=
  h.controlMsg .gktOpen none 0 r.txn (inlineOf [(0, r.region), (4, r.first), (8, r.count), (12, r.seq)])

/-- An open round starts: partition written from the entries just read, notice sent and applied here (R144). -/
def Hw.startRound (h : Hw) (region first count range : Nat) (granules : List (Nat × GktEntry)) (cmd : Nat × Nat) : Hw :=
  let seq := (h.gkt.openSeq + 1) % 65536
  let h := granules.foldl (fun h x =>
    h.setPart x.1 (if x.2.pstate = 5 then { x.2 with pstate := 1 } else { x.2 with epoch := x.2.epoch + 1, dual := true, pstate := 1 })) h
  let r : Round := ⟨seq, h.newTag, region, first, count, granules.map (·.1), h.homes.eraseDups, 1, some cmd, range⟩
  let h := { h.takeTag with gkt.openSeq := seq, gkt.rounds := h.gkt.rounds ++ [r] }
  (h.sendControl (h.openMsg r)).applyOpen h.memberId first count seq r.txn

/-- The lowest of a list of members. -/
def lowest (ms : List Nat) : Nat := ms.foldl min 65535

/-- OPEN_ROUND_ACK_TIMEOUT: PUMP.T_ACK expires with acknowledgements missing (R145). -/
def Hw.openRoundAckTimeout (h : Hw) (seq : Nat) (reads : PartReads) (walk : BttWalk) : Hw :=
  match h.gkt.rounds.find? fun r => r.seq == seq with
  | none => h
  | some r =>
    if r.sends < 4 then
      ({ h with gkt.rounds := h.gkt.rounds.map fun (x : Round) => if x.seq = seq then ({ x with sends := x.sends + 1 } : Round) else x } : Hw).sendControl (h.openMsg r)
    else
      let m := lowest r.missing
      let h := { h with gkt.rounds := h.gkt.rounds.filter fun x => x.seq != seq }
      let h := r.granules.foldl (fun h g => h.partStep reads walk (fun e => { e with pstate := 5 }) g) h
      let h := { h with pump.ranges := h.pump.ranges.map fun (x : PumpRange) => if x.id = r.range then { x with timedOut := true } else x }
      let a := r.first * 2 ^ 21
      let h := (h.raise 226 (detailWord none none 0 0) (a % 2 ^ 32) (a / 2 ^ 32 + m * 65536) 0x22)
      (h.roundCommand r .timeout 6 m).settleRanges

/-- GKT_CLOSE_SEND: the granules closed since the last notice are announced, at most 16 to a notice (R141). -/
def Hw.gktCloseSend (h : Hw) : Hw :=
  let recs := h.gkt.closes.take 16
  if recs = [] then h
  else
    let area := inlineOf ((0, recs.length) :: (List.range recs.length).map fun k =>
      match recs[k]? with
      | some r => (8 + 8 * k, r.1 % 2 ^ 25 + r.2.1 % 2 ^ 16 * 2 ^ 25 + b2n r.2.2 * 2 ^ 41)
      | none => (8 + 8 * k, 0))
    let m := h.controlMsg .gktClose none 0 0 area
    ({ h with gkt.closes := h.gkt.closes.drop 16 } : Hw).sendControl m

/-- KEY_SET_DERIVE: a missing key set is derived from its family key, and what waits for it goes on (R371). -/
def Hw.keySetDerive (h : Hw) (f e txn : Nat) : Hw := (h.deriveSet h.keyPinned f e txn).keysChanged

/-- Granules of a family that this member homes with a live epoch below a floor (R159). -/
def Hw.liveBelow (h : Hw) (f floor : Nat) : Bool :=
  h.gkt.part.any fun p => gktUsable p.2 && (gktDecode p.2).family == f && decide ((gktDecode p.2).emin < floor)

/-- RETIRE_EPOCH: raises a family's retirement floor and erases the key sets below it (R159, R375). -/
def Hw.retireEpoch (h : Hw) (n i : Nat) : Hw :=
  match h.keyOp n i 2 with
  | none => h
  | some o =>
    if !h.scuReady then h
    else
      match h.bound n o with
      | none => h.opEnd n i .stateRefused .unbound
      | some k =>
        let f := (h.slot k).family
        let floor := o.field 8 0 16
        if !h.ownsSlot (h.queueSlice n) k || (h.slot k).usage != 0x41 then h.keyOpEnd n i 2 4 0
        else if h.liveBelow f floor then h.keyOpEnd n i 2 6 0
        else
          let h := (h.dropSets fun s => s.family == f && decide (s.epoch < floor)).dropTransient fun t => t.family == f && decide (t.epoch < floor)
          ({ h with cis.floors := h.cis.floors.put 0 f (max floor (h.familyFloor f)) } : Hw).keyOpEnd n i 2 0 0

end Sys2Proof.Machine
end

