-- ==== Sys2Proof/Machine/Pump.lean ====
section
/-! DEFINITION. The Rekey Pump: REKEY_START and REKEY_ABORT, the sweep, the epoch-conditional writes, the close
of a granule, and what stops it (R146 to R158). -/

namespace Sys2Proof.Machine

/-- A queue may run the admin operations (R283). -/
def Hw.admin (h : Hw) (n : Nat) : Bool := h.regBit (Reg.QRING_Qn_CTL n) 3

/-- Operands of REKEY_START and REKEY_ABORT: the reserved fields are 0 and count is not (R155). -/
def QOp.rekeyOk (o : QOp) (abort : Bool) : Bool :=
  o.field 6 0 16 == 0 && o.field 8 25 7 == 0 && o.field 12 26 6 == 0 && o.field 20 0 32 == 0 && o.field 12 0 26 != 0 &&
    (if abort then o.field 16 0 32 == 0 && o.field 24 0 64 == 0 else o.field 16 12 19 == 0)

/-- A region that is valid, ACTIVE and SEAL. -/
def Hw.sealRegion (h : Hw) (r : Nat) : Option Region :=
  match h.regions.table.get none r with
  | some e => if e.cls = .sealed ∧ e.state = .active then some e else none
  | none => none

/-- Granules of a range that this member homes, in ascending order. -/
def Hw.homedIn (h : Hw) (first count : Nat) : List Nat :=
  ((List.range count).map (· + first)).filter fun g => h.homesHere g

/-- The entries of granules read for a REKEY_START: those that are usable, in order; each other one raises GKT_CORRUPT (R137, R156). -/
def Hw.readEntries (h : Hw) (gs : List Nat) (reads : PartReads) (walk : BttWalk) : Hw × List (Nat × GktEntry) :=
  gs.foldl (fun acc g =>
    match acc.1.partFetch g (readsOf reads g) walk with
    | (h, some e) => (h, acc.2 ++ [(g, e)])
    | (h, none) => (h.gktError false g h.memberId, acc.2)) (h, [])

/-- What refuses a REKEY_START by the entries of its homed granules: BUSY, or EPOCH_END (R156 step 4). -/
def rekeyRefusal (es : List (Nat × GktEntry)) : Option Nat :=
  if es.any fun x => x.2.moving then some 3
  else if es.any fun x => x.2.pstate == 0 && x.2.epoch == 65535 then some 4 else none

/-- REKEY_START (R156). -/
def Hw.rekeyStart (h : Hw) (n i : Nat) (reads : PartReads) (walk : BttWalk) : Hw :=
  match h.issuedOp n i 6 with
  | none => h
  | some o =>
    let region := o.field 4 0 16
    let count := o.field 12 0 26
    let stop := fun (h : Hw) (cc : CC) (r : Nat) => (h.pumpLast false r 0).opUnitEnd n i cc r
    if !h.admin n then h.opEnd n i .stateRefused .priv
    else if !o.rekeyOk false then stop h .malformed 7
    else match h.sealRegion region with
      | none => stop h .stateRefused 1
      | some e =>
        if e.size < o.field 8 0 25 + count then stop h .malformed 7
        else
          let first := e.base + o.field 8 0 25
          let homed := h.homedIn first count
          if 8 ≤ h.pump.ranges.length then stop h .stateRefused 2
          else
            let (h, es) := h.readEntries homed reads walk
            match rekeyRefusal es with
            | some k => stop h .stateRefused k
            | none =>
              let r : PumpRange := ⟨h.pump.nextRange, es.map (·.1), region, first, count,
                if o.field 16 31 1 = 1 then some (o.field 16 0 12) else none, BitVec.ofNat 64 (o.field 24 0 64),
                false, false, es.length != homed.length, false⟩
              let h := { h with pump.nextRange := h.pump.nextRange + 1 }
              if es = [] then (stop h .ok 0).finishRange r
              else
                let h := ({ h with pump.ranges := h.pump.ranges ++ [r] } : Hw).modOp n i fun o => { o with started := true }
                h.startRound region first count r.id es (n, i)

/-- An entry of the WET granule with a pstate: the home knows its epoch and family. -/
def Hw.wetEntry (h : Hw) (w : Wet) (dual : Bool) (st : Nat) : GktEntry := ⟨w.family, w.epoch, dual, st, h.memberId⟩

/-- The WET granule leaves the sweep for PARKED, and the REKEY_ABORTs that waited for it complete (R153, R158). -/
def Hw.parkWet (h : Hw) : Hw :=
  match h.pump.wet with
  | none => h
  | some w =>
    let h := h.setPart w.granule (h.wetEntry w true 5)
    let waiting := h.pump.aborting
    let h := { h with pump.wet := none, pump.aborting := [] }
    (waiting.foldl (fun h x => (h.pumpLast true 0 0).opUnitEnd x.1 x.2 .ok 0) h).settleRanges

/-- A WET granule that is being aborted is parked once its outstanding writes have been answered (R158). -/
def Hw.wetStop (h : Hw) : Hw :=
  match h.pump.wet with
  | some w => if w.stopping && !w.stuck && w.writes == [] then h.parkWet else h
  | none => h

/-- The QUEUED and WET granules that a test picks leave the work list for PARKED; the WET one once its outstanding
writes have been answered (R158). -/
def Hw.abortGranules (h : Hw) (p : Nat → Bool) : Hw :=
  let hit := fun (r : PumpRange) => r.granules.any fun g => p g && (h.granuleState g == 2 || h.granuleState g == 3)
  let h1 := { h with pump.ranges := h.pump.ranges.map fun (r : PumpRange) => if hit r then { r with aborted := true } else r }
  let queued := (h.pump.ranges.flatMap (·.granules)).filter fun g => p g && h.granuleState g == 2
  let h2 := queued.foldl (fun h g => h.setPstate g 5) h1
  match h2.pump.wet with
  | some w =>
    if p w.granule then
      let h3 := w.reads.foldl (fun h r => (h.dropWork r.1).dropTxn r.1) h2
      { h3 with pump.wet := some { w with stopping := true, reads := [] } }
    else h2
  | none => h2

/-- REKEY_ABORT (R158). -/
def Hw.rekeyAbort (h : Hw) (n i : Nat) : Hw :=
  match h.issuedOp n i 7 with
  | none => h
  | some o =>
    let count := o.field 12 0 26
    let stop := fun (h : Hw) (cc : CC) (r : Nat) => (h.pumpLast true r 0).opUnitEnd n i cc r
    if !h.admin n then h.opEnd n i .stateRefused .priv
    else if !o.rekeyOk true then stop h .malformed 7
    else match h.sealRegion (o.field 4 0 16) with
      | none => stop h .stateRefused 1
      | some e =>
        let first := e.base + o.field 8 0 25
        if e.size < o.field 8 0 25 + count then stop h .malformed 7
        else if (h.homedIn first count).all fun g => h.granuleState g != 2 && h.granuleState g != 3 then stop h .stateRefused 5
        else
          let h := h.abortGranules fun g => inRange g first count
          if (match h.pump.wet with | some w => w.stopping && inRange w.granule first count | none => false) then
            (({ h with pump.aborting := h.pump.aborting ++ [(n, i)] } : Hw).modOp n i fun o => { o with started := true }).wetStop
          else (stop h .ok 0).settleRanges

/-- The Pump may issue work: it is not paused (R151, R152, R154). -/
def Hw.pumpRuns (h : Hw) : Bool := !h.regBit Reg.PUMP_CTL 8 && !h.pump.rungPause && h.backgroundNow

/-- The next QUEUED granule: of the earliest range, the lowest (R146). -/
def Hw.nextQueued (h : Hw) : Option Nat :=
  h.pump.ranges.findSome? fun r =>
    let q := r.granules.filter fun g => h.granuleState g == 2
    match q with | [] => none | g :: gs => some (gs.foldl min g)

/-- A granule taken up for its sweep; one whose entry is unusable leaves the work list, and the next is taken (R146, R157).
`fuel` granules are tried. -/
def Hw.takeWet (h : Hw) (reads : PartReads) (walk : BttWalk) : Nat → Hw
  | 0 => h
  | fuel + 1 =>
    match h.pump.wet, h.nextQueued with
    | none, some g =>
      match h.partFetch g (readsOf reads g) walk with
      | (h, some e) => { h.setPart g { e with pstate := 3 } with pump.wet := some ⟨g, e.epoch, e.family, 0, 0, [], [], [], false, false, false⟩ }
      | (h, none) => (h.granuleUnusable g).settleRanges.takeWet reads walk fuel
    | _, _ => h

/-- PUMP_SWEEP_READ: a four-line read of the WET granule within the rate budget (R147, R151). A family without a
key parks the granule under R153 (R372). -/
def Hw.pumpSweepRead (h : Hw) (reads : PartReads) (walk : BttWalk) : Hw :=
  if !h.joined || !h.pumpRuns then h
  else
    let h := h.takeWet reads walk (h.granLeft + 1)
    match h.pump.wet with
    | none => h
    | some w =>
      if w.stopping || 32768 ≤ w.nextRead then h
      else if !h.mayDerive w.family w.epoch then { h with pump.wet := some { w with stopping := true, stuck := true } }
      else
        let t := { h.newTxn .pump .load (some .sealed) 1024 (BitVec.ofNat 46 (w.granule * 2 ^ 21 + 64 * w.nextRead)) 4 with
          keyed := true, epoch := w.epoch, emin := w.epoch - 1, family := w.family, stage := .queued }
        if h.pump.budget < 256 || h.keyMissing t != [] then h
        else
          let id := h.newTag
          let h := (h.addTxn t).enqueueTxn t
          { h with pump.budget := h.pump.budget - 256, pump.wet := some { w with nextRead := w.nextRead + 4, reads := w.reads ++ [(id, w.nextRead)] } }

/-- PUMP.CURSOR moved past the lines that are finished (R149). -/
def cursorFrom (finished : List Nat) : Nat → Nat → Nat
  | 0, c => c
  | fuel + 1, c => if c ∈ finished then cursorFrom finished fuel (c + 1) else c

/-- Lines of the WET granule finished (R149). -/
def Wet.finish (w : Wet) (ls : List Nat) : Wet :=
  let f := w.finished ++ ls
  let c := cursorFrom f f.length w.cursor
  { w with cursor := c, finished := f.filter fun l => decide (c ≤ l) }

/-- The WET granule changed. -/
def Hw.modWet (h : Hw) (f : Wet → Wet) : Hw := { h with pump.wet := h.pump.wet.map f }

/-- A line that failed authentication in the sweep: PUMP_AUTH_FAIL once for the granule (R147). -/
def Hw.pumpLineFail (h : Hw) (line : Nat) : Hw :=
  match h.pump.wet with
  | none => h
  | some w =>
    let h := h.incReg Reg.PUMP_LINES_FAIL
    let h := { h with pump.ranges := h.pump.ranges.map fun (r : PumpRange) => if w.granule ∈ r.granules then { r with lineFail := true } else r }
    let h := h.modWet fun w => { w.finish [line] with authFail := true }
    let a := w.granule * 2 ^ 21 + 64 * line
    if w.authFail then h else h.raise 227 (detailWord none none 0 0) (a % 2 ^ 32) (a / 2 ^ 32 + h.memberId * 65536) 1

/-- One line of a sweep answer, by its etag: the re-sealed line when it is to be written (R147). -/
def Hw.pumpLine (h : Hw) (t : Txn) (w : Wet) (line : Nat) (l : SealedLine) : Hw × Option SealedLine :=
  let addr := w.granule * 2 ^ 21 + 64 * line
  if l.etag = w.epoch % 4 then ((h.incReg Reg.PUMP_LINES_SKIP).modWet fun w => w.finish [line], none)
  else if l.etag = (w.epoch - 1) % 4 then
    let n := h.serving ((t.port.map (·.val)).getD 0)
    let (plain, ok) := h.openLine n w.family (w.epoch - 1) addr l
    let (h, ok, _) := h.checked 6 (t.port.map (·.val)) none none (ok && h.epochUsable t (w.epoch - 1))
    if ok then (h, some (h.sealLine n w.family w.epoch addr l.lc plain)) else (h.pumpLineFail line, none)
  else ((h.incReg Reg.PUMP_LINES_FOREIGN).modWet fun w => w.finish [line], none)

/-- One epoch-conditional write of neighbouring lines on etag E - 1 (R147, R148, R169). -/
def Hw.condWrite (h : Hw) (w : Wet) (first : Nat) (ls : List SealedLine) : Hw :=
  let t := { h.newTxn .pump .store (some .sealed) 1024 (BitVec.ofNat 46 (w.granule * 2 ^ 21 + 64 * first)) ls.length with
    keyed := true, epoch := w.epoch, emin := w.epoch - 1, family := w.family, stage := .queued, data := ls, arg := (w.epoch - 1) % 4 }
  let id := h.newTag
  ((h.addTxn t).enqueueTxn t).modWet fun w => { w with writes := w.writes ++ [(id, first)] }

/-- Runs of neighbouring lines among the re-sealed lines of an answer. -/
def runs : Nat → List (Option SealedLine) → List (Nat × List SealedLine)
  | _, [] => []
  | k, none :: rest => runs (k + 1) rest
  | k, some l :: rest =>
    match runs (k + 1) rest with
    | (j, ls) :: more => if j = k + 1 then (k, l :: ls) :: more else (k, [l]) :: (j, ls) :: more
    | [] => [(k, [l])]

/-- A transfer of the Pump has completed DEAD_TARGET: the granule's sweep stops (R153). -/
def Hw.pumpDead (h : Hw) (id : Nat) : Hw :=
  ((h.dropWork id).dropTxn id).modWet fun w => { w with
    stopping := true, stuck := true, reads := w.reads.filter fun r => r.1 != id, writes := w.writes.filter fun r => r.1 != id }

/-- An answer to a transfer of the Pump has status NO_TARGET: it completes DEAD_TARGET (R153, R178). -/
def Hw.pumpNoTarget (h : Hw) (t : Txn) : Hw := (h.deadRecord t t.fabOp.code).pumpDead t.id

/-- PUMP_READ_ANSWER: the lines of a sweep read are re-sealed, skipped, or counted as failed or foreign (R147). -/
def Hw.pumpReadAnswer (h : Hw) (p : Fin 16) (m : Message) : Hw :=
  match h.txn m.hdr.txn.toNat, h.pump.wet with
  | some t, some w =>
    match w.reads.find? fun r => r.1 == t.id with
    | none => h.sump p m false
    | some (id, first) =>
      if m.hdr.status = 2 then h.pumpNoTarget t
      else
      let h := ((h.dropWork id).dropTxn id).modWet fun w => { w with reads := w.reads.filter fun r => r.1 != id }
      let (h, sealed) := (List.range 4).foldl (fun acc k =>
        match m.lines[k]? with
        | some l => let (h, s) := acc.1.pumpLine t w (first + k) l; (h, acc.2 ++ [s])
        | none => (acc.1.pumpLineFail (first + k), acc.2 ++ [none])) (h, [])
      if w.stopping && !w.stuck then h.wetStop
      else (runs first sealed).foldl (fun h r => h.condWrite w r.1 r.2) h
  | _, _ => h.sump p m false

/-- COND_WRITE_ANSWER: an epoch-conditional write is answered, and the cursor advances (R148, R149). -/
def Hw.condWriteAnswer (h : Hw) (p : Fin 16) (m : Message) : Hw :=
  match h.txn m.hdr.txn.toNat, h.pump.wet with
  | some t, some w =>
    match w.writes.find? fun r => r.1 == t.id with
    | none => h.sump p m false
    | some (id, first) =>
      if m.hdr.status = 2 then h.pumpNoTarget t
      else
      let mask := if m.hdr.status = 1 then inlineField m.inlineArea 0 4 else 0
      let refused := ((List.range t.lines).filter fun k => mask.testBit k).length
      let h := (h.dropWork id).dropTxn id
      let h := (h.addReg Reg.PUMP_LINES_DONE (t.lines - refused)).addReg Reg.PUMP_LINES_RACE refused
      let h := (h.tally 132 (t.lines - refused)).tally 133 refused
      let h := if m.hdr.status = 1 then h.incReg Reg.FABOP_COND_FAIL_CNT else h
      (h.modWet fun w => { w.finish ((List.range t.lines).map (· + first)) with writes := w.writes.filter fun r => r.1 != id }).wetStop
  | _, _ => h.sump p m false

/-- GRANULE_CLOSE: the sweep has reached the end of the granule, which goes through CLOSING to IDLE (R150). -/
def Hw.granuleClose (h : Hw) : Hw :=
  match h.pump.wet with
  | some w =>
    if w.cursor < 32768 || w.stopping then h
    else
      let e := h.wetEntry w false 0
      let h := (h.setPart w.granule (h.wetEntry w true 4)).setPart w.granule e
      let h := h.gktUpdate w.granule fun _ => e
      ({ h with pump.wet := none, gkt.closes := h.gkt.closes ++ [(w.granule, w.epoch, false)] } : Hw).settleRanges
  | none => h

/-- PUMP_STUCK: the outstanding lines of the stopped granule are finished, and it is parked (R153). -/
def Hw.pumpStuck (h : Hw) : Hw :=
  match h.pump.wet with
  | some w =>
    if !w.stuck || w.reads != [] || w.writes != [] then h
    else
      let h := { h with pump.ranges := h.pump.ranges.map fun (r : PumpRange) => if w.granule ∈ r.granules then { r with dead := true } else r }
      let a := w.granule * 2 ^ 21
      (h.raise 228 (detailWord none none 0 0) (a % 2 ^ 32) (a / 2 ^ 32 + h.memberId * 65536) 0).parkWet
  | none => h

/-- PUMP_RATE_WINDOW: a 1 us rate window begins, and the read budget refills (R151). -/
def Hw.pumpRateWindow (h : Hw) : Hw :=
  let r := min (max (h.regF Reg.PUMP_CTL 0 7) 1) 64
  { h with pump.budget := (if h.frugal then min r 16 else r) * 1000 }

/-- PUMP_PAUSE: a write of PUMP.CTL, or the entry of U3 (R39, R154). -/
def Hw.pumpPause (h : Hw) (write : Option Word) : Hw :=
  match write with
  | some v =>
    let r := min (max (fld v 0 7) 1) 64
    h.setReg Reg.PUMP_CTL (BitVec.ofNat 32 (r + 256 * b2n (bit v 8)))
  | none => { h with pump.rungPause := true }

/-- PUMP.STAT (R146, R155). -/
def Hw.pumpStat (h : Hw) : Word :=
  let st := if (h.regBit Reg.PUMP_CTL 8 || h.pump.rungPause) && h.pump.ranges != [] then 3
    else if h.pump.wet.isSome || decide (0 < h.granLeft) then 2 else if h.gkt.rounds != [] then 1 else 0
  BitVec.ofNat 32 (st + 16 * h.pump.ranges.length + 65536 * h.gkt.openSeq)

/-- A reset of the Pump: its granules are parked, the work list is emptied and every fence of it is set ABORTED
(R154); a REKEY_START that waits for its round completes ABORTED. -/
def Hw.pumpReset (h : Hw) : Hw :=
  let parked := (h.gkt.part.filter fun p => gktUsable p.2 && (gktDecode p.2).moving).map (·.1)
  let h := parked.foldl (fun h g => h.setPstate g 5) h
  let pumps := (h.txns.filter fun t => t.src == .pump).map (·.id)
  let h := pumps.foldl (fun h id => (h.dropWork id).dropTxn id) h
  let rounds := h.gkt.rounds
  let ranges := h.pump.ranges
  let waiting := h.pump.aborting
  let h := { h with gkt.rounds := [], pump.ranges := [], pump.wet := none, pump.aborting := [], pump.budget := 0 }
  let h := ranges.foldl (fun h r =>
    (match r.fence with | some f => h.fenceSignal f r.value (some .aborted) h.memberId | none => h).setIrq 0x08 0) h
  let h := rounds.foldl (fun h r => match r.cmd with | some (n, i) => h.opUnitEnd n i .aborted 0 | none => h) h
  waiting.foldl (fun h x => h.opUnitEnd x.1 x.2 .aborted 0) h

end Sys2Proof.Machine
end

