-- ==== Sys2Proof/Machine/Window.lean ====
section
/-! DEFINITION. Slices as software sees them: binding, status and occupancy, the slice window page, and the LOCAL
part of a slice (R315 to R334). -/

namespace Sys2Proof.Machine

/-- SLICE.STAT of a slice. -/
def Hw.sliceStat (h : Hw) (s : Nat) : Word :=
  let v := h.slice s
  BitVec.ofNat 32 (v.st.num + 8 * v.step + 256 * b2n v.quar + 512 * v.refusal)

/-- Region Table shares that name a slice (R333). -/
def Hw.sliceShares (h : Hw) (s : Nat) : Nat :=
  h.regions.table.foldl (fun n p => n + (match p.2 with | some e => (e.shares.filter fun x => x.2.1 == s).length | none => 0)) 0

/-- Cistern slots that a slice owns (R333). -/
def Hw.sliceSlots (h : Hw) (s : Nat) : Nat := (h.cis.slots.filter fun p => p.2.live && !p.2.system && p.2.owner == s).length

/-- The region of a granule in the Region Table. -/
def Hw.regionAt (h : Hw) (g : Nat) : Option (Nat × Region) :=
  h.regions.table.findSome? fun p => match p.2 with
    | some e => if e.base ≤ g ∧ g < e.base + e.size then some (p.1, e) else none
    | none => none

/-- Granule entries homed here for SEAL regions whose share 0 names a slice (R333). -/
def Hw.sliceGkt (h : Hw) (s : Nat) : Nat :=
  (h.gkt.part.filter fun p => gktValid p.2 && (match h.regionAt p.1 with
    | some (_, e) => e.cls == .sealed && e.shares.any fun x => x.1 == 0 && x.2.1 == s
    | none => false)).length

/-- Ring bytes of a slice (R333). -/
def Hw.sliceRing (h : Hw) (s : Nat) : Nat := (h.queuesOf s).foldl (fun n q => n + 64 * 2 ^ h.ringLog2 q) 0

/-- Slices that are not FREE. -/
def Hw.sliceBound (h : Hw) : Nat := (h.obj.slices.filter fun p => p.2.st != .free).length

/-- FENCE.STAT of a fence. -/
def Hw.fenceStat (h : Hw) (f : Nat) : Word :=
  let v := h.fence f
  BitVec.ofNat 32 (v.st.num + 16 * (if v.st = .error then v.status.num else 0) + 256 * min (h.waiters f) 255 + 65536 * b2n v.refused)

/-- EVENT.STAT of an event. -/
def Hw.eventStat (h : Hw) (e : Nat) : Word :=
  let v := h.event e
  BitVec.ofNat 32 (b2n v.set + 2 * b2n v.alloc + 65536 * v.count)

/-- A word of the CAP page by its offset (R332). -/
def Hw.capWord (h : Hw) (off : Nat) : Word :=
  let n := if h.joined then h.homes.length else 0
  if off = 0x05C then BitVec.ofNat 32 n
  else if off = 0x064 then
    let i := h.regF Reg.CAP_HOME_SEL 0 16
    if i < n then BitVec.ofNat 32 ((h.homes[i]?).getD 0 + 2 ^ 31) else 0
  else if 0x100 ≤ off ∧ off ≤ 0x13C then
    let p := h.port ((off - 0x100) / 4)
    if p.sess = .up then BitVec.ofNat 32 (p.peer.toNat + 2 ^ 31) else 0
  else h.reg (0x1000 + off)

/-- BIND: SLICE.CMD BIND of the selected slice (R316). -/
def Hw.bindSlice (h : Hw) : Hw :=
  let s := h.regF Reg.SLICE_SEL 0 10
  let v := h.slice s
  let refuse := fun (n : Nat) => h.setSlice s { v with refusal := n }
  if v.st ≠ .free then refuse 1
  else if (h.sliceOfPasid v.pasid).isSome then refuse 2
  else if h.sliceShares s ≠ 0 then refuse 3
  else
    let h := h.setSlice s { Slice.unbound with st := .active, pasid := v.pasid }
    { h with cfe.covers := h.cfe.covers.put 0 s 0, cfe.bad := h.cfe.bad.filter fun x => x.1 != s }

/-- A write of SLICE.CFG: the PASID for BIND of a slice that is FREE (R316). -/
def Hw.sliceCfgWrite (h : Hw) (value : Word) : Hw :=
  let s := h.regF Reg.SLICE_SEL 0 10
  if (h.slice s).st = .free then h.setSlice s { h.slice s with pasid := fld value 0 20 } else h

/-- Fence that a slice has selected in its window page. -/
def Hw.swFence (h : Hw) (s : Nat) : Nat := h.obj.fsel.get 0 s

/-- Event that a slice has selected in its window page. -/
def Hw.swEvent (h : Hw) (s : Nat) : Nat := h.obj.esel.get 0 s

/-- A word of the slice window page as it reads; offsets that are not listed read 0 (R318). -/
def Hw.swWord (h : Hw) (s off : Nat) : Word :=
  let f := h.swFence s
  let fenceOk := (h.fence f).mayWait s
  if off = 0x000 then BitVec.ofNat 32 (s + 4096 * (h.slice s).pasid)
  else if off = 0x004 then h.sliceStat s
  else if off = 0x008 then BitVec.ofNat 32 ((h.slice s).jobs % 2 ^ 32)
  else if off = 0x00C then BitVec.ofNat 32 ((h.slice s).jobs / 2 ^ 32)
  else if off = 0x010 then BitVec.ofNat 32 (h.sliceSlots s)
  else if off = 0x014 then BitVec.ofNat 32 (h.sliceShares s)
  else if off = 0x018 then BitVec.ofNat 32 (h.sliceGkt s)
  else if off = 0x01C then BitVec.ofNat 32 (h.sliceRing s)
  else if off = 0x020 then BitVec.ofNat 32 f
  else if off = 0x024 then (if fenceOk then h.fenceStat f else 0)
  else if off = 0x028 then (if fenceOk then BitVec.ofNat 32 (h.fence f).value.toNat else 0)
  else if off = 0x02C then (if fenceOk then BitVec.ofNat 32 ((h.fence f).value.toNat / 2 ^ 32) else 0)
  else if off = 0x030 then BitVec.ofNat 32 (h.obj.fsigLo.get 0 s)
  else if off = 0x040 then BitVec.ofNat 32 (h.swEvent s)
  else if off = 0x044 then (if h.ownsEvent s (h.swEvent s) then h.eventStat (h.swEvent s) else 0)
  else if off = 0x04C then (if h.ownsEvent s (h.swEvent s) then BitVec.ofNat 32 (b2n (h.event (h.swEvent s)).set) else 0)
  else if 0x200 ≤ off ∧ off ≤ 0x2FC then h.capWord (off - 0x200 + 0x40)
  else 0

/-- A read of the slice window page names an object that the slice may not use (R319). -/
def Hw.swReadDenied (h : Hw) (s off : Nat) : Bool :=
  if off = 0x024 ∨ off = 0x028 ∨ off = 0x02C then !(h.fence (h.swFence s)).mayWait s
  else if off = 0x044 ∨ off = 0x04C then !h.ownsEvent s (h.swEvent s)
  else false

/-- A read over the Register Port, with the latched high words (R455). -/
def Hw.swRead (h : Hw) (s off : Nat) : Hw × Word :=
  if off = 0x008 ∨ off = 0x028 then
    let k := 2 * s + (if off = 0x028 then 1 else 0)
    ({ h with obj.swLatch := h.obj.swLatch.put 0 k ((h.swWord s (off + 4)).toNat + 1) }, h.swWord s off)
  else if off = 0x00C ∨ off = 0x02C then
    let k := 2 * s + (if off = 0x02C then 1 else 0)
    let v := h.obj.swLatch.get 0 k
    (h, if v = 0 then h.swWord s off else BitVec.ofNat 32 (v - 1))
  else (h, h.swWord s off)

/-- A doorbell of slice `s` for queue `q` over a device path (R263, R319). -/
def Hw.sliceBell (h : Hw) (s q : Nat) (value : Word) : Hw × Bool :=
  if h.queueSlice q = s then (h.doorbell q .device value.toNat, true) else (h, false)

/-- SW_FSIG: a write of SW_FSIG_HI signals the selected fence (R323, R325). The second part is false where it is denied. -/
def Hw.swFsigDo (h : Hw) (s : Nat) (value : Word) : Hw × Bool :=
  let f := h.swFence s
  if (h.fence f).maySignal s then
    (h.fenceSignal f (BitVec.ofNat 64 (h.obj.fsigLo.get 0 s + value.toNat * 2 ^ 32)) none h.memberId, true)
  else (h, false)

/-- SW_FCLR: the owner clears the selected fence's error (R328). -/
def Hw.swFclrDo (h : Hw) (s : Nat) (value : Word) : Hw × Bool :=
  let f := h.swFence s
  if (h.fence f).allocated && (h.fence f).owner == s then (if bit value 0 then h.fenceClear f else h, true) else (h, false)

/-- SW_ESET: the selected event is set (R331). -/
def Hw.swEsetDo (h : Hw) (s : Nat) (value : Word) : Hw × Bool :=
  if h.ownsEvent s (h.swEvent s) then (if bit value 0 then h.eventSet (h.swEvent s) else h, true) else (h, false)

/-- SW_ECLR: the selected event is cleared (R331). -/
def Hw.swEclrDo (h : Hw) (s : Nat) (value : Word) : Hw × Bool :=
  if h.ownsEvent s (h.swEvent s) then
    (if bit value 0 then h.setEvent (h.swEvent s) { h.event (h.swEvent s) with set := false } else h, true)
  else (h, false)

/-- A write of the slice window page by an ACTIVE slice: its effect, and false where it is denied (R318, R319). -/
def Hw.swWrite (h : Hw) (s off : Nat) (value : Word) : Hw × Bool :=
  if off = 0x020 then ({ h with obj.fsel := h.obj.fsel.put 0 s (fld value 0 12) }, true)
  else if off = 0x030 then ({ h with obj.fsigLo := h.obj.fsigLo.put 0 s value.toNat }, true)
  else if off = 0x034 then h.swFsigDo s value
  else if off = 0x038 then h.swFclrDo s value
  else if off = 0x040 then ({ h with obj.esel := h.obj.esel.put 0 s (fld value 0 10) }, true)
  else if off = 0x048 then h.swEsetDo s value
  else if off = 0x04C then h.swEclrDo s value
  else if 0x100 ≤ off ∧ off ≤ 0x1FC then h.sliceBell s ((off - 0x100) / 4) value
  else (h, true)

/-- The slice of a PASID, when it is ACTIVE: its window page takes writes (R319). -/
def Hw.activeSlice (h : Hw) (pasid : Nat) : Option Nat :=
  match h.sliceOfPasid pasid with
  | some s => if (h.slice s).st = .active then some s else none
  | none => none

/-- A DENIED access recorded (R452): its address, whether it writes, its space, its PASID and the cause. -/
def Hw.denied (h : Hw) (addr : Nat) (write space : Bool) (pasid cause : Nat) : Hw :=
  let h := h.setReg Reg.DIR_DENY_ADDR (BitVec.ofNat 32 (addr / 4 % 2 ^ 17 * 4))
  let h := h.setReg Reg.DIR_DENY_INFO (BitVec.ofNat 32 (b2n write + 2 * b2n space + 4 * pasid + 2 ^ 22 * cause + 2 ^ 31))
  ((h.incReg Reg.DIR_DENY_CNT).setIrq 0x00 0).emit (.regAnswer 1 0)

/-- An UNMAPPED access (R452). -/
def Hw.unmapped (h : Hw) : Hw := (h.incReg Reg.DIR_UNMAPPED_CNT).emit (.regAnswer 2 0)

/-- An access to the slice window page, driven on the Register Port with its answer (R67, R318, R319, R452). -/
def Hw.swAccess (h : Hw) (pasid addr : Nat) (write : Option Word) : Hw :=
  if 0x1000 ≤ addr then h.unmapped
  else match write with
    | some v =>
      match h.activeSlice pasid with
      | none => h.denied addr true true pasid 1
      | some s =>
        let (h', ok) := h.swWrite s addr v
        if ok then h'.emit (.regAnswer 0 0) else h.denied addr true true pasid 2
    | none =>
      match h.sliceOfPasid pasid with
      | none => h.denied addr false true pasid 1
      | some s =>
        if h.swReadDenied s addr then h.denied addr false true pasid 2
        else
          let (h', v) := h.swRead s addr
          h'.emit (.regAnswer 0 v)

/-- SW_FSIG: a write to SW_FSIG_HI through a PASID (R325). -/
def Hw.swFsig (h : Hw) (pasid : Nat) (value : Word) : Hw := h.swAccess pasid 0x034 (some value)

/-- SW_FCLR: a write to SW_FCLR through a PASID (R328). -/
def Hw.swFclr (h : Hw) (pasid : Nat) (value : Word) : Hw := h.swAccess pasid 0x038 (some value)

/-- SW_ESET: a write to SW_ESET through a PASID (R331). -/
def Hw.swEset (h : Hw) (pasid : Nat) (value : Word) : Hw := h.swAccess pasid 0x048 (some value)

/-- A byte of a slice's LOCAL part as a LOAD sees it (R320). -/
def Hw.localByte (h : Hw) (s off : Nat) : Nat :=
  if 0x1000 ≤ off ∧ off ≤ 0x13FF then bits (h.swWord s ((off - 0x1000) / 4 * 4)).toNat (8 * (off % 4)) 8
  else if 0x2000 ≤ off ∧ off ≤ 0x9FFF then
    let f := (off - 0x2000) / 8
    if (h.fence f).mayWait s then bits (h.fence f).value.toNat (8 * (off % 8)) 8 else 0
  else if 0xA000 ≤ off ∧ off ≤ 0xA3FF then
    (List.range 4).foldl (fun acc k =>
      let f := 4 * (off - 0xA000) + k
      acc + (if (h.fence f).mayWait s then (h.fence f).st.num else 3) * 4 ^ k) 0
  else if 0xA400 ≤ off ∧ off ≤ 0xA47F then
    (List.range 8).foldl (fun acc k =>
      let e := 8 * (off - 0xA400) + k
      acc + (if h.ownsEvent s e && (h.event e).set then 2 ^ k else 0)) 0
  else 0

/-- A line of a slice's LOCAL part (R320). -/
def Hw.localLine (h : Hw) (s off : Nat) : Line :=
  BitVec.ofNat 512 ((List.range 64).foldl (fun acc k => acc + h.localByte s (off + k) * 2 ^ (8 * k)) 0)

/-- A line stored to a slice's LOCAL part: a doorbell, or ignored; the second part is true for a doorbell (R320, R341). -/
def Hw.localStoreLine (h : Hw) (s off : Nat) (l : Line) : Hw × Bool :=
  let q := off / 64
  if off < 0x1000 ∧ (h.slice s).st = .active ∧ h.queueSlice q = s ∧ (h.queue q).st ≠ .off then
    (h.doorbell q .device (bits l.toNat 0 32), true)
  else (h, false)

/-- A LOCAL STORE: its lines in ascending order; one that is ignored is counted (R320, R321). -/
def Hw.localStore (h : Hw) (s off : Nat) (ls : List Line) : Hw :=
  let (h, took, _) := ls.foldl (fun acc l =>
    let (h, b) := acc.1.localStoreLine s acc.2.2 l
    (h, acc.2.1 || b, acc.2.2 + 64)) (h, false, off)
  if took then h else h.incReg Reg.SLICE_LOCAL_IGN

end Sys2Proof.Machine
end

