-- ==== Sys2Proof/Machine/Gate.lean ====
section
/-! DEFINITION. The Request Gate: its evaluation order, window resolution, negative entries, refusal aging
(R83 to R103), and the grant of a Transaction Port request (R49 to R54, R88). -/

namespace Sys2Proof.Machine

/-- A request presented to the Gate, from any of its sources (R83). -/
structure GateReq where
  /-- Who presents it. -/
  src : Source
  /-- What is asked; none for a reserved REQ_OP. -/
  kind : Option ReqKind
  /-- Accelerator physical address, 52 bits. -/
  addr : Nat
  /-- Lines. -/
  lines : Nat
  /-- The requester's slice; none where the PASID is bound to none. -/
  slice : Option Nat
  /-- It breaks R52. -/
  bad : Bool
  /-- REQ_TAG. -/
  tag : BitVec 10
  deriving DecidableEq, Repr

/-- Operation of a REQ_OP (R51). -/
def opOfCode (c : Nat) : Option ReqKind :=
  match c with
  | 0 => some .load | 1 => some .store | 2 => some .add | 3 => some .min | 4 => some .max | 5 => some .cas
  | 6 => some .reduceMin | 7 => some .reduceMax | 8 => some .gather | 9 => some .filter | _ => none

/-- Atomic operations on one element. -/
def ReqKind.atomic : ReqKind → Bool
  | .add | .min | .max | .cas => true
  | _ => false

/-- Switch compute operations. -/
def ReqKind.compute : ReqKind → Bool
  | .reduceMin | .reduceMax | .gather | .filter => true
  | _ => false

/-- Operations that only a slot or the CFE asks for. -/
def ReqKind.blind : ReqKind → Bool
  | .blindPut | .blindTake | .reduceAcc => true
  | _ => false

/-- The tag of a transaction still outstanding on a port (R52). -/
def Hw.tagOpen (h : Hw) (p : Fin 8) (tag : BitVec 10) : Bool := h.txns.any fun t => t.src == .utp p && t.tag == tag

/-- A Transaction Port request breaks R52. -/
def Hw.breaksR52 (h : Hw) (p : Fin 8) (r : UtpReq) : Bool :=
  let a := r.addr.toNat
  (match opOfCode r.op.toNat with
    | none => true
    | some k =>
      (match k with
        | .load => a % 64 != 0 || decide (256 < a % 256 + 64 * (r.lines.toNat + 1))
        | .store => a % 64 != 0 || decide (256 < a % 256 + 64 * (r.lines.toNat + 1))
        | .cas => a % 8 != 0
        | .add => r.atype == 3 || (if r.atype = 1 then a % 8 != 0 else a % 4 != 0)
        | .min => r.atype == 3 || (if r.atype = 1 then a % 8 != 0 else a % 4 != 0)
        | .max => r.atype == 3 || (if r.atype = 1 then a % 8 != 0 else a % 4 != 0)
        | _ => false)) || h.tagOpen p r.tag

/-- The Gate's view of a Transaction Port request. -/
def Hw.utpReq (h : Hw) (p : Fin 8) (r : UtpReq) : GateReq :=
  let k := opOfCode r.op.toNat
  let lines := match k with | some .load => r.lines.toNat + 1 | some .store => r.lines.toNat + 1 | some x => (if x.compute then 4 else 1) | none => 1
  ⟨.utp p, k, r.addr.toNat, lines, h.sliceOfPasid r.pasid.toNat, h.breaksR52 p r, r.tag⟩

/-- The request names a pool address of a rack, as CFE transfers, slot operations and gateway transfers do, and not an
address in an aperture: it lies in the fabric by definition (R127, R185, R297). -/
def Source.byPool : Source → Bool
  | .utp _ => false
  | _ => true

/-- The address lies in the LOCAL aperture (R85). -/
def Hw.inLocal (h : Hw) (a : Nat) : Bool := h.regBit Reg.GATE_LOCAL_BASE 31 && bits a 26 26 == h.regF Reg.GATE_LOCAL_BASE 0 26

/-- The address lies in the fabric aperture (R84); the LOCAL aperture takes precedence (R85). -/
def Hw.inFabric (h : Hw) (a : Nat) : Bool :=
  !h.inLocal a && h.regBit Reg.GATE_APERTURE 31 && bits a 50 2 == h.regF Reg.GATE_APERTURE 0 2

/-- The address is in another rack's pool (R84). -/
def Hw.crossRack (h : Hw) (a : Nat) : Bool := bits a 46 4 != h.regF Reg.GATE_RACKS 0 4

/-- The request is cross-rack (R84); of the requests by pool address, only a BULK_MOVE's is. -/
def Hw.isCross (h : Hw) (r : GateReq) : Bool := if r.src.byPool then r.kind == some .bulk else h.crossRack r.addr

/-- Number of a source at the Gate: 0 to 7 UTPn, 8 Scheduled Port, 9 CFE and gateway transfers, which the Gate judges as CFE transfers (R184). -/
def Source.gateNum : Source → Nat
  | .utp p => p.val | .sched => 8 | _ => 9

/-- The class allows the operation (R25, R237). -/
def classAllows (c : RClass) (k : ReqKind) : Bool :=
  match c with
  | .sealed => (match k with | .load | .store | .copyIn | .copyOut | .shapeWrite | .shapeRead => true | _ => false)
  | .blind => k.blind
  | .link => (match k with | .load | .store => true | _ => k.atomic || k.compute)

/-- Permission bits that an operation needs (R90): bit 0 R, 1 W, 2 A, 3 C. `both` is set for a BLIND_REDUCE that
contributes and receives, `puts` for one that contributes only. -/
def permNeeded (k : ReqKind) (accum : BitVec 4) : BitVec 4 :=
  match k with
  | .load | .blindTake | .copyOut | .shapeRead => 1
  | .store | .blindPut | .copyIn | .shapeWrite => 2
  | .add | .min | .max | .cas => 7
  | .reduceMin | .reduceMax | .gather | .filter => 9
  | .reduceAcc => accum
  | .bulk => 0

/-- A cluster pair is fenced: its reset domain, or the whole block, is being reset, or both of its clusters are out (R91, R257). -/
def Hw.pairFenced (h : Hw) (k : Nat) : Bool :=
  (h.resets.any fun r => r.dom.num == k || r.dom == .block) || h.regBit (Reg.CLU_STAT (2 * k)) 9

/-- The whole block is being reset. -/
def Hw.blockFenced (h : Hw) : Bool := h.resets.any fun r => r.dom == .block

/-- The BRU is being reset. -/
def Hw.bruFenced (h : Hw) : Bool := h.resets.any fun r => r.dom == .bru || r.dom == .block

/-- A reset domain that must serve the request is fenced (R91). -/
def Hw.fencedFor (h : Hw) (src : Source) (cls : Option RClass) : Bool :=
  h.blockFenced ||
  (match cls with
    | some .blind => h.bruFenced
    | some _ =>
      let ports := (List.range 16).filter fun p => (h.reg Reg.LINK_POOL_PORTS).getLsbD p && h.regBit Reg.CAP_PORTS p
      ports != [] && ports.all fun p => h.pairFenced (p / 2)
    | none => false) ||
  (match src with | .cfe n _ => (h.queue n).st == .resetting | _ => false)

/-- A domain reset that is running fences every domain that could serve a request of a class (R91, R427). -/
def Hw.resetFences (h : Hw) (cls : Option RClass) : Bool :=
  h.blockFenced ||
  match cls with
  | some .blind => h.bruFenced
  | some _ =>
    let ports := (List.range 16).filter fun p => (h.reg Reg.LINK_POOL_PORTS).getLsbD p && h.regBit Reg.CAP_PORTS p
    ports != [] && (ports.all fun p => h.pairFenced (p / 2)) && h.resets.any fun r => decide (r.dom.num < 8)
  | none => false

/-- The transaction takes a place in the shared pool of response and read data buffers (R54). -/
def Txn.pooled (t : Txn) : Bool :=
  (match t.src with | .utp _ => true | .sched => true | .cfe _ _ => true | .left => true | _ => false) && t.kind != .bulk && t.stage != .window

/-- Places of the shared pool in use. -/
def Hw.poolUsed (h : Hw) : Nat := (h.txns.filter Txn.pooled).length

/-- Sources aged ahead of one: all of them for a source that is not aged (R103). -/
def Hw.agedAhead (h : Hw) (s : Nat) : Nat :=
  match h.gate.aged.findIdx? fun x => x == s with | some k => k | none => h.gate.aged.length

/-- An operation holds its place of the CFE's Regulator queue from its first transfer until the last is passed (R343). -/
def Hw.opPlace (h : Hw) (n i : Nat) (o : QOp) : Bool :=
  o.outstanding && (o.txns != [] || decide (0 < o.next)) &&
    (decide (o.next < o.total) || h.txns.any fun t => t.src == .cfe n i && (t.stage == .queued || t.stage == .keyWait))

/-- Requests of a source that hold a place of its Regulator queue (R343); for the CFE, one for each outstanding operation. -/
def Hw.sourcePlaces (h : Hw) (src : Source) : Nat :=
  match src with
  | .cfe n i => h.cfe.queues.foldl (fun acc q => acc + (match q.2.run with
    | some b => ((List.range b.ops.length).filter fun k => (q.1, k) != (n, i) && (match b.ops[k]? with | some o => h.opPlace q.1 k o | none => false)).length
    | none => 0)) 0
  | .sched => (h.rgl.items.filter fun x => x.master == 8).length
  | _ => (h.txns.filter fun t => t.src == src && (t.stage == .awaitData || t.stage == .keyWait || t.stage == .queued)).length

/-- The answer's buffer space can be reserved (R54, R103). DESIGN CHOICE (log entry 15). -/
def Hw.spaceFor (h : Hw) (src : Source) : Bool :=
  decide (h.poolUsed + h.agedAhead src.gateNum < Config.poolPlaces + 1) && decide (h.sourcePlaces src < 64)

/-- A resolution started, or joined where one for the slice and granule is in flight; nothing starts beyond 16 (R94). -/
def Hw.startResolution (h : Hw) (slice g src : Nat) : Hw :=
  if (h.gate.resolutions.any fun r => r.slice == slice && r.granule == g) || 16 ≤ h.gate.resolutions.length then h
  else h.queueResolution (h.newResolution slice g (h.rtcFor g) (if src ∈ h.gate.aged then some src else none) none [])

/-- The window of a slice for a granule (R93). -/
def Hw.windowFor (h : Hw) (slice g : Nat) : Option Window :=
  h.gate.windows.find? fun w => w.slice == slice && decide (w.base ≤ g) && decide (g < w.base + w.size)

/-- A window hit: it becomes the most recently hit (R98). -/
def Hw.windowHit (h : Hw) (w : Window) : Hw := { h with gate.windows := h.gate.windows.erase w ++ [w] }

/-- Steps 11 to 15 of R87 for a request that hits a window. -/
def Hw.judgeWindow (h : Hw) (r : GateReq) (k : ReqKind) (accum : BitVec 4) (w : Window) : GateCode :=
  if w.state ≠ .active then .noWindow
  else if !classAllows w.cls k then .classOp
  else if w.perm &&& permNeeded k accum ≠ permNeeded k accum then .perm
  else if h.fencedFor r.src (some w.cls) then .fenced
  else if !h.spaceFor r.src then .retry
  else .none

/-- The evaluation order of R87: the answer, with the window that was hit. `accum` are the permission bits of a
BLIND_REDUCE's accumulator. In U3 every request is refused RETRY (R41), and in CLEAR and TEST of a block reset FENCED (R91, R427).
DESIGN CHOICE for U4 and U5 (log entry 54). -/
def Hw.gateSteps (h : Hw) (r : GateReq) (accum : BitVec 4) : Hw × GateCode × Option Window :=
  if h.pow.rung = .u3 ∨ h.pow.rung = .u4 ∨ h.pow.rung = .u5 then (h, .retry, none)
  else if !h.prime.ready then (h, .fenced, none)
  else if r.bad then (h, .perm, none)
  else match r.slice, r.kind with
    | none, _ => (h, .sliceGone, none)
    | _, none => (h, .perm, none)
    | some s, some k =>
      if (h.slice s).st ≠ .active then (h, .sliceGone, none)
      else if !r.src.byPool && h.inLocal r.addr then
        if bits r.addr 16 10 ≠ s then (h, .perm, none)
        else if k.atomic || k.compute || k.blind then (h, .classOp, none)
        else if h.fencedFor r.src none then (h, .fenced, none)
        else if !h.spaceFor r.src then (h, .retry, none)
        else (h, .none, none)
      else if (!r.src.byPool && !h.inFabric r.addr) || !h.joined || h.dom.leaving != [] then (h, .noWindow, none)
      else if h.isCross r && !h.regBit Reg.GATE_RACKS (16 + bits r.addr 46 4) then (h, .noWindow, none)
      else if k = .bulk then (h, .none, none)
      else if h.isCross r then (h, (match r.src with | .utp _ => .gatewayOnly | _ => .classOp), none)
      else
        let g := granuleOf r.addr
        match h.windowFor s g with
        | some w =>
          let h := h.windowHit w
          (h, h.judgeWindow r k accum w, some w)
        | none =>
          let h := h.incReg Reg.GATE_MISS_CNT
          match h.gate.negatives.find? fun e => e.slice == s && e.granule == g with
          | some e => (h, if e.isPerm then .perm else .noWindow, none)
          | none => (h.startResolution s g r.src.gateNum, .retry, none)

/-- Refusal aging (R103): the count of consecutive RETRY refusals of each UTP and of the CFE. -/
def Hw.ageSource (h : Hw) (src : Source) (retry : Bool) : Hw :=
  let s := src.gateNum
  if s = 8 then h
  else if !retry then { h with gate.retries := h.gate.retries.put 0 s 0, gate.aged := h.gate.aged.filter (· ≠ s) }
  else
    let n := min (h.gate.retries.get 0 s + 1) 32
    let h := { h with gate.retries := h.gate.retries.put 0 s n }
    if n = 32 ∧ s ∉ h.gate.aged then ({ h with gate.aged := h.gate.aged ++ [s] } : Hw).setIrq 0x04 1 else h

/-- GATE.LAST_REFUSE and LAST_ADDR of a refusal other than RETRY. -/
def Hw.lastRefuse (h : Hw) (r : GateReq) (c : GateCode) : Hw :=
  let w := c.num + 16 * r.src.gateNum + 256 * r.tag.toNat + 262144 * r.slice.getD 0 + 2 ^ 28 * b2n r.slice.isNone + 2 ^ 31
  let h := h.setReg Reg.GATE_LAST_REFUSE (BitVec.ofNat 32 w)
  ((h.setReg Reg.GATE_LAST_ADDR_LO (BitVec.ofNat 32 r.addr)).setReg Reg.GATE_LAST_ADDR_HI (BitVec.ofNat 32 (bits r.addr 32 20))).setIrq 0x04 0

/-- Windows kept for an aged source are free for replacement once it is granted (R103). -/
def Hw.dropGuards (h : Hw) (s : Nat) : Hw :=
  { h with gate.windows := h.gate.windows.map fun (w : Window) => match w.guard with
      | some (x, _) => if x = s then { w with guard := none } else w
      | none => w }

/-- One request judged: its answer, with everything that the answer leaves behind (R49, R50, R87, R103). -/
def Hw.gateJudge (h : Hw) (r : GateReq) (accum : BitVec 4) : Hw × GateCode × Option Window :=
  let (h, c, w) := h.gateSteps r accum
  let h := h.emit (.gate r.src r.tag c)
  let h := h.ageSource r.src (c == .retry)
  match c with
  | .none => ((h.incReg Reg.GATE_GRANT_CNT).dropGuards r.src.gateNum, c, w)
  | _ =>
    let h := h.incReg (Reg.GATE_REFUSE_CNT c.num)
    let h := if c = .retry then h else h.lastRefuse r c
    (h, c, w)

/-- The Gate answers requests: once BLK_READY has been driven, and while the whole block is being reset (R49, R427, R468). DESIGN
CHOICE for the time before (log entry 54). -/
def Hw.gateRuns (h : Hw) : Bool := h.prime.ready || h.blockFenced

/-- The region's fill pattern, as the Region Table holds it. -/
def Hw.regionFill (h : Hw) (r : Nat) : Word := match h.regions.table.get none r with | some e => e.fill | none => 0

/-- The SEAL key family of a region. -/
def Hw.regionFamily (h : Hw) (r : Nat) : Nat := match h.regions.table.get none r with | some e => e.family | none => 0

/-- A granted transaction with what the grant records (R88, R113). -/
def Hw.grantTxn (h : Hw) (src : Source) (k : ReqKind) (slice addr lines : Nat) (w : Option Window) : Txn :=
  let t := h.newTxn src k (w.map (·.cls)) slice (BitVec.ofNat 46 addr) lines
  match w with
  | some w =>
    let t := { t with region := w.region, gen := w.gen, fill := h.regionFill w.region, family := h.regionFamily w.region }
    if w.cls = .sealed then (match h.cached (granuleOf addr) with | some e => t.record e | none => t) else t
  | none => t

/-- Where a granted Transaction Port request stands first: it waits for its data beat, for its keys or for the
Regulator; a LOCAL load is answered (R54, R55, R321). -/
def Hw.startUtp (h : Hw) (t : Txn) : Hw :=
  let needsData := t.kind.writes || t.kind.atomic || t.kind.compute
  if needsData then h.addTxn { t with stage := .awaitData }
  else match t.cls with
    | none => h.addTxn { t with
        stage := .ready, checked := true, answer := (List.range t.lines).map fun k => h.localLine t.slice (t.addr.toNat % 65536 + 64 * k) }
    | some .sealed => (h.addTxn { t with stage := .keyWait }).advance t.id
    | some _ => (h.addTxn t).enqueueTxn t

/-- Class of a port's master is RT (R342). -/
def Hw.portIsRt (h : Hw) (p : Fin 8) : Bool := h.regF (Reg.REG_Mm_CFG p.val) 0 2 == 0

/-- Counter of a granted Transaction Port operation, and by how much it advances: SEAL and LINK by lines (R442). -/
def grantCounter (cls : Option RClass) (k : ReqKind) (lines : Nat) : Nat × Nat :=
  match cls, k with
  | some .sealed, .load => (0, lines) | some .sealed, .store => (1, lines)
  | none, .load => (4, 1) | none, .store => (5, 1)
  | _, .load => (2, lines) | _, .store => (3, lines)
  | _, .add => (6, 1) | _, .min => (7, 1) | _, .max => (8, 1) | _, .cas => (9, 1)
  | _, .reduceMin => (10, 1) | _, .reduceMax => (11, 1) | _, .gather => (12, 1) | _, .filter => (13, 1)
  | _, _ => (15, 0)

/-- UTP_REQUEST: a Transaction Port presents a request (R49, R87). -/
def Hw.utpRequest (h : Hw) (p : Fin 8) (r : UtpReq) : Hw :=
  if !h.gateRuns then h
  else
    let q := h.utpReq p r
    let (h, c, w) := h.gateJudge q 0
    let h := if q.bad && c == .perm then h.raise (184 + p.val) (detailWord q.slice none p.val r.tag.toNat) 0 0 0 else h
    match c, q.kind with
    | .none, some k =>
      let t := h.grantTxn (.utp p) k (q.slice.getD 0) (q.addr % 2 ^ 46) q.lines w
      let t := { t with
        tag := r.tag, atype := r.atype
        deadline := if h.portIsRt p then some (h.clk.now + 8 * r.deadline.toNat) else none }
      let n := grantCounter t.cls k q.lines
      (h.tally n.1 n.2).startUtp t
    | .none, none => h
    | _, _ => h.tally 15 1

/-- A negative entry kept; the oldest of 16 is replaced (R97). -/
def Hw.addNegative (h : Hw) (slice g : Nat) (perm : Bool) : Hw :=
  let kept := if h.gate.negatives.length < 16 then h.gate.negatives else h.gate.negatives.drop 1
  { h with gate.negatives := kept ++ [⟨slice, g, perm⟩] }

/-- A resolution is over. -/
def Hw.endResolution (h : Hw) (slice g : Nat) : Hw :=
  { h with gate.resolutions := h.gate.resolutions.filter fun r => !(r.slice == slice && r.granule == g) }

/-- The Region Table cache's entry for a resolution: by the index of a listed region, else by the granule (R93, R98). -/
def Hw.rtcOf (h : Hw) (r : Resolution) : Option (Nat × Region) :=
  match r.listed with | some i => h.gate.rtc.find? fun p => p.1 == i | none => h.rtcFor r.granule

/-- A resolution discarded and started again (R102). -/
def Hw.restartResolution (h : Hw) (r : Resolution) : Hw :=
  let h := h.endResolution r.slice r.granule
  h.queueResolution (h.newResolution r.slice r.granule (h.rtcOf r) r.aged r.listed r.pins)

/-- An aged source's resolution that has its result goes first (R103). -/
def Hw.agedFirst (h : Hw) (r : Resolution) : Bool := r.aged.isNone && h.gate.resolutions.any fun x => x.aged.isSome && x.found.isSome

/-- WINDOW_RESOLUTION_DONE: a resolution ends with a window or a negative entry, or is started again (R97, R102). -/
def Hw.windowResolutionDone (h : Hw) (slice g : Nat) : Hw :=
  match h.gate.resolutions.find? fun r => r.slice == slice && r.granule == g with
  | none => h
  | some r =>
    let old := decide (r.era ≠ h.gate.era)
    if h.agedFirst r then h
    else match r.found with
    | none => h
    | some none => if old then h.restartResolution r else (h.endResolution slice g).addNegative slice g false
    | some (some (idx, _)) =>
      match h.gate.rtc.find? fun p => p.1 == idx with
      | none => h.restartResolution r
      | some (_, e) =>
        if !(decide (e.base ≤ g) && decide (g < e.base + e.size)) then h.restartResolution r
        else if e.state ≠ .active then (if old then h.restartResolution r else (h.endResolution slice g).addNegative slice g false)
        else match e.shares.find? fun s => s.2.1 == slice with
          | none => if old then h.restartResolution r else (h.endResolution slice g).addNegative slice g true
          | some s =>
            let h := (h.endResolution slice g).placeWindow slice idx e s.2.2 r.aged
            r.pins.foldl (fun h n => h.pinWindow slice idx n) h

/-- An entry placed in the Region Table cache of 4,096 (R93). DESIGN CHOICE for the entry that leaves (log entry 56). -/
def Hw.rtcPlace (h : Hw) (idx : Nat) (e : Region) : Hw :=
  let rest := h.gate.rtc.filter fun p => p.1 != idx
  { h with gate.rtc := (if rest.length < 4096 then rest else rest.drop 1) ++ [(idx, e)] }

/-- A resolution changed. -/
def Hw.modResolution (h : Hw) (slice g : Nat) (f : Resolution → Resolution) : Hw :=
  { h with gate.resolutions := h.gate.resolutions.map fun r => if r.slice = slice ∧ r.granule = g then f r else r }

/-- The longest walk, and WALK_SLOW for one with a slow read (R95). -/
def Hw.walkEnd (h : Hw) (r : Resolution) : Hw :=
  let h := h.setF Reg.GATE_RESOLVE_STAT 16 16 (max (h.regF Reg.GATE_RESOLVE_STAT 16 16) (min r.ns 0xFFFF))
  if r.slow then h.raise 217 (detailWord (some r.slice) none 0 0) 0 0 0 else h

/-- A walk fails its checks: REGION_CORRUPT and a NO_WINDOW negative entry (R96); one that a REGION_OP has overtaken is started
again instead (R102). -/
def Hw.walkCorrupt (h : Hw) (r : Resolution) : Hw :=
  let h := (h.walkEnd r).raise 216 (detailWord (some r.slice) none 0 0) 0 0 0
  if r.era ≠ h.gate.era then h.restartResolution r
  else (h.endResolution r.slice r.granule).addNegative r.slice r.granule false

/-- A walk goes on to its next read, or has found that no region covers the granule (R95, R97). -/
def Hw.walkNext (h : Hw) (r : Resolution) (next : Option (Option WalkStage)) : Hw :=
  match next with
  | none => h.walkCorrupt r
  | some none => (h.walkEnd r).modResolution r.slice r.granule fun r => { r with found := some none }
  | some (some st) => (h.modResolution r.slice r.granule fun r => { r with stage := st }).walkAsk r.slice r.granule st

/-- The Region Table entry that a walk reads, judged (R96); its CRC may be inverted (R419). -/
def Hw.walkTable (h : Hw) (r : Resolution) (idx : Nat) (content : Option Line) : Hw :=
  match content with
  | none => h.walkCorrupt r
  | some l =>
    let (h, ok, _) := h.checked 5 (some 0) none none (regionCrcOk l)
    match regionDecode l ok with
    | some e =>
      if e.base ≤ r.granule ∧ r.granule < e.base + e.size then
        ((h.walkEnd r).rtcPlace idx e).modResolution r.slice r.granule fun r => { r with found := some (some (idx, e)) }
      else h.walkCorrupt r
    | none => h.walkCorrupt r

/-- REGION_WALK_READ: a read of a walk completes and is checked (R95, R96). `ns` is the time it took. A read that has faulted in
translation ends as one with an error flag (R294). -/
def Hw.regionWalkRead (h : Hw) (slice g : Nat) (read : MemRead) (ns : Nat) : Hw :=
  match h.gate.resolutions.find? (fun r => r.slice == slice && r.granule == g), h.dmOpen (.walk slice g) with
  | some r, some t =>
    if r.stage = .cached ∨ r.found ≠ none then h
    else
      let r := { r with ns := r.ns + ns, slow := r.slow || decide (160 < ns) }
      let (h, failed) := (h.modResolution slice g fun _ => r).dmClose t (read == .error)
      if failed then
        if r.retried then h.walkCorrupt r
        else (h.modResolution slice g fun r => { r with stage := r.first, retried := true }).walkAsk slice g r.first
      else
        let word := fun (stored : Word) => match read with | .other c => BitVec.ofNat 32 c.toNat | _ => stored
        match r.stage with
        | .dir => h.walkNext r (h.dirStep (word (h.regions.dir.get 0 (g / 512))))
        | .map k => h.walkNext r (mapStep (word (h.regions.maps.get 0 (512 * k + g % 512))))
        | .table idx =>
          h.walkTable r idx (match read with
            | .other c => some c
            | _ => (h.regions.table.get none idx).map Region.line)
        | .cached => h
  | _, _ => h

/-- WCACHE_INV_ALL: every unpinned window invalidated (R98). -/
def Hw.wcacheInvAll (h : Hw) : Hw := { h with gate.windows := h.gate.windows.filter fun w => w.pinned != [] }

/-- WCACHE_INV_BY_SLICE: the unpinned windows of one slice invalidated (R98). -/
def Hw.wcacheInvSlice (h : Hw) (s : Nat) : Hw :=
  { h with gate.windows := h.gate.windows.filter fun w => w.pinned != [] || w.slice != s }

/-- GATE.WCACHE_STAT. -/
def Hw.wcacheStat (h : Hw) : Word :=
  BitVec.ofNat 32 (h.gate.windows.length + 65536 * h.pinnedCount)

end Sys2Proof.Machine
end

