-- ==== Sys2Proof/Machine/Transfer.lean ====
section
/-! DEFINITION. SEAL_COPY and BULK_MOVE, and the fabric transfers that the CFE presents to the Gate for them
(R86, R123 to R131, R184 to R186). -/

namespace Sys2Proof.Machine

/-- The operands of SEAL_COPY are legal (R127, R128). -/
def QOp.copyOk (o : QOp) : Bool :=
  let lines := o.field 24 0 24
  o.field 4 2 30 == 0 && o.field 8 52 12 == 0 && o.field 16 46 18 == 0 && o.field 24 24 8 == 0 && lines != 0 &&
    o.field 8 0 6 == 0 && o.field 16 0 6 == 0 &&
    (o.field 4 1 1 == 0 || (o.field 8 6 2 == 0 && o.field 16 6 2 == 0 && lines % 4 == 0)) &&
    decide (o.poolAddr + 64 * lines ≤ 2 ^ 46)

/-- SEAL_COPY: its operands are checked, and its transfers begin (R127, R128). DEDUCED (log entry 16). -/
def Hw.sealCopy (h : Hw) (n i : Nat) : Hw :=
  match h.issuedOp n i 1 with
  | none => h
  | some o =>
    if !o.copyOk then h.opEnd n i .malformed .none
    else h.modOp n i fun o => { o with started := true, total := o.field 24 0 24, next := 0 }

/-- The operands of BULK_MOVE are legal (R185, R186). -/
def QOp.bulkOk (o : QOp) : Bool :=
  let lines := o.field 24 0 24
  o.field 4 1 3 == 0 && o.field 4 8 24 == 0 && o.field 8 52 12 == 0 && o.field 16 46 18 == 0 && o.field 24 24 40 == 0 && lines != 0 &&
    o.field 8 0 6 == 0 && o.field 16 0 6 == 0 && decide (o.poolAddr + 64 * lines ≤ 2 ^ 46)

/-- Target rack of a BULK_MOVE (R185). -/
def QOp.rack (o : QOp) : Nat := o.field 4 4 4

/-- A rack that BULK_MOVE cannot reach (R184, R186). -/
def Hw.rackUnreachable (h : Hw) (r : Nat) : Bool :=
  !h.regBit Reg.GATE_RACKS (16 + r) || !h.regBit (Reg.LINK_GW r) 31 || h.regF Reg.GATE_RACKS 0 4 == r

/-- BULK_MOVE: its operands and its rack are checked, and its transfers begin (R185, R186, R188). -/
def Hw.bulkMove (h : Hw) (n i : Nat) : Hw :=
  match h.issuedOp n i 2 with
  | none => h
  | some o =>
    if !o.bulkOk then h.opEnd n i .malformed .none
    else if h.rackUnreachable o.rack || h.bulk.stop then h.opEnd n i .stateRefused .none
    else h.modOp n i fun o => { o with started := true, total := o.field 24 0 24, next := 0 }

/-- Lines of the next transfer of an operation: up to 64, within one granule (R86, R169, R186). -/
def QOp.room (o : QOp) (addr : Nat) : Nat := min 64 (min (o.total - o.next) (32768 - bits addr 6 15))

/-- The Gate judges a transfer's granule once for each kind of transfer (R86, R90); a Gate refusal other than RETRY ends the operation once its
outstanding transfers have been answered (R128, R275). The CFE presents nothing to a domain that is being reset (R427). -/
def Hw.presentGranule (h : Hw) (n i : Nat) (k : ReqKind) (addr lines : Nat) (accum : BitVec 4) : Hw × Option (Option Window) :=
  match h.op n i with
  | none => (h, none)
  | some o =>
    let g := addr / 2 ^ 21
    if h.resetFences ((h.windowFor (h.queueSlice n) g).map (·.cls)) then (h, none)
    else
    let (h, c, w) := match o.grants.find? fun x => x.1 == g && x.2.1 == k && x.2.2.1 == accum with
      | some x => (h, if h.spaceFor (.cfe n i) then GateCode.none else .retry, x.2.2.2)
      | none => h.gateJudge ⟨.cfe n i, some k, addr, lines, some (h.queueSlice n), false, 0⟩ accum
    match c with
    | .none => (h.modOp n i fun o => { o with grants := (g, k, accum, w) :: o.grants.filter fun x => !(x.1 == g && x.2.1 == k && x.2.2.1 == accum) }, some w)
    | .retry => (h, none)
    | c => ((h.modOp n i fun o => { o with
        total := o.next, unit := c.num
        code := o.code.worse (match c with | .fenced => .aborted | .sliceGone => .aborted | _ => .stateRefused) }).opSettle n i, none)

/-- A transfer granted and issued: one more transaction of the operation. -/
def Hw.issueTransfer (h : Hw) (n i : Nat) (t : Txn) (moved : Nat) : Hw :=
  (h.addTxn t).modOp n i fun o => { o with next := o.next + moved, txns := o.txns ++ [t.id] }

/-- The next transfer of a SEAL_COPY (R123 to R130): `data` are the lines of device memory, `code` the group's entry
of the length array. -/
def Hw.copyPresent (h : Hw) (n i : Nat) (data : List Line) (code : Nat) (walk : BttWalk) : Hw :=
  match h.op n i with
  | none => h
  | some o =>
    let addr := o.poolAddr + 64 * o.next
    let dev := o.devAddr + 64 * o.next
    let out := o.field 4 0 1 == 1
    if o.total ≤ o.next then h
    else
      let kind := if out then ReqKind.copyOut else .copyIn
      match h.presentGranule n i kind addr (o.room addr) 0 with
      | (h, none) => h
      | (h, some w) =>
        let lq := match w with | some w => (match h.regions.table.get none w.region with | some e => e.lqFull | none => false) | none => false
        let grouped := o.field 4 1 1 == 1 && !lq
        let moved := if grouped then 4 else o.room addr
        let lines := if grouped then (if out then 4 else code % 4 + 1) else moved
        let group := o.next / 4
        match h.opAccess n i dev (64 * lines) out walk with
        | (h, false) => h
        | (h, true) =>
          let (h, ok) := if grouped then h.opAccess n i (o.field 28 0 32 * 2 ^ 20 + group / 4) 1 out walk else (h, true)
          if !ok then h
          else
            let t := { h.grantTxn (.cfe n i) kind (h.queueSlice n) addr lines w with
              stage := .keyWait, arg := if grouped then 1 else 0
              data := if out then [] else (List.range lines).map fun k => ⟨(data[k]?).getD 0, 0⟩ }
            let h := h.issueTransfer n i t moved
            let h := if grouped && !out then h.savedLines (4 - lines) else h
            let h := if out then h else h.tally (128 + b2n grouped) lines
            h.advance t.id

/-- The next message of a BULK_MOVE (R186, R188): `data` are the lines of device memory of a PUT. -/
def Hw.bulkPresent (h : Hw) (n i : Nat) (data : List Line) (walk : BttWalk) : Hw :=
  match h.op n i with
  | none => h
  | some o =>
    let pool := o.poolAddr + 64 * o.next
    let get := o.field 4 0 1 == 1
    if o.total ≤ o.next || 32 ≤ o.txns.length then h
    else
      let lines := o.room pool
      match h.presentGranule n i .bulk (o.rack * 2 ^ 46 + pool) lines 0 with
      | (h, none) => h
      | (h, some _) =>
        match h.opAccess n i (o.devAddr + 64 * o.next) (64 * lines) get walk with
        | (h, false) => h
        | (h, true) =>
          let flits := if get then 0 else (lines + 3) / 4
          let t := { h.grantTxn (.cfe n i) .bulk (h.queueSlice n) pool lines none with
            arg := o.rack, region := h.regF (Reg.LINK_GW o.rack) 0 16, epoch := h.bulk.seq, emin := h.regF Reg.SCU_RESET_GEN 0 16
            data := if get then [] else (List.range lines).map fun k => ⟨(data[k]?).getD 0, 0⟩ }
          let h := { h with bulk.seq := h.bulk.seq + flits }
          (h.issueTransfer n i t lines).enqueueTxn t

end Sys2Proof.Machine
end

