-- ==== Sys2Proof/Machine/Well.lean ====
section
/-! DEFINITION. The Event Well, the counter unit and the interrupt controller (R432 to R450). -/

namespace Sys2Proof.Machine

/-- Header of a record (R433): type, source, class and injected flag, time, rail sample, reset generation. -/
def Hw.wellRec (h : Hw) (type source cls : Nat) (injected : Bool) (suppressed : Nat) (w4 w5 w6 w7 : Word) : WellRec :=
  { w0 := BitVec.ofNat 32 (type % 256 + 256 * (source % 512) + 131072 * (cls % 8) + 1048576 * b2n injected +
      16777216 * min suppressed 255)
    w1 := BitVec.ofNat 32 (h.clk.now % 2 ^ 32)
    w2 := BitVec.ofNat 32 (h.clk.now / 2 ^ 32)
    w3 := BitVec.ofNat 32 (h.rail.samples.headD 0 % 65536 + 65536 * (h.regF Reg.SCU_RESET_GEN 0 16))
    w4 := w4, w5 := w5, w6 := w6, w7 := w7 }

/-- A staged item that takes a place among the 16 records. -/
def Staged.isRecord : Staged → Bool
  | .lostTrigger => false
  | _ => true

/-- A staged record with its gap flag set. -/
def Staged.withGap : Staged → Staged
  | .record r => .record { r with w0 := setBits r.w0 21 1 1 }
  | .trigger r => .trigger { r with w0 := setBits r.w0 21 1 1 }
  | .lostTrigger => .lostTrigger

/-- Records lost: counted in WELL.LOST, saturating (R437). -/
def Hw.wellLose (h : Hw) (n : Nat) : Hw := { h with well.lost := min (h.well.lost + n) 0xFFFFFFFF }

/-- Records that find room in the staging queue (R437). -/
def Hw.wellFits (h : Hw) (n : Nat) : Bool := !h.well.frozen && decide ((h.well.staging.filter Staged.isRecord).length + n ≤ 16)

/-- A record and the records that must follow it enter the staging queue together or are lost together (R437, R438). -/
def Hw.wellStage (h : Hw) (items : List Staged) : Hw :=
  if h.well.frozen then h.wellLose items.length
  else if !h.wellFits items.length then
    let h := h.wellLose items.length
    let marker := items.any fun i => match i with | .trigger _ => true | _ => false
    { h with
      well.gapNext := true
      well.staging := h.well.staging ++ (if marker then [.lostTrigger] else []) }
  else
    let items := if h.well.gapNext then (match items with | i :: is => i.withGap :: is | [] => []) else items
    { h with well.gapNext := false, well.staging := h.well.staging ++ items }

/-- The Well is armed and its trigger enabled (R438, R439). -/
def Hw.wellArmed (h : Hw) : Bool :=
  bit (h.perVal 0x018) 15 && !h.well.triggered && !h.well.frozen

/-- The trigger fires with a cause and a source: TRIG_INFO, the flag and its TRIGGER record (R438). -/
def Hw.wellTrigger (h : Hw) (cause source : Nat) : Hw × Staged :=
  let rec_ := h.wellRec 0x08 0 0 false 0 (BitVec.ofNat 32 (cause + 256 * source)) 0 0 0
  let h := h.setReg Reg.WELL_TRIG_INFO (BitVec.ofNat 32 (cause + 8 * source + 2 ^ 31))
  (({ h with well.triggered := true, well.postLeft := none }).setIrq 0x1E 0, .trigger rec_)

/-- TRIG_SRC names the source (R438). -/
def Hw.trigNames (h : Hw) (s : Nat) : Bool :=
  let t := h.perVal 0x019
  (bit t 15 && fld t 0 9 == s) || (bit t 31 && fld t 16 9 == s)

/-- Cause with which a raise fires the trigger, the lowest that matches (R438). -/
def Hw.trigCause (h : Hw) (s cls : Nat) (chip : Bool) : Option Nat :=
  if !h.wellArmed then none
  else if bit (h.perVal 0x018) cls then some 0
  else if h.trigNames s then some 1
  else if chip && bit (h.perVal 0x018) 9 then some 3
  else if decide (257 ≤ s ∧ s ≤ 262) && bit (h.perVal 0x018) 10 then some 4
  else none

/-- Words 4 to 6 of a HANG_FENCES record (R436): eight fences of 12 bits. -/
def hangFenceWord (fences : List Nat) (k : Nat) : Word :=
  BitVec.ofNat 32 ((fences.take 8).reverse.foldl (fun acc f => acc * 4096 + f % 4096) 0 / 2 ^ (32 * k))

/-- The record of a raise that has reached the FCU, under the recording rules (R437) and the trigger (R438). A record that finds no room
leaves the source's suppressed count as it is. -/
def Hw.wellFault (h : Hw) (r : Raise) (cls : Nat) (fresh chip : Bool) : Hw :=
  let cause := h.trigCause r.source cls chip
  let hold := h.regF Reg.WELL_HOLDOFF 0 16
  let last := h.well.lastRecord.get 0 r.source
  let due := decide (hold = 0) || decide (last = 0) || decide (last - 1 + hold * 1000 ≤ h.clk.now)
  if fresh || due || r.source == 257 || h.trigNames r.source || cause.isSome then
    let base := Staged.record (h.wellRec 0x01 r.source cls r.injected (h.well.suppressed.get 0 r.source) r.detail r.w5 r.w6 r.w7)
    let items := if r.source == 257 then
        [base, .record (h.wellRec 0x03 0 0 false 0 (hangFenceWord r.fences 0) (hangFenceWord r.fences 1)
          (hangFenceWord r.fences 2) (BitVec.ofNat 32 r.fences.length))]
      else [base]
    let h := if h.wellFits (items.length + b2n cause.isSome) then { h with
        well.suppressed := h.well.suppressed.put 0 r.source 0
        well.lastRecord := h.well.lastRecord.put 0 r.source (h.clk.now + 1) }
      else h
    match cause with
    | some c =>
      let (h, t) := h.wellTrigger c (if c = 3 then 0 else r.source)
      h.wellStage (items ++ [t])
    | none => h.wellStage items
  else
    { h with well.suppressed := h.well.suppressed.put 0 r.source (min (h.well.suppressed.get 0 r.source + 1) 255) }

/-- A record of any other type (R434); a BREACH record may fire the trigger (R438). -/
def Hw.wellEvent (h : Hw) (type : Nat) (w4 w5 w6 w7 : Word) : Hw :=
  let item := Staged.record (h.wellRec type 0 0 false 0 w4 w5 w6 w7)
  if type = 0x02 ∧ h.wellArmed ∧ bit (h.perVal 0x018) 8 then
    let (h, t) := h.wellTrigger 2 0
    h.wellStage [item, t]
  else h.wellStage [item]

/-- The freeze: records still staged are not written (R438). -/
def Hw.wellFreeze (h : Hw) : Hw :=
  let left := (h.well.staging.filter Staged.isRecord).length
  (({ h with well.frozen := true, well.staging := [], well.postLeft := none }).wellLose left).setIrq 0x1E 1

/-- A record written at wr_ptr (R432). -/
def Hw.wellPut (h : Hw) (r : WellRec) : Hw :=
  { h with
    well.ring := h.well.ring.put WellRec.empty (h.well.seq % 8192) r
    well.bad := h.well.bad.filter (· ≠ h.well.seq % 8192)
    well.seq := h.well.seq + 1 }

/-- TRIG_INFO.index takes wr_ptr, and the post records begin, or the Well freezes when there are none (R438). -/
def Hw.wellPost (h : Hw) (index : Nat) : Hw :=
  let h := h.setF Reg.WELL_TRIG_INFO 12 13 (index % 8192)
  let count := fld (h.perVal 0x01A) 0 13
  if count = 0 then h.wellFreeze else { h with well.postLeft := some count }

/-- A lost TRIGGER record whose place has come: TRIG_INFO.index names the next record to be written (R438). -/
def Hw.wellMark (h : Hw) : Hw :=
  if h.well.staging.takeWhile (fun i => !i.isRecord) = [] then h
  else ({ h with well.staging := h.well.staging.dropWhile fun i => !i.isRecord }).wellPost h.well.seq

/-- Writes the oldest staged record (R437, R438). -/
def Hw.wellWrite (h : Hw) : Hw :=
  let h := h.wellMark
  match h.well.staging with
  | [] => h
  | .lostTrigger :: _ => h
  | .trigger r :: rest =>
    let h := ({ h with well.staging := rest }).wellPut r
    h.wellPost (h.well.seq - 1)
  | .record r :: rest =>
    let h := { h with well.staging := rest }
    match h.well.postLeft with
    | none => h.wellPut r
    | some n =>
      let h := h.wellPut { r with w0 := setBits r.w0 22 1 1 }
      if n ≤ 1 then h.wellFreeze else { h with well.postLeft := some (n - 1) }

/-- The record at an index as it reads: CORRUPT where it holds an uncorrectable error (R441). -/
def Hw.wellRead (h : Hw) (index : Nat) : WellRec :=
  if index ∈ h.well.bad then { WellRec.empty with w0 := 0xFE } else h.well.ring.get WellRec.empty index

/-- Word `k` of a record. -/
def WellRec.word (r : WellRec) (k : Nat) : Word :=
  match k with
  | 0 => r.w0 | 1 => r.w1 | 2 => r.w2 | 3 => r.w3 | 4 => r.w4 | 5 => r.w5 | 6 => r.w6 | _ => r.w7

/-- WELL_RECORD_WRITE: one record of the staging queue is written (R437). -/
def Hw.wellRecordWrite (h : Hw) : Hw := h.wellWrite

/-- TRIG_NOW: a write of 1 to WELL.TRIG_NOW.go fires the trigger with cause manual (R438). -/
def Hw.trigNow (h : Hw) (value : Word) : Hw :=
  if bit value 0 && h.wellArmed then
    let (h, t) := h.wellTrigger 5 0
    h.wellStage [t]
  else h

/-- A staged item of a trigger that the Well has been armed again after: a record as any other. -/
def Staged.past : Staged → Option Staged
  | .trigger r => some (.record r)
  | .record r => some (.record r)
  | .lostTrigger => none

/-- REARM: unfreezes and arms the Well (R439). -/
def Hw.wellRearm (h : Hw) (value : Word) : Hw :=
  if bit value 0 then
    { h with well.triggered := false, well.frozen := false, well.postLeft := none, well.staging := h.well.staging.filterMap Staged.past }
  else h

/-- CHIP_RST_REQ has been asserted otherwise than by a raise: the trigger may fire, and its record follows what has been recorded of the
event (R438). -/
def Hw.wellChip (h : Hw) : Hw :=
  if h.wellArmed && bit (h.perVal 0x018) 9 then
    let (h, t) := h.wellTrigger 3 0
    h.wellStage [t]
  else h

/-- MARK_GO: a MARK record of WELL.MARK0 to MARK3 (R434). -/
def Hw.markGo (h : Hw) (value : Word) : Hw :=
  if bit value 0 then h.wellEvent 0x07 (h.reg (Reg.WELL_MARK 0)) (h.reg (Reg.WELL_MARK 1)) (h.reg (Reg.WELL_MARK 2)) (h.reg (Reg.WELL_MARK 3))
  else h

/-- CNT_SNAP: every counter copied into the shadow set (R443). -/
def Hw.cntSnap (h : Hw) : Hw := { h with cnt.shadow := h.cnt.live }

/-- CNT_CLEAR: every counter zeroed (R443). -/
def Hw.cntClear (h : Hw) : Hw := { h with cnt.live := [] }

/-- The selected counter, of the shadow set while CNT.CTL.shadow is 1 (R443). -/
def Hw.cntSelected (h : Hw) : Nat :=
  (if h.regBit Reg.CNT_CTL 1 then h.cnt.shadow else h.cnt.live).get 0 (h.regF Reg.CNT_SEL 0 8)

/-- ICU.TBASE (R449). -/
def Hw.icuVector (h : Hw) (v : Nat) : BitVec 48 :=
  let stride := max (h.regF Reg.ICU_STRIDE 2 14) 1 * 4
  BitVec.ofNat 48 ((h.reg Reg.ICU_TBASE_LO).toNat + h.regF Reg.ICU_TBASE_HI 0 16 * 2 ^ 32 + v * stride)

/-- ICU.TRAP (R449). -/
def Hw.icuTrapAddr (h : Hw) : BitVec 48 :=
  BitVec.ofNat 48 ((h.reg Reg.ICU_TRAP_LO).toNat + h.regF Reg.ICU_TRAP_HI 0 16 * 2 ^ 32)

/-- Presents a pending trap, or the lowest ready vector, when nothing is presented and CK_HOST runs (R78, R449). -/
def Hw.icuPresent (h : Hw) : Hw :=
  if h.icu.presented.isSome || h.pow.rung = .u4 || h.pow.rung = .u5 then h
  else if h.regBit Reg.ICU_TRAP_STAT 31 then
    ({ h with icu.presented := some (none, h.icuTrapAddr) }).emit (.irq h.icuTrapAddr 0 true)
  else match (List.range 64).find? fun v => h.icu.ready.getLsbD v with
    | some v => ({ h with icu.presented := some (some v, h.icuVector v) }).emit (.irq (h.icuVector v) v false)
    | none => h

/-- The trap made pending, or counted while it is (R412, R449). -/
def Hw.icuTrap (h : Hw) (source : Nat) : Hw :=
  let h := h.incReg Reg.ICU_TRAP_CNT
  if h.regBit Reg.ICU_TRAP_STAT 31 then h
  else (h.setReg Reg.ICU_TRAP_STAT (BitVec.ofNat 32 (source + 2 ^ 31))).icuPresent

/-- VECTOR_FIRE: a vector whose count or running timer has reached its setting becomes ready (R448). -/
def Hw.vectorFire (h : Hw) (v : Nat) : Hw :=
  let cfg := Reg.ICU_VCFGv v
  let due := decide (max (h.regF cfg 0 16) 1 ≤ h.icu.since.get 0 v) ||
    (decide (0 < h.regF cfg 16 16) && decide (0 < h.icu.timer.get 0 v))
  if v < 64 ∧ due = true then
    ({ h with
      icu.since := h.icu.since.put 0 v 0
      icu.timer := h.icu.timer.put 0 v 0
      icu.ready := h.icu.ready ||| ((1 : BitVec 64) <<< v) }).icuPresent
  else h

/-- IRQ_ACK: the core takes what is presented, and the next is presented (R78, R449). -/
def Hw.irqAck (h : Hw) : Hw :=
  match h.icu.presented with
  | none => h
  | some (none, _) =>
    (({ h with icu.presented := none }).setF Reg.ICU_TRAP_STAT 31 1 0).icuPresent
  | some (some v, _) =>
    ({ h with icu.presented := none, icu.ready := h.icu.ready &&& ~~~((1 : BitVec 64) <<< v) }).icuPresent

/-- Sources of a pending register that can be asserted (R446, R450). -/
def icuLive (n : Nat) : Nat :=
  if n < 9 then (List.range 32).foldl (fun acc k => acc + (if sourceExists (32 * n + k) then 2 ^ k else 0)) 0
  else if n = 9 then 0 else if n = 10 then 0xFFFFFFFF else if n = 11 then 0x3F else 0xFFFFFFFF

/-- ICU_PEND_WRITE: a write replaces the pending bits of the sources that exist; a level that still holds sets its bit again
(R450). -/
def Hw.icuPendWrite (h : Hw) (n : Nat) (value : Word) : Hw :=
  if n < 16 then
    let h := h.setReg (Reg.ICU_PEND n) (value &&& BitVec.ofNat 32 (icuLive n))
    if n = 10 ∨ n = 11 then (List.range 0x50).foldl (fun h p => if pagePresent p then h.icuLevel p else h) h else h
  else h

/-- ICU_MASK_WRITE: a write replaces the masks; each source unmasked while pending counts as one assertion (R447, R450). -/
def Hw.icuMaskWrite (h : Hw) (n : Nat) (value : Word) : Hw :=
  if n < 16 then
    let freed := h.reg (Reg.ICU_MASK n) &&& ~~~value &&& h.reg (Reg.ICU_PEND n)
    let h := h.setReg (Reg.ICU_MASK n) value
    (List.range 32).foldl (fun h k => if freed.getLsbD k then h.icuCount (32 * n + k) else h) h
  else h

end Sys2Proof.Machine
end

