-- ==== Sys2Proof/Machine/Regulator.lean ====
section
/-! DEFINITION. The Regulator: the message of a piece of work, the order of service, budgets, floors and shares, and
aging (R342 to R352, R356 to R358). -/

namespace Sys2Proof.Machine

/-- Inline area of a transaction's request (R169, R187). -/
def Txn.inlineArea (t : Txn) : BitVec 1664 :=
  match t.kind with
  | .add | .min | .max | .cas => inlineOf [(0, ((t.data.head?.map SealedLine.data).getD 0).toNat % 2 ^ 128)]
  | .reduceMin | .reduceMax | .gather | .filter => inlineOf [(0, ((t.data.head?.map SealedLine.data).getD 0).toNat)]
  | .bulk => inlineOf [(0, t.emin % 65536 * 2 ^ 48 + t.epoch % 2 ^ 48), (8, b2n (t.data == []))]
  | _ => 0

/-- Class field of a transaction (R167): SEAL 0, LINK 2, BULK 4. -/
def Txn.clsField (t : Txn) : Nat :=
  if t.kind = .bulk then 4 else match t.cls with | some .sealed => 0 | some .blind => 1 | _ => 2

/-- The argument of a transaction's request (R169): the type of an atomic, or the condition etag of the Pump's write. -/
def Txn.argField (t : Txn) : Nat :=
  match t.kind with
  | .store => if t.src = .pump then t.arg else 0
  | k => if k.atomic || k.compute then t.atype.toNat else 0

/-- Lines field of a transaction's request (R167, R169). -/
def Txn.linesField (t : Txn) : Nat := if t.fabOp = .groupRead then 0 else if t.kind.atomic then 0 else t.lines

/-- Header of a transaction's request (R167). -/
def Hw.txnHeader (h : Hw) (t : Txn) : Header :=
  let bulk := t.kind == .bulk
  let data := if t.kind.writes then (t.lines + 3) / 4 else if bulk then (t.data.length + 3) / 4 else 0
  { h.header t.fabOp.code 0 t.clsField data (if bulk then 0 else 1) t.region t.addr (if bulk then t.arg else h.regF Reg.GATE_RACKS 0 4)
      t.linesField t.argField t.id with pgen := t.pgen }

/-- The message of a transaction's request (R166 to R169). Its cluster seals the lines of a SEAL store and the data flits of a
gateway transfer later (R114, R188). -/
def Hw.txnMsg (h : Hw) (t : Txn) : Message :=
  { hdr := h.txnHeader t, inlineArea := t.inlineArea, lines := if t.kind.writes || t.kind == .bulk then t.data else [] }

/-- A message can leave a port now: it has a session, or the message is of the handshake, or it is the last of a session that ends; and
its pair is not fenced (R160, R165, R257). -/
def Hw.portReady (h : Hw) (p : Fin 16) (m : Message) : Bool :=
  let x := h.port p.val
  x.linkUp && !h.portFenced p.val && (match x.sess with
    | .up => m.hdr.op != 0x30 && m.hdr.op != 0x32
    | .setup => m.hdr.op == 0x30 && m.hdr.vc == 3
    | .ending => m.hdr.op == 0x32
    | .none => false)

/-- The Link Port on which a piece of work can leave now; none while it must wait (R172). -/
def Hw.itemPort (h : Hw) (i : WorkItem) : Option (Fin 16) :=
  match i.work with
  | .message m => (match i.port with
    | some p => if h.portReady p m then some p else none
    | none => h.portFor m.hdr)
  | .txn id => match h.txn id with | some t => h.portFor (h.txnHeader t) | none => none

/-- Class in force of a master (R342): 0 RT, 1 BULK, 2 BACKGROUND, 3 CONTROL. -/
def Hw.masterClass (h : Hw) (m : Nat) : Nat := if 12 < m then 1 else h.regF (Reg.REG_Mm_CFG m) 0 2

/-- Bytes charged to a master in this window. -/
def Hw.chargedTo (h : Hw) (m : Nat) : Nat := h.rgl.charged.get 0 m

/-- A master's cap is reached (R347). -/
def Hw.atCap (h : Hw) (m : Nat) : Bool :=
  let cap := if 12 < m then 0 else h.regF (Reg.REG_Mm_CAP m) 0 24
  cap != 0 && decide (256 * cap ≤ h.chargedTo m)

/-- Work that DETERMINISTIC confines to quiet windows: what the Pump reads and writes, and the notices of a home (R33, R152, R311). -/
def Hw.background (h : Hw) (i : WorkItem) : Bool :=
  match i.work with
  | .message m => m.hdr.op == 0x22 || m.hdr.op == 0x24
  | .txn id => match h.txn id with | some t => t.src == .pump | none => false

/-- A piece of work that may be passed now: it has a port, its master's cap does not hold it, and it is not background work that must
wait for a quiet window (R311, R347, R348). -/
def Hw.eligible (h : Hw) (i : WorkItem) : Bool :=
  (h.itemPort i).isSome && (!h.atCap i.master || h.masterClass i.master == 0 || i.master == 13) && (h.backgroundNow || !h.background i)

/-- The slice that a piece of work counts for at step 6 (R348): 1,024 for the Pump and promoted work. -/
def WorkItem.share (i : WorkItem) : Nat := if i.master = 10 ∨ i.promoted = true then 1024 else i.slice

/-- A slice's weight at step 6 (R351). -/
def Hw.cluWeight (h : Hw) (s : Nat) : Nat := if s = 1024 then 16 else fld (h.rgl.weights.get 0x1010 s) 0 8

/-- Keeps the better of two pieces of work. -/
def pickBy (better : WorkItem → WorkItem → Bool) (l : List WorkItem) : Option WorkItem :=
  l.foldl (fun acc i => match acc with | none => some i | some a => if better i a then some i else some a) none

/-- Step of R348 of a piece of work. -/
def Hw.serviceStep (h : Hw) (i : WorkItem) : Nat :=
  if i.master = 13 then 1
  else if i.master = 12 then 2
  else if i.aged then 3
  else if h.masterClass i.master = 0 ∧ h.atCap i.master = false then 4
  else if h.chargedTo i.master < 256 * (h.regF (Reg.REG_Mm_FLOOR i.master) 0 24) then 5
  else if h.masterClass i.master ≤ 1 ∨ i.promoted = true then 6 else 7

/-- Order within a step (R348, R349, R351): `a` is served before `b`. -/
def Hw.before (h : Hw) (step : Nat) (a b : WorkItem) : Bool :=
  let older := decide (a.seq < b.seq)
  match step with
  | 4 =>
    let da := a.deadline.getD 0
    let db := b.deadline.getD 0
    if da ≠ db then decide (da < db) else if a.master ≠ b.master then decide (a.master < b.master) else older
  | 5 =>
    let ra := h.chargedTo a.master * h.regF (Reg.REG_Mm_FLOOR b.master) 0 24
    let rb := h.chargedTo b.master * h.regF (Reg.REG_Mm_FLOOR a.master) 0 24
    if ra ≠ rb then decide (ra < rb) else if a.master ≠ b.master then decide (a.master < b.master) else older
  | 6 =>
    let wa := h.cluWeight a.share
    let wb := h.cluWeight b.share
    if (wa == 0) != (wb == 0) then wb == 0
    else
      let ca := h.rgl.sliceCharged.get 0 a.share * wb
      let cb := h.rgl.sliceCharged.get 0 b.share * wa
      if ca ≠ cb then decide (ca < cb) else older
  | 7 =>
    let ra := (a.master + 13 - (h.rgl.lastRobin + 1)) % 13
    let rb := (b.master + 13 - (h.rgl.lastRobin + 1)) % 13
    if ra ≠ rb then decide (ra < rb) else older
  | _ => older

/-- The work that the Regulator passes next, with its step (R348). -/
def Hw.nextWork (h : Hw) : Option (WorkItem × Nat) :=
  let ready := h.rgl.items.filter fun i => h.eligible i
  (List.range 8).findSome? fun s =>
    (pickBy (h.before s) (ready.filter fun i => h.serviceStep i == s)).map fun i => (i, s)

/-- Bits of the causes that a wait has seen (R350). -/
abbrev waitRepair : BitVec 5 := 1
/-- Step 1 work was passed ahead. -/
abbrev waitSched : BitVec 5 := 2
/-- Step 3 work was passed ahead. -/
abbrev waitAged : BitVec 5 := 4
/-- Served as BULK under a cap. -/
abbrev waitCap : BitVec 5 := 8
/-- Waited for credits or a time gate. -/
abbrev waitEgress : BitVec 5 := 16

/-- A message enters the egress queue of a port and a VC (R353). Gateway data is encrypted end to end on its way (R188). -/
def Hw.toEgress (h : Hw) (p : Fin 16) (i : EgressItem) : Hw :=
  let x := h.port p.val
  let v := x.vc i.msg.hdr.vc.toNat
  h.setPort p.val (x.setVc i.msg.hdr.vc.toNat { v with queue := v.queue ++ [i] })

/-- Masters that have eligible work waiting now. -/
def Hw.waitingMasters (h : Hw) : List Nat := ((h.rgl.items.filter fun i => h.eligible i).map (·.master)).eraseDups

/-- BULK work: of a BULK master, of an RT master at its cap, or promoted (R347, R348). -/
def Hw.bulkWork (h : Hw) (i : WorkItem) : Bool :=
  h.masterClass i.master == 1 || (h.masterClass i.master == 0 && h.atCap i.master) || i.promoted

/-- Slices that have BULK work waiting now. -/
def Hw.waitingSlices (h : Hw) : List Nat :=
  ((h.rgl.items.filter fun i => h.eligible i && h.bulkWork i).map (·.share)).eraseDups

/-- Masters and slices without work waiting have not waited throughout the window (R358). -/
def Hw.stillWaiting (h : Hw) : Hw :=
  { h with
    rgl.waitingAll := h.rgl.waitingAll.filter fun m => m ∈ h.waitingMasters
    rgl.slicesAll := h.rgl.slicesAll.filter fun s => s ∈ h.waitingSlices }

/-- Charges and records of a piece of work that is passed (R345, R348, R350, R358). -/
def Hw.chargeWork (h : Hw) (i : WorkItem) (step : Nat) : Hw :=
  let shared := step == 5 || step == 6
  let r := h.rgl
  let mark := if step = 1 then waitSched else if step = 3 then waitAged else 0
  let items := (r.items.filter fun x => x.seq != i.seq).map fun (x : WorkItem) =>
    { x with waitedFor := x.waitedFor ||| mark, ahead := if mark = 0 then x.ahead else x.ahead.put (0, 0) step i.party }
  ({ h with rgl := { r with
      items := items
      charged := if i.master ≤ 11 then r.charged.put 0 i.master (r.charged.get 0 i.master + i.bytes) else r.charged
      sliceCharged := if shared then r.sliceCharged.put 0 i.share (r.sliceCharged.get 0 i.share + i.bytes) else r.sliceCharged
      shareTotal := if shared then r.shareTotal + i.bytes else r.shareTotal
      passedSteps := r.passedSteps ||| ((1 : BitVec 8) <<< step)
      passedBy := r.passedBy.put (0, 0) step i.party
      lastRobin := if step = 7 then i.master else r.lastRobin } } : Hw).stillWaiting

/-- A SEAL store of a master, which its cluster seals after the Regulator has passed it (R114). The Pump's lines come sealed. -/
def Txn.sealsLater (t : Txn) : Bool := t.cls == some .sealed && t.kind.writes && t.src != .pump

/-- The gateway member that a BULK message goes to: the transaction's, or the member that an answer goes to (R184, R187). -/
def Hw.bulkPeer (h : Hw) (m : Message) : Nat :=
  if m.hdr.resp then m.hdr.dst.toNat else match h.txn m.hdr.txn.toNat with | some t => t.region | none => 0

/-- The pair of a port is under repair (R252): a cluster of it is not IN_SERVICE. -/
def Hw.pairRepair (h : Hw) (p : Nat) : Bool :=
  h.regF (Reg.CLU_STAT (p / 2 * 2)) 0 3 != 0 || h.regF (Reg.CLU_STAT (p / 2 * 2 + 1)) 0 3 != 0

/-- REGULATOR_PASS: the first waiting work in the order of service is passed and enters its port's egress queue (R41, R172, R348). A SEAL
store waits there in its place for its cluster to seal it (R114, R171). -/
def Hw.regulatorPass (h : Hw) : Hw :=
  match h.enginesRun, h.nextWork with
  | true, some (i, step) =>
    match h.itemPort i with
    | none => h
    | some p =>
      let capped := h.masterClass i.master == 0 && h.atCap i.master
      let i := if capped then { i with waitedFor := i.waitedFor ||| waitCap } else i
      let h := h.chargeWork i step
      let item := fun (txn : Option Nat) (m : Message) (ready : Bool) =>
        let m := if m.hdr.cls = 4 then h.bulkSeal (h.serving p.val) (h.bulkPeer m) m else m
        (⟨txn, m, m.flits, false, ready, i.deadline, if h.pairRepair p.val then i.waitedFor ||| waitRepair else i.waitedFor, i.master, i.ahead⟩ : EgressItem)
      match i.work with
      | .message m =>
        let m : Message := { m with hdr := { m.hdr with pgen := (h.port p.val).pgen } }
        let own := !m.hdr.resp && (m.hdr.op == 0x20#8 || m.hdr.op == 0x28#8)
        let t := if own then (h.txn m.hdr.txn.toNat).map (·.id) else none
        let h := match t with
          | some id => h.modTxn id fun t => { t with stage := .egress, port := some p }
          | none => h
        h.toEgress p (item t m true)
      | .txn id =>
        match h.txn id with
        | none => h
        | some t =>
          let t := { t with port := some p, pgen := (h.port p.val).pgen }
          let h := if t.kind.atomic then h.incReg Reg.FABOP_ATOM_CNT else if t.kind.compute then h.incReg Reg.FABOP_COMP_CNT else h
          (h.modTxn id fun _ => { t with stage := if t.sealsLater then .passed else .egress }).toEgress p (item (some id) (h.txnMsg t) (!t.sealsLater))
  | _, _ => h

/-- Length code with which a store's lines are sealed (R115, R123, R124). -/
def Txn.storeLc (t : Txn) : Nat := if t.kind = .copyIn ∧ t.arg = 1 then t.lines - 1 else 3

/-- The message of a transaction that waits in a port's egress queue, with its lines sealed (R114). -/
def Hw.sealedInPlace (h : Hw) (p : Fin 16) (id : Nat) (lines : List SealedLine) : Hw :=
  h.setPort p.val ((h.port p.val).setVc 0 { (h.port p.val).vc 0 with
    queue := ((h.port p.val).vc 0).queue.map fun i => if i.txn = some id then { i with ready := true, msg := { i.msg with lines := lines } } else i })

/-- SEAL_STORE_EGRESS: a passed SEAL store is sealed under the epoch recorded at its grant and sent with its metadata
(R105 to R111, R113, R114). One whose key set is gone completes ABORTED when the set may not be derived again, and waits for it
otherwise (R371, R372). -/
def Hw.sealStoreEgress (h : Hw) (id : Nat) : Hw :=
  match h.enginesRun, h.txn id with
  | true, some t =>
    match t.stage, t.port with
    | .passed, some p =>
      if h.keySetFor t.family t.epoch id then
        let lines := (List.range t.data.length).map fun k =>
          h.sealLine (h.serving p.val) t.family t.epoch (t.lineAddr k) t.storeLc ((t.data[k]?.map SealedLine.data).getD 0)
        (h.modTxn id fun t => { t with stage := .egress }).sealedInPlace p id lines
      else if h.mayDerive t.family t.epoch then h
      else (h.dropEgress id).finishTxn id .aborted
    | _, _ => h
  | _, _ => h

/-- Link Ports connected (R48, R347). -/
def Hw.connectedPorts (h : Hw) : Nat := ((List.range 16).filter fun p => h.regBit Reg.CAP_PORTS p).length

/-- REG.FLOOR_MAX for a window (R347). -/
def Hw.floorMax (h : Hw) (halfUs : Nat) : Nat := halfUs * 20000 * h.connectedPorts / 256

/-- Length of a window in network time, in ns (R346). -/
def Hw.windowNs (h : Hw) : Nat := 500 * max (h.regF Reg.REG_WINDOW 0 8) 1

/-- A breach situation (R357): its count, its record unless this window has one already, and LAST_BREACH. -/
def Hw.breach (h : Hw) (winner loser winKind winParty loseKind loseParty : Nat) : Hw :=
  let h := (h.incReg Reg.REG_BREACH_CNT).setReg Reg.REG_LAST_BREACH
    (BitVec.ofNat 32 (winner + 16 * loser + 256 * loseKind + 2048 * (loseParty % 65536) + 2 ^ 31))
  let h := h.setIrq 0x13 2
  let key := (winner, loser, loseKind, loseParty)
  if key ∈ h.rgl.breaches ∨ 16 ≤ h.rgl.breaches.length then h
  else
    let h := { h with rgl.breaches := h.rgl.breaches ++ [key] }
    h.wellEvent 0x02 (BitVec.ofNat 32 (winner + 16 * loser + 256 * winKind + 4096 * loseKind)) (BitVec.ofNat 32 winParty)
      (BitVec.ofNat 32 loseParty) (BitVec.ofNat 32 h.rgl.windowStart)

/-- The highest rank among the steps passed in the window (R358): step 1 rank 4, step 3 rank 3, step 4 rank 5. -/
def Regulator.winner (r : Regulator) : Option Nat :=
  if r.passedSteps.getLsbD 3 then some 3 else if r.passedSteps.getLsbD 1 then some 4 else if r.passedSteps.getLsbD 4 then some 5 else none

/-- The winning party of a rank: that of the work last passed at the rank's step (R357). DESIGN CHOICE (log entry 71). -/
def Regulator.winnerParty (r : Regulator) (rank : Nat) : Nat × Nat :=
  r.passedBy.get (0, 0) (match rank with | 3 => 3 | 4 => 1 | 5 => 4 | _ => 5)

/-- A master that waited throughout the window and was charged less than its floor (R358). -/
def Hw.floorMiss (h : Hw) (m : Nat) : Hw :=
  let h := (h.incReg Reg.REG_FLOOR_MISS_CNT).setIrq 0x13 1
  match h.rgl.winner with
  | some w =>
    let by' := h.rgl.winnerParty w
    h.breach w 6 by'.1 by'.2 0 m
  | none => h

/-- A slice that waited throughout the window and received less than half its weighted part (R358). -/
def Hw.shareMiss (h : Hw) (s : Nat) : Hw :=
  let w := if h.rgl.passedSteps.getLsbD 5 then some 6 else h.rgl.winner
  match w with
  | some w =>
    let by' := h.rgl.winnerParty w
    h.breach w 7 by'.1 by'.2 1 s
  | none => h

/-- A register write that waited for the refill takes effect (R346, R351): from 2^20 up, a slice's weights. -/
def Hw.applyPending (h : Hw) (w : Nat × Word) : Hw :=
  if w.1 < 2 ^ 20 then h.setReg w.1 w.2 else { h with rgl.weights := h.rgl.weights.put 0x1010 (w.1 - 2 ^ 20) w.2 }

/-- BUDGET_REFILL: a window ends: floors and shares are judged, charges return to 0 and pending writes take effect
(R346, R357, R358). -/
def Hw.budgetRefill (h : Hw) : Hw :=
  let h := h.stillWaiting
  let still := h.rgl.waitingAll
  let h := (still.filter fun m => m ≤ 11 && decide (h.chargedTo m < 256 * h.regF (Reg.REG_Mm_FLOOR m) 0 24)).foldl (fun h m => h.floorMiss m) h
  let slices := h.rgl.slicesAll
  let weight := (slices.map fun s => h.cluWeight s).foldl (· + ·) 0
  let short := slices.filter fun s => s < 1024 && decide (2 * weight * h.rgl.sliceCharged.get 0 s < h.rgl.shareTotal * h.cluWeight s)
  let h := short.foldl (fun h s => h.shareMiss s) h
  let writes := h.rgl.pendingWrites
  let h := { h with
    rgl.charged := [], rgl.sliceCharged := [], rgl.shareTotal := 0, rgl.passedSteps := 0, rgl.passedBy := [], rgl.breaches := []
    rgl.windowStart := h.clk.now, rgl.pendingWrites := [], cfe.issues := [] }
  let h := writes.foldl (fun h w => h.applyPending w) h
  { h with rgl.waitingAll := h.waitingMasters, rgl.slicesAll := h.waitingSlices }

/-- WORK_AGED: the oldest work of a position in the order of grant has waited AGE_MAX, or, BACKGROUND work, BG_AGE
(R352). `promote` says which. -/
def Hw.workAged (h : Hw) (seq : Nat) (promote : Bool) : Hw :=
  match h.rgl.items.find? fun i => i.seq == seq with
  | none => h
  | some i =>
    if h.atCap i.master && h.masterClass i.master != 0 then h
    else if promote then
      if h.masterClass i.master = 2 ∧ i.promoted = false ∧ i.aged = false then
        ({ h with rgl.items := h.rgl.items.map fun (x : WorkItem) => if x.seq = seq then { x with promoted := true } else x } : Hw)
      else h
    else if i.aged then h
    else ({ h with rgl.items := h.rgl.items.map fun (x : WorkItem) => if x.seq = seq then { x with aged := true } else x } : Hw).incReg Reg.REG_AGED_CNT

/-- REG.STAT.pending and the value that a register with a waiting write shows (R346). -/
def Hw.pendingValue (h : Hw) (addr : Nat) : Option Word :=
  (h.rgl.pendingWrites.reverse.find? fun w => w.1 == addr).map (·.2)

/-- Sum of the floors with one of them replaced (R347), counting writes that wait. -/
def Hw.floorSumWith (h : Hw) (m units : Nat) : Nat :=
  (List.range 13).foldl (fun n k =>
    n + (if k = m then units else fld ((h.pendingValue (Reg.REG_Mm_FLOOR k)).getD (h.reg (Reg.REG_Mm_FLOOR k))) 0 24)) 0

/-- A write of REG.WINDOW, Mm_FLOOR, Mm_CAP, Mm_CFG or SSHARE (R342, R346, R347). -/
def Hw.budgetWrite (h : Hw) (addr : Nat) (value : Word) : Hw :=
  let put := fun (h : Hw) (a : Nat) (v : Word) => { h with rgl.pendingWrites := h.rgl.pendingWrites ++ [(a, v)] }
  let refuse := h.setF Reg.REG_STAT 0 1 1
  let accept := fun (h : Hw) (a : Nat) (v : Word) => put (h.setF Reg.REG_STAT 0 1 0) a v
  let winNow := fld ((h.pendingValue Reg.REG_WINDOW).getD (h.reg Reg.REG_WINDOW)) 0 8
  if addr = Reg.REG_WINDOW then
    let v := min (max (fld value 0 8) 1) 128
    if h.floorMax v < h.floorSumWith 99 0 then refuse else accept h addr (BitVec.ofNat 32 v)
  else if addr = Reg.REG_SSHARE then put h (2 ^ 20 + h.regF Reg.REG_SSEL 0 10) (value &&& 0xFFFF)
  else if addr < 0x13100 ∨ 0x131D0 ≤ addr then h
  else
    let m := (addr - 0x13100) / 16
    match (addr - 0x13100) % 16 with
    | 0 =>
      let c := fld value 0 2
      let ok := if m = 12 then c == 3 else if m = 10 then c == 2 else if m ≤ 7 then decide (c ≤ 2) else c == 1 || c == 2
      if ok then put h addr (BitVec.ofNat 32 c) else h.pageFault 0x13 .reservedWrite
    | 4 =>
      if h.floorMax winNow < h.floorSumWith m (fld value 0 24) then refuse else accept h addr (value &&& 0xFFFFFF)
    | 8 => put h addr (value &&& 0xFFFFFF)
    | _ => h

end Sys2Proof.Machine
end

