-- ==== Sys2Proof/Machine/Link.lean ====
section
/-! DEFINITION. The Link Ports: keys of a link session, flits as they leave and arrive, credits, sessions that end,
re-routes and dead targets (R63 to R66, R160 to R168, R178 to R183, R353 to R355). -/

namespace Sys2Proof.Machine

/-- Key and salt of one direction and generation of a session (R162, R165). The generation number enters the KDF of an update as a
context of two big-endian bytes, and a key and its salt take 32 and 4 bytes of the output. DESIGN CHOICE (log entry 64). -/
def linkMaterial (secret talk : List Byte) (gen : Nat) (rx : Bool) : BitVec 256 × BitVec 30 :=
  let b := if gen = 0 then kdf secret "SIRVIS LINK" (beBytes (Config.sha384 talk).toNat 48) 960
    else kdf secret "SIRVIS LINK UPDATE" (beBytes gen 2) 576
  let b := b.drop (if rx then 36 else 0)
  (BitVec.ofNat 256 (ofBytes (b.take 32)), BitVec.ofNat 30 (ofBytes ((b.drop 32).take 4)))

/-- The finish key of a handshake (R162). -/
def finishKey (secret talk : List Byte) : List Byte :=
  (kdf secret "SIRVIS LINK" (beBytes (Config.sha384 talk).toNat 48) 960).drop 72

/-- First link-session slot of a port (R366). -/
def linkSlot (p : Nat) : Nat := 16 + 4 * p

/-- A link session key of a port placed in its slot and written to both clusters of the port's pair (R249, R366). -/
def Hw.placeLinkKey (h : Hw) (p slot : Nat) (key : BitVec 256) : Hw :=
  h.placeBusKey (fun n => n / 2 == p / 2) slot { Slot.free with kind := 0, origin := 3, system := true, usage := 2 } key

/-- Keys and salts of one direction for the current generation and the next (R165, R366). -/
def Hw.loadLinkKeys (h : Hw) (p : Nat) (rx : Bool) (gen : BitVec 16) : Hw :=
  let x := h.port p
  let cur := linkMaterial x.secret x.talk gen.toNat rx
  let next := linkMaterial x.secret x.talk (gen + 1).toNat rx
  let s := linkSlot p + (if rx then 2 else 0)
  let h := (h.placeLinkKey p s cur.1).placeLinkKey p (s + 1) next.1
  let x := h.port p
  h.setPort p (if rx then { x with curGen := (x.curGen.1, gen), rxSalts := (cur.2, next.2) }
    else { x with curGen := (gen, x.curGen.2), txSalts := (cur.2, next.2) })

/-- A link session key as the cluster that serves the port holds it (R249). -/
def Hw.linkKey (h : Hw) (p slot : Nat) : BitVec 256 := h.cluKey (h.serving p) (4 * slot)

/-- Key and salt with which a VC sends now. -/
def Hw.txKey (h : Hw) (p v : Nat) : BitVec 256 × BitVec 30 :=
  let x := h.port p
  if x.txGen.get 0 v = x.curGen.1 then (h.linkKey p (linkSlot p), x.txSalts.1) else (h.linkKey p (linkSlot p + 1), x.txSalts.2)

/-- Key and salt with which a VC receives now. -/
def Hw.rxKey (h : Hw) (p v : Nat) : BitVec 256 × BitVec 30 :=
  let x := h.port p
  if x.rxGen.get 0 v = x.curGen.2 then (h.linkKey p (linkSlot p + 2), x.rxSalts.1) else (h.linkKey p (linkSlot p + 3), x.rxSalts.2)

/-- IV of a GCM flit (R162). -/
def linkIv (v : Nat) (salt : BitVec 30) (seq : BitVec 64) : BitVec 96 :=
  BitVec.ofNat 96 (v % 4 * 2 ^ 94 + salt.toNat * 2 ^ 64 + seq.toNat)

/-- Associated data of data flit `k` of a LINK message (R163): the tag in four little-endian bytes and the flit's index in four, the
first data flit having index 1. DESIGN CHOICE (log entry 63). -/
def flitAad (txn : BitVec 32) (k : Nat) : List Byte := leBytes txn.toNat 4 ++ leBytes k 4

/-- A message whose flits the link session encrypts (R163). -/
def Header.isSess (hd : Header) : Bool := hd.op == 0x30

/-- GCM flits of a message: its header, and its data flits where it is of class LINK (R163). -/
def Header.gcmFlits (hd : Header) : Nat := if hd.isSess then 0 else if hd.cls = 2 then 1 + hd.dflits.toNat else 1

/-- A message as its flits carry it (R163, R167, R168), under a key, a salt and the sequence of its first flit. -/
def wireOf (key : BitVec 256) (salt : BitVec 30) (seq : BitVec 64) (m : Message) : WireMessage :=
  if m.hdr.isSess then ⟨m.hdr.bits, m.inlineArea, 0, 0, m.lines⟩
  else
    let v := m.hdr.vc.toNat
    let c := gcmCrypt key (linkIv v salt seq) (leBytes m.inlineArea.toNat 208)
    let tag := gcmTag key (linkIv v salt seq) m.hdr.bytes c
    let fs := flitsOf m.lines
    let lines := if m.hdr.cls = 2 then (List.range fs.length).flatMap fun k =>
        let iv := linkIv v salt (seq + BitVec.ofNat 64 (k + 1))
        let d := gcmCrypt key iv (flitBytes (fs.getD k []))
        flitOf d (gcmTag key iv (flitAad m.hdr.txn (k + 1)) d)
      else m.lines
    ⟨m.hdr.bits, BitVec.ofNat 1664 (ofBytes c), tag, 0, lines⟩

/-- An ingress message opened (R163, R164): its content, and for each flit that the session protects whether its tag matches. -/
def openWire (key : BitVec 256) (salt : BitVec 30) (seq : BitVec 64) (w : WireMessage) : Message × List Bool :=
  let hd := Header.ofBits w.header
  if hd.isSess then (⟨hd, w.inlineArea, w.lines⟩, [])
  else
    let v := hd.vc.toNat
    let c := leBytes w.inlineArea.toNat 208
    let ok := gcmTag key (linkIv v salt seq) (leBytes w.header.toNat 32) c == w.tag
    let area := BitVec.ofNat 1664 (ofBytes (gcmCrypt key (linkIv v salt seq) c))
    if hd.cls = 2 then
      let fs := flitsOf w.lines
      let ds := (List.range fs.length).map fun k =>
        let iv := linkIv v salt (seq + BitVec.ofNat 64 (k + 1))
        let f := fs.getD k []
        (gcmTag key iv (flitAad hd.txn (k + 1)) (flitBytes f) == flitTag f, flitOf (gcmCrypt key iv (flitBytes f)) 0)
      (⟨hd, area, (ds.flatMap (·.2)).take hd.lines.toNat⟩, ok :: ds.map (·.1))
    else (⟨hd, area, w.lines⟩, [ok])

/-- Transactions sent on a port wait for their answers on the old path (R66, R180); a second re-route restarts nothing (R182). -/
def Hw.reroute (h : Hw) (p : Nat) : Hw :=
  { h with txns := h.txns.map fun (t : Txn) =>
      if (t.port.map (·.val)) = some p ∧ (t.stage = .inFlight ∨ t.stage = .egress ∨ t.stage = .passed) then { t with stage := .rerouted } else t }

/-- LPORT.STAT and the flags of a session's end (R165). -/
def Hw.sessionOver (h : Hw) (p reason : Nat) : Hw :=
  let up := (h.port p).sess == .up
  let h := if up then (h.setReg (Reg.LPORT_LAST_END p) (BitVec.ofNat 32 reason)).setIrq (0x30 + p) 1 else h
  h.reroute p

/-- A message of a session itself: SESS, KEY_UPDATE or SESS_END (R169). -/
def Message.ofSession (m : Message) : Bool := m.hdr.op == 0x30#8 || m.hdr.op == 0x31#8 || m.hdr.op == 0x32#8

/-- What waits on a port for a session that is over leaves: its own messages, and the rest of messages that it had begun to send
(R160, R165). -/
def Hw.purgeSession (h : Hw) (p : Nat) : Hw :=
  let stale := fun (i : WorkItem) => (i.port.map (·.val)) == some p && (match i.work with | .message m => m.ofSession | .txn _ => false)
  let h := { h with rgl.items := h.rgl.items.filter fun i => !stale i }
  (List.range 4).foldl (fun h v => h.modVc p v fun c => { c with queue := c.queue.filter fun i => !i.started && !i.msg.ofSession }) h

/-- A port without a session: its keys, salts and handshake are gone, and what it had still to send of that session (R160, R370). -/
def Hw.sessionClear (h : Hw) (p : Nat) (next : Sess) : Hw :=
  let s := linkSlot p
  let h := (h.eraseSlots ([s, s + 1, s + 2, s + 3] ++ (h.port p).eph.toList)).purgeSession p
  h.setPort p { h.port p with
    sess := next, peer := 0, eph := none, finSent := false, talk := [], secret := [], curGen := (0, 0), txGen := [], rxGen := []
    txSeq := [], rxSeq := [], lastKu := [], txSalts := (0, 0), rxSalts := (0, 0) }

/-- What follows a session on a port: a new handshake on a joined block whose link is up (R161). -/
def Hw.afterSession (h : Hw) (p : Nat) : Sess := if h.joined && h.dom.leaving == [] && (h.port p).linkUp then .setup else .none

/-- SESS_END with a reason, on its port (R165, R169). -/
def Hw.sessEndMsg (h : Hw) (reason : Nat) : Message :=
  h.controlMsg .sessEnd (some 0) 0 0 (inlineOf [(0, reason)])

/-- A session ends and the peer is told: SESS_END is the last flit under its keys (R164, R165). -/
def Hw.endSession (h : Hw) (p : Fin 16) (reason : Nat) : Hw :=
  match (h.port p.val).sess with
  | .up =>
    let h := h.sessionOver p.val reason
    (h.setPort p.val { h.port p.val with sess := .ending }).sendOnPort p (h.sessEndMsg reason)
  | .setup => h.sessionClear p.val (h.afterSession p.val)
  | _ => h

/-- The last flit of a transaction's message has left (R178). -/
def Hw.sentTxn (h : Hw) (id : Nat) : Hw :=
  h.modTxn id fun t => if t.stage = .egress then { t with stage := .inFlight, sentAt := h.clk.now } else t

/-- Cause of a missed deadline, the first that applies (R350). -/
def missCause (w : BitVec 5) : Nat :=
  if w.getLsbD 0 then 3 else if w.getLsbD 1 then 2 else if w.getLsbD 2 then 4 else if w.getLsbD 3 then 1 else if w.getLsbD 4 then 5 else 0

/-- RT_DEADLINE_MISS of a request whose first beat starts after its deadline (R350). -/
def Hw.deadlineMiss (h : Hw) (p : Fin 16) (i : EgressItem) (deadline : Nat) : Hw :=
  let c := missCause i.waitedFor
  let late := min ((h.clk.now - deadline) / 8) 0xFFFF
  let h := (h.incReg Reg.REG_RT_MISS_CNT).setReg Reg.REG_LAST_MISS (BitVec.ofNat 32 (i.master + 16 * c + 128 * late + 2 ^ 31))
  let h := h.raise 255 (detailWord none none i.master 0) i.master c late
  match c with
  | 3 => h.breach 2 5 3 (if h.cluState p.val = 0 then partner p.val else p.val) 0 i.master
  | 2 => h.breach 4 5 (i.ahead.get (0, 0) 1).1 (i.ahead.get (0, 0) 1).2 0 i.master
  | 4 => h.breach 3 5 (i.ahead.get (0, 0) 3).1 (i.ahead.get (0, 0) 3).2 0 i.master
  | _ => h

/-- Both directions move to the next generation once every VC has (R165). -/
def Hw.rotateKeys (h : Hw) (p : Nat) (rx : Bool) : Hw :=
  let x := h.port p
  let gens := if rx then x.rxGen else x.txGen
  let cur := if rx then x.curGen.2 else x.curGen.1
  if (List.range 4).all fun v => gens.get 0 v == cur + 1 then (h.loadLinkKeys p rx (cur + 1)).tally 155 1 else h

/-- The first beat of a message's header flit starts on a port: its flits are sealed and counted (R65, R163, R167). -/
def Hw.startMessage (h : Hw) (p : Fin 16) (i : EgressItem) : Hw :=
  let m := i.msg
  let v := m.hdr.vc.toNat
  let h := match i.deadline with | some d => if d < h.clk.now then h.deadlineMiss p i d else h | none => h
  let x := h.port p.val
  let (key, salt) := h.txKey p.val v
  let seq := x.txSeq.get 0 v
  let h := h.setPort p.val { x with txSeq := x.txSeq.put 0 v (seq + BitVec.ofNat 64 m.hdr.gcmFlits) }
  (h.addReg (Reg.LPORT_TX_FLITS p.val) m.flits).emit (.message p (x.txGen.get 0 v) seq (wireOf key salt seq m))

/-- What follows a message that has left: a KEY_UPDATE was the last flit of its VC under the old generation, a SESS_END the last of its
session (R165). -/
def Hw.afterMessage (h : Hw) (p : Nat) (m : Message) : Hw :=
  let v := m.hdr.vc.toNat
  let x := h.port p
  if m.hdr.op = 0x31 then
    (h.setPort p { x with txGen := x.txGen.put 0 v (x.txGen.get 0 v + 1), txSeq := x.txSeq.put 0 v 0 }).rotateKeys p false
  else if m.hdr.op = 0x32 then h.sessionClear p (h.afterSession p)
  else h

/-- Flits of the head message leave, up to `room` before the gate closes; none of them is charged again (R65, R353, R166). -/
def Hw.sendFlits (h : Hw) (p : Fin 16) (v room : Nat) : Hw × Nat :=
  match ((h.port p.val).vc v).queue with
  | [] => (h, 0)
  | i :: rest =>
    let x := (h.port p.val).vc v
    let n := min (min i.left x.credits) room
    let h := h.tally (144 + v) n
    if n = i.left then
      let h := h.modVc p.val v fun x => { x with queue := rest, credits := x.credits - n }
      ((match i.txn with | some id => h.sentTxn id | none => h).afterMessage p.val i.msg, n)
    else (h.modVc p.val v fun x => { x with queue := { i with left := i.left - n } :: rest, credits := x.credits - n }, n)

/-- Whole messages started from the head while the deficit allows (R353). -/
def Hw.startMessages (h : Hw) (p : Fin 16) (v : Nat) : Nat → Nat → Hw
  | 0, _ => h
  | fuel + 1, room =>
    let x := (h.port p.val).vc v
    match x.queue with
    | [] => h
    | i :: rest =>
      if i.started || !i.ready || room = 0 || x.deficit < i.msg.flits || x.credits < i.msg.flits || !h.portReady p i.msg then h
      else
        let h := h.modVc p.val v fun x => { x with deficit := x.deficit - i.msg.flits, queue := { i with started := true } :: rest }
        let (h, n) := (h.startMessage p i).sendFlits p v room
        Hw.startMessages h p v fuel (room - n)

/-- Everything waiting on a VC has waited for credits or its gate, or through a repair (R350). -/
def Hw.markWaits (h : Hw) (p v : Nat) (bitsSeen : BitVec 5) : Hw :=
  h.modVc p v fun x => { x with queue := x.queue.map fun (i : EgressItem) => { i with waitedFor := i.waitedFor ||| bitsSeen } }

/-- EGRESS.STUCK_STAT of a port, and a VC whose stretch of R355 has ended. -/
def Hw.unstick (h : Hw) (p v : Nat) : Hw :=
  let h := h.modVc p v fun x => { x with stuck := false }
  h.setF Reg.EGRESS_STUCK_STAT p 1 (b2n ((List.range 4).any fun k => ((h.port p).vc k).stuck))

/-- A message that a session's state does not let leave does not hold back the one that it does: SESS before a session, SESS_END at its
end (R160, R165). DEDUCED (log entry 21). -/
def Hw.orderQueue (h : Hw) (p : Fin 16) (v : Nat) : Hw :=
  let free := fun (i : EgressItem) => i.started || h.portReady p i.msg
  h.modVc p.val v fun c => { c with queue := c.queue.filter free ++ c.queue.filter fun i => !free i }

/-- EGRESS_VISIT: a port's scheduler visits its next VC (R41, R65, R353, R354). `gate` is TGATE; `room` is the number of flits
that leave before a gate closes. DESIGN CHOICE (log entry 21). -/
def Hw.egressVisit (h : Hw) (p : Fin 16) (gate : BitVec 4) (room : Nat) : Hw :=
  let x := h.port p.val
  if !x.linkUp || !h.enginesRun || h.portFenced p.val then h
  else
    let v := x.nextVc.toNat
    let h := h.orderQueue p v
    let x := h.port p.val
    let x := if v = 0 then { x with quantum := h.reg (Reg.EGRESS_Pn_QUANTUM p.val) } else x
    let h := h.setPort p.val { x with nextVc := x.nextVc + 1 }
    let h := if h.pairRepair p.val then h.markWaits p.val v waitRepair else h
    let c := (h.port p.val).vc v
    match c.queue with
    | [] => (h.modVc p.val v fun c => { c with deficit := 0 }).unstick p.val v
    | i :: _ =>
      if !gate.getLsbD v then (h.incReg (Reg.EGRESS_Pn_GATED p.val)).markWaits p.val v waitEgress
      else
        let h := h.unstick p.val v
        let (h, room, held) := if i.started then
            let (h, n) := h.sendFlits p v room
            (h, room - n, decide (n < i.left))
          else (h, room, false)
        if held then h.markWaits p.val v waitEgress
        else match ((h.port p.val).vc v).queue with
          | [] => h.modVc p.val v fun c => { c with deficit := 0 }
          | j :: _ =>
            if ((h.port p.val).vc v).credits < j.msg.flits then h.markWaits p.val v waitEgress
            else if !j.ready || !h.portReady p j.msg then h
            else
              let h := h.modVc p.val v fun c => { c with deficit := c.deficit + max (fld x.quantum (8 * v) 8) 1 }
              let h := h.startMessages p v ((h.port p.val).vc v).queue.length room
              if ((h.port p.val).vc v).queue = [] then (h.modVc p.val v fun c => { c with deficit := 0 }).unstick p.val v else h

/-- TGATE_STUCK: a gate has stayed closed with a message waiting for longer than EGRESS.GATE_MAX (R355). -/
def Hw.tgateStuck (h : Hw) (p : Fin 16) (v : Fin 4) : Hw :=
  let c := (h.port p.val).vc v.val
  if h.regF Reg.EGRESS_GATE_MAX 0 16 = 0 ∨ c.queue = [] ∨ c.stuck = true then h
  else
    let h := (h.modVc p.val v.val fun c => { c with stuck := true }).setF Reg.EGRESS_STUCK_STAT p.val 1 1
    let h := (h.incReg Reg.EGRESS_STUCK_CNT).setReg Reg.EGRESS_LAST_STUCK (BitVec.ofNat 32 (p.val + 16 * v.val + 2 ^ 31))
    h.raise 256 (detailWord none none p.val 0) 0 0 0

/-- LP_PROTOCOL of a port (R64, R65, R169, R170, R211). -/
def Hw.lpProtocol (h : Hw) (p : Nat) : Hw := h.raise (96 + p) (detailWord none none p 0) 0 0 0

/-- TX_CREDIT: the link layer returns one flit credit of a VC (R65). -/
def Hw.txCredit (h : Hw) (p : Fin 16) (v : Fin 4) : Hw :=
  if 255 ≤ ((h.port p.val).vc v.val).credits then h.lpProtocol p.val
  else h.modVc p.val v.val fun c => { c with credits := c.credits + 1 }

/-- RX_CREDIT pulsed for buffers of a VC that are free again (R64). -/
def Hw.returnCredits (h : Hw) (p : Fin 16) (v n : Nat) : Hw :=
  let x := h.port p.val
  (h.setPort p.val { x with granted := x.granted.put 0 v (x.granted.get 0 v + n) }).emit (.rxCredit p v n)

/-- Flits dropped before use: counted, and their credits returned (R160, R164). -/
def Hw.dropFlits (h : Hw) (p : Fin 16) (v n : Nat) : Hw := (h.addReg (Reg.LPORT_DROP_CNT p.val) n).returnCredits p v n

/-- The reserved fields of a header are 0 and no field holds a reserved value (R167). -/
def headerClean (b : BitVec 256) : Bool :=
  let hd := Header.ofBits b
  hd.bits == b && decide (hd.cls.toNat ≤ 4) && hd.dmode != 3 && decide (hd.dflits.toNat ≤ 16) && decide (hd.lines.toNat ≤ 64) &&
    (hd.resp || hd.status == 0) && (hd.dmode == 0 || hd.dst == 0)

/-- A response whose status is reserved, or not one that BLIND may answer with (R170, R211). -/
def Header.badStatus (hd : Header) : Bool :=
  hd.resp && (decide (4 ≤ hd.status.toNat) || (hd.cls == 1 && hd.status != 0 && hd.status != 2))

/-- The op is reserved (R169, R211). -/
def Header.badOp (hd : Header) : Bool := !opDefined hd.op.toNat || decide (0x13 ≤ hd.op.toNat ∧ hd.op.toNat ≤ 0x17)

/-- A transaction that an answer may still match: it has been issued and is not completed (R170, R179). -/
def Hw.matchTxn (h : Hw) (id : Nat) : Option Txn :=
  match h.txn id with
  | some t => (match t.stage with
    | .egress | .inFlight | .rerouted => some t
    | .queued => if 0 < t.reissues then some t else none
    | .passed => if 0 < t.reissues then some t else none
    | _ => none)
  | none => none

/-- The class key that opens a message's data is gone: its key slot has been erased (R183, R338). DEDUCED (log entry 66). -/
def Hw.deadSlot (h : Hw) (hd : Header) : Bool := (hd.cls == 4 && !(h.slot 12).live) || (hd.cls == 1 && !(h.slot 11).live)

/-- A message of which `k` flits have arrived in buffers, checked and routed or dropped (R160, R163, R164, R183): the flits before the
first whose tag fails stay; that one and those after it, which find no session, are dropped. -/
def Hw.ingressCheck (h : Hw) (p : Fin 16) (w : WireMessage) (k : Nat) (collective : Nat → Bool) : Hw :=
  let hd := Header.ofBits w.header
  let v := hd.vc.toNat
  let x := h.port p.val
  let hold := fun (h : Hw) (n : Nat) => h.setPort p.val { h.port p.val with held := (h.port p.val).held.put 0 v ((h.port p.val).held.get 0 v + n) }
  if x.sess ≠ .up ∧ !(hd.isSess && v == 3) then h.dropFlits p v k
  else
    let (key, salt) := h.rxKey p.val v
    let seq := x.rxSeq.get 0 v
    let (m, oks) := openWire key salt seq w
    let h := h.setPort p.val { x with rxSeq := x.rxSeq.put 0 v (seq + BitVec.ofNat 64 (min k hd.gcmFlits)) }
    let bad := (oks.take k).findIdx? fun b => !b
    let (h, ok, inj) := if hd.isSess then (h, true, false) else h.checked 7 (some p.val) none none bad.isNone
    if !ok then
      let j := bad.getD 0
      let h := ((hold (h.incReg (Reg.LPORT_AUTH_FAIL_CNT p.val)) j).dropFlits p v (k - j))
      let h := h.raiseWith ⟨128 + p.val, BitVec.ofNat 32 (detailWord none none p.val 0), 0, 0, 0, inj, []⟩
      h.endSession p 2
    else if hd.badOp || hd.badStatus then (h.dropFlits p v k).lpProtocol p.val
    else if !headerClean w.header then h.dropFlits p v k
    else if h.deadSlot hd then (h.sumpFlits p m k true).returnCredits p v k
    else if hd.resp && (h.matchTxn hd.txn.toNat).isNone && !(h.gkt.rounds.any fun r => r.txn == hd.txn.toNat) && !collective hd.txn.toNat then
      (h.sumpFlits p m k false).returnCredits p v k
    else hold h k

/-- Ingress flits of a port are held in its buffers: its pair is fenced, or the block is in U3 (R41, R257). -/
def Hw.ingressHeld (h : Hw) (p : Nat) : Bool := h.portFenced p || h.pow.rung == .u3

/-- The virtual channel of a message on the wire. -/
def WireMessage.vc (w : WireMessage) : Nat := (Header.ofBits w.header).vc.toNat

/-- `k` flits of a message in the buffers of a port: checked now, or held until they may be (R257, R312). -/
def Hw.ingressTake (h : Hw) (p : Fin 16) (w : WireMessage) (k : Nat) (collective : Nat → Bool) : Hw :=
  let x := h.port p.val
  let ctl := w.vc == 3
  if h.ingressHeld p.val || (h.deterministic && ctl && decide (16 < x.ctlUsed + k)) || (ctl && x.waiting.any fun y => y.1.vc == 3) then
    h.setPort p.val { x with waiting := x.waiting ++ [(w, k)] }
  else (if ctl then h.setPort p.val { x with ctlUsed := x.ctlUsed + k } else h).ingressCheck p w k collective

/-- INGRESS_FLIT: a message's flits arrive on a port; each that comes without a credit is dropped and raises LP_PROTOCOL (R64, R66,
R164, R257, R312). `collective` tells the transaction tags of open collectives. A message that has lost flits so is never complete.
DEDUCED (log entry 65). -/
def Hw.ingressFlit (h : Hw) (p : Fin 16) (w : WireMessage) (collective : Nat → Bool) : Hw :=
  let v := w.vc
  let n := 1 + (Header.ofBits w.header).dflits.toNat
  let x := h.port p.val
  if !x.linkUp then h
  else
    let k := min n (x.granted.get 0 v)
    let h := (List.range (n - k)).foldl (fun h _ => h.lpProtocol p.val) h
    if k = 0 then h
    else
      let h := (h.setPort p.val { h.port p.val with granted := x.granted.put 0 v (x.granted.get 0 v - k) }).addReg (Reg.LPORT_RX_FLITS p.val) k
      (h.tally (148 + v) k).ingressTake p w k collective

/-- Held messages of a port processed in their order, those of VC_CTL within the allowance (R257, R312). -/
def Hw.drainHeld (h : Hw) (p : Fin 16) (collective : Nat → Bool) : Hw :=
  let ws := (h.port p.val).waiting
  ws.foldl (fun h x => h.ingressTake p x.1 x.2 collective) (h.setPort p.val { h.port p.val with waiting := [] })

/-- CTL_INGRESS_ALLOWANCE: a new 1 us allowance period begins on every port (R312). -/
def Hw.ctlIngressAllowance (h : Hw) (collective : Nat → Bool) : Hw :=
  (List.finRange 16).foldl (fun h p => (h.setPort p.val { h.port p.val with ctlUsed := 0 }).drainHeld p collective) h

/-- INGRESS_CREDIT_RETURN: the content of a flit has passed the crossbar unflagged, and its buffer is freed; a fenced pair passes
nothing (R64, R251, R257). -/
def Hw.ingressCreditReturn (h : Hw) (p : Fin 16) (v : Fin 4) : Hw :=
  let x := h.port p.val
  if x.held.get 0 v.val = 0 || h.portFenced p.val then h
  else (h.setPort p.val { x with held := x.held.put 0 v.val (x.held.get 0 v.val - 1) }).returnCredits p v.val 1

/-- LINK_UP_RISE: 32 credits of each VC are returned, and a handshake starts if the block is joined (R64, R161). -/
def Hw.linkUpRise (h : Hw) (p : Fin 16) : Hw :=
  let x := h.port p.val
  if x.linkUp then h
  else
    let h := h.setPort p.val { x with linkUp := true, held := [], waiting := [], granted := [], sess := if h.joined && h.dom.leaving == [] then .setup else .none }
    (List.range 4).foldl (fun h v => h.returnCredits p v 32) h

/-- LINK_UP_FALL: the session ends, and every transaction outstanding on the port is treated as re-routed (R66, R165). -/
def Hw.linkUpFall (h : Hw) (p : Fin 16) : Hw :=
  if !(h.port p.val).linkUp then h
  else
    let h := (h.sessionOver p.val 1).sessionClear p.val .none
    h.setPort p.val { h.port p.val with linkUp := false }

/-- PATH_GEN_CHANGE: the transactions outstanding on the port start their T_PATH waits (R66, R180). -/
def Hw.pathGenChange (h : Hw) (p : Fin 16) (gen : BitVec 8) : Hw :=
  if (h.port p.val).pgen = gen then h
  else (h.setPort p.val { h.port p.val with pgen := gen }).reroute p.val

/-- A transaction completes DEAD_TARGET (R153, R139, R178). -/
def Hw.txnDead (h : Hw) (id : Nat) : Hw :=
  match h.txn id with
  | none => h
  | some t =>
    let op := match t.src with | .gktFetch => 0x20 | .control => 0x28 | .cfe _ _ => if t.kind = .bulk ∧ t.lines = 0 then 0x28 else t.fabOp.code | _ => t.fabOp.code
    let h := (h.dropEgress id).deadRecord t op
    match t.src with
    | .pump => h.pumpDead id
    | .gktFetch => (match h.gkt.fills.find? fun f => f.txn == some id with | some f => h.fillFailed f true | none => h.dropTxn id)
    | _ => h.finishTxn id .deadTarget

/-- The first flit of a transaction's message has left a port. -/
def Hw.firstFlitLeft (h : Hw) (t : Txn) : Bool :=
  match t.port with
  | some p => (List.range 4).any fun v => ((h.port p.val).vc v).queue.any fun i => i.txn == some t.id && i.started
  | none => false

/-- T_DEAD_EXPIRY: a transaction has no response LINK.T_DEAD after its last flit, or its first flit has not left LINK.T_DEAD after its
grant, or its reissue (R172, R178, R180). One that still awaits its write data is stalled by its port (R55), and one that a re-route
holds waits for T_PATH. -/
def Hw.tDeadExpiry (h : Hw) (id : Nat) : Hw :=
  match h.txn id with
  | none => h
  | some t =>
    match t.stage with
    | .inFlight | .queued | .keyWait | .passed => h.txnDead id
    | .egress => if h.firstFlitLeft t then h else h.txnDead id
    | _ => h

/-- FABOP.LAST_UNCERTAIN and ATOMIC_UNCERTAIN (R181). -/
def Hw.uncertain (h : Hw) (t : Txn) : Hw :=
  let a := t.addr.toNat
  let port := match t.src with | .utp p => p.val | _ => 0
  let h := (h.incReg Reg.FABOP_UNCERTAIN_CNT).setReg Reg.FABOP_LAST_UNCERTAIN
    (BitVec.ofNat 32 (port + 8 * t.tag.toNat + 8192 * t.slice + 2 ^ 31))
  h.raise 230 t.detail (a % 2 ^ 32) (a / 2 ^ 32) t.fabOp.code

/-- The control message that a transaction carries, sent again with its tag (R180): GKT_GET or FENCE_REMOTE. -/
def Hw.resendControl (h : Hw) (t : Txn) : Option Message :=
  match t.src with
  | .gktFetch =>
    let g := granuleOf t.addr.toNat
    some (h.controlMsg .gktGet (some (h.homeOf g)) g t.id (inlineOf [(0, g)]))
  | .cfe n i =>
    match h.op n i with
    | some o =>
      if o.opcode = 8 then
        some (h.fenceRemoteMsg (o.field 6 0 16) (o.field 4 0 12) (BitVec.ofNat 64 (o.field 8 0 64)) (if o.code = .ok then none else some o.code) t.id)
      else none
    | none => none
  | .control =>
    let v := match t.data with | l :: _ => l.data.toNat | [] => 0
    some (h.fenceRemoteMsg t.region t.addr.toNat (BitVec.ofNat 64 v) (if t.arg = 0 then none else some (CC.ofNum t.arg)) t.id)
  | _ => none

/-- T_PATH_EXPIRY: a re-routed transaction is reissued with its tag, or, an atomic, completes UNCERTAIN (R180 to R182). -/
def Hw.tPathExpiry (h : Hw) (id : Nat) : Hw :=
  match h.txn id with
  | none => h
  | some t =>
    if t.stage ≠ .rerouted then h
    else if t.kind.atomic then ((h.dropEgress id).uncertain t).finishTxn id .uncertain
    else if 3 ≤ t.reissues then h.txnDead id
    else
      let h := (((h.dropEgress id).incReg Reg.LINK_REISSUE_CNT).tally 153 1).modTxn id fun t => { t with stage := .queued, reissues := t.reissues + 1 }
      match h.resendControl t with
      | some m => h.sendControl m
      | none => match h.txn id with | some t => h.enqueueTxn t | none => h

/-- A key update of a port's transmit direction is due: a VC's sequence has reached 2^32, or LINK.KU_INTERVAL seconds, unless 0, have
passed since the last one (R165). -/
def Hw.updateDue (h : Hw) (x : LinkPort) : Bool :=
  let s := h.regF Reg.LINK_KU_INTERVAL 0 16
  ((List.range 4).any fun v => decide (2 ^ 32 ≤ (x.txSeq.get 0 v).toNat)) || (s != 0 && decide (x.lastUpdate + s * 1000000000 ≤ h.clk.now))

/-- KEY_UPDATE_START: a key update that is due starts, with KEY_UPDATE on each VC (R165). -/
def Hw.keyUpdateStart (h : Hw) (p : Fin 16) : Hw :=
  let x := h.port p.val
  let moving := (List.range 4).any fun v => x.txGen.get 0 v != x.curGen.1
  let queued := (h.rgl.items.any fun i => i.port == some p && (match i.work with | .message m => m.hdr.op == 0x31#8 | _ => false)) ||
    (List.range 4).any fun v => (x.vc v).queue.any fun i => i.msg.hdr.op == 0x31#8
  if x.sess ≠ .up ∨ h.updateDue x = false ∨ moving = true ∨ queued = true then h
  else (List.range 4).foldl (fun h v =>
    let m := h.controlMsg .keyUpdate (some 0) 0 0 (inlineOf [(0, (x.curGen.1 + 1).toNat)])
    h.sendOnPort p { m with hdr := { m.hdr with vc := BitVec.ofNat 2 v } }) (h.setPort p.val { x with lastUpdate := h.clk.now })

/-- KEY_UPDATE: a peer's KEY_UPDATE switches one VC's receive generation, or comes too early (R165). One that names another generation
than the VC's next is ignored. DESIGN CHOICE (log entry 64). -/
def Hw.keyUpdate (h : Hw) (p : Fin 16) (m : Message) : Hw :=
  let x := h.port p.val
  let v := m.hdr.vc.toNat
  if x.sess ≠ .up then h
  else if x.lastKu.get 0 v ≠ 0 ∧ h.clk.now < x.lastKu.get 0 v - 1 + 1000000 then
    (h.raise (144 + p.val) (detailWord none none p.val 0) 0 0 0).endSession p 4
  else if BitVec.ofNat 16 (inlineField m.inlineArea 0 16) ≠ x.rxGen.get 0 v + 1 then h
  else
    (h.setPort p.val { x with
      rxGen := x.rxGen.put 0 v (x.rxGen.get 0 v + 1), rxSeq := x.rxSeq.put 0 v 0
      lastKu := x.lastKu.put 0 v (h.clk.now + 1) }).rotateKeys p.val true

/-- SESS_END: the peer has ended the session (R165). -/
def Hw.sessEnd (h : Hw) (p : Fin 16) : Hw :=
  if (h.port p.val).sess ≠ .up then h
  else
    let h := h.sessionOver p.val 3
    h.sessionClear p.val (h.afterSession p.val)

/-- SESS_CTL_RESTART: a write of LPORT.SESS_CTL (R165). -/
def Hw.sessCtlRestart (h : Hw) (p : Fin 16) (value : Word) : Hw := if bit value 0 then h.endSession p 6 else h

/-- LPORT.STAT. -/
def Hw.lportStat (h : Hw) (p : Nat) : Word :=
  let x := h.port p
  BitVec.ofNat 32 (b2n x.linkUp + 2 * (match x.sess with | .none => 0 | .setup => 1 | .up => 2 | .ending => 3) + 256 * x.pgen.toNat + 65536 * x.peer.toNat)

/-- LPORT.GEN. -/
def Hw.lportGen (h : Hw) (p : Nat) : Word := BitVec.ofNat 32 ((h.port p).curGen.1.toNat + 65536 * (h.port p).curGen.2.toNat)

/-- A byte for each VC of a port. -/
def Hw.perVc (h : Hw) (p : Nat) (f : EgressVc → Nat) : Word :=
  BitVec.ofNat 32 ((List.range 4).foldl (fun acc v => acc + min (f ((h.port p).vc v)) 255 * 2 ^ (8 * v)) 0)

end Sys2Proof.Machine
end

