-- ==== Sys2Proof/Machine/Ports.lean ====
section
/-! DEFINITION. What arrives on the Transaction Ports, the Device Memory Ports, the Time Port and the Rail Sense Port
after a request has been granted: write beats, answers and their transfer, strobes and tags (R52 to R58, R62, R76,
R77). -/

namespace Sys2Proof.Machine

/-- The four lines of a 2,048-bit beat (R49). -/
def beatLines (beat : BitVec 2048) : List Line := (List.range 4).map fun k => BitVec.ofNat 512 (bits beat.toNat (512 * k) 512)

/-- The oldest granted request of a port that awaits its write data beat (R55). -/
def Hw.awaiting (h : Hw) (p : Fin 8) : Option Txn := h.txns.find? fun t => t.src == .utp p && t.stage == .awaitData

/-- A switch-compute request with REQ_ATYPE 3 is answered with zeros and not sent (R177). -/
def Hw.fabopOperand (h : Hw) (t : Txn) : Hw :=
  ((h.toPort t.id .ok (List.replicate 4 0)).incReg Reg.FABOP_OPERAND_CNT).raise 231 t.detail 0 0 0

/-- WRITE_DATA_BEAT: the beat of the oldest granted STORE, atomic or switch-compute request of a port (R55, R176, R177,
R320). A beat that no request awaits raises UTP_PROTOCOL. -/
def Hw.writeDataBeat (h : Hw) (p : Fin 8) (beat : BitVec 2048) : Hw :=
  match h.awaiting p with
  | none => h.raise (184 + p.val) (detailWord none none p.val 0) 0 0 0
  | some t =>
    if t.kind.compute && t.atype == 3 then h.fabopOperand t
    else
      let ls := (beatLines beat).take (if t.kind.writes then t.lines else 1)
      match t.cls with
      | none => (h.localStore t.slice (t.addr.toNat % 65536) ls).toPort t.id .ok []
      | some c =>
        let data := ls.map fun l => (⟨l, 0⟩ : SealedLine)
        if c = .sealed then (h.modTxn t.id fun t => { t with stage := .keyWait, data := data }).advance t.id
        else (h.modTxn t.id fun t => { t with stage := .queued, data := data }).enqueueTxn { t with stage := .queued, data := data }

/-- UTP_STALL: a port has been stalled for 4,096 cycles: a granted request's beat, or an answer's transfer (R55, R58). -/
def Hw.utpStall (h : Hw) (p : Fin 8) : Hw :=
  if h.txns.any fun t => t.src == .utp p && (t.stage == .awaitData || t.stage == .ready) then
    h.raise (192 + p.val) (detailWord none none p.val 0) 0 0 0
  else h

/-- The transaction of a port whose answer waits for the port's ready signal (R56). -/
def Hw.readyTxn (h : Hw) (p : Fin 8) (tag : BitVec 10) (read : Bool) : Option Txn :=
  h.txns.find? fun t => t.src == .utp p && t.tag == tag && t.stage == .ready && (t.kind == .load || t.kind.compute) == read

/-- READ_DATA_BEAT: a read data beat is transferred, and its UNTRUSTED window starts (R52, R56, R57). A beat that is known to fail draws
its strobe in the transfer cycle, so it waits until every beat of the port before it has been checked. DEDUCED (log entry 18). -/
def Hw.readDataBeat (h : Hw) (p : Fin 8) (tag : BitVec 10) : Hw :=
  match h.readyTxn p tag true with
  | none => h
  | some t =>
    let known := t.checked || t.checks == [] || t.checks.any fun c => c == .stale
    if known && t.failed && (h.windows p).any fun x => !x.checked then h
    else
      let h := (h.emit (.readBeat p tag t.status t.answer)).dropTxn t.id
      if t.kind ≠ .load then h
      else ({ h with txns := h.txns ++ [{ t with stage := .window, checked := known }] } : Hw).strobes p

/-- RSP_DATA: the old value of an atomic, 0 of a store (R56). -/
def Txn.rspData (t : Txn) : BitVec 64 :=
  if t.kind.atomic then BitVec.ofNat 64 ((t.answer.head?).getD 0).toNat else 0

/-- RESPONSE_BEAT: a response is transferred, and its tag is free (R52, R56). -/
def Hw.responseBeat (h : Hw) (p : Fin 8) (tag : BitVec 10) : Hw :=
  match h.readyTxn p tag false with
  | none => h
  | some t => (h.emit (.response p tag t.status t.rspData)).dropTxn t.id

/-- TAG_RELEASE: 19 CK_HOST cycles after its read data beat a LOAD's tag is free (R52, R57). -/
def Hw.tagRelease (h : Hw) (p : Fin 8) (tag : BitVec 10) : Hw :=
  match h.txns.find? fun t => t.src == .utp p && t.tag == tag && t.stage == .window && t.checked && !t.failed with
  | some t => h.dropTxn t.id
  | none => h

/-- Old value of an atomic, zero-extended for 32-bit types (R175). -/
def Txn.oldValue (t : Txn) (m : Message) : Line :=
  BitVec.ofNat 512 (inlineField m.inlineArea 0 (if t.kind = .cas ∨ t.atype = 1 then 64 else 32))

/-- The lines of an answer as plaintext, exactly `n` of them. -/
def answerLines (m : Message) (n : Nat) : List Line := (List.range n).map fun k => (m.lines[k]?.map SealedLine.data).getD 0

/-- Data flits of a BULK message opened by cluster `n` with the sender's key, generation and sequence (R188): the plaintext, and how
many end-to-end tags fail. -/
def Hw.bulkOpen (h : Hw) (n : Nat) (m : Message) : List Line × Nat :=
  let (gen, seq) := m.bulkIdent
  let fs := flitsOf m.lines
  let opened := (List.range fs.length).map fun k =>
    let iv := bulkIv m.hdr.src.toNat h.memberId gen (seq + k)
    let f := fs.getD k []
    (gcmTag (h.bulkKey n) iv (m.hdr.bytes.take 24) (flitBytes f) == flitTag f, (flitOf (gcmCrypt (h.bulkKey n) iv (flitBytes f)) 0).map SealedLine.data)
  ((opened.flatMap (·.2)).take m.hdr.lines.toNat, (opened.filter fun x => !x.1).length)

/-- BULK_AUTH_FAIL of each data flit that fails its end-to-end check and is dropped before use (R188). -/
def Hw.bulkAuthFail (h : Hw) (failed : Nat) : Hw :=
  (List.range failed).foldl (fun h _ => h.raise 232 (detailWord none none 0 0) 0 0 0) h

/-- A transaction that an answer has ended, with nothing of it left to send. -/
def Hw.closeTxn (h : Hw) (id : Nat) : Hw := (((h.dropEgress id).dropWork id).endTransient id).dropTxn id

/-- BULK_ACK or BULK_DATA at its source (R186, R188). -/
def Hw.bulkAnswer (h : Hw) (p n i : Nat) (t : Txn) (m : Message) : Hw :=
  match h.op n i with
  | none => h.closeTxn t.id
  | some o =>
    if m.hdr.status = 3 then
      let h := (h.closeTxn t.id).setReg Reg.FABOP_GW_LAST (BitVec.ofNat 32 (inlineField m.inlineArea 0 3 + 16 * o.rack + 2 ^ 31))
      (h.modOp n i fun o => { o with total := o.next }).opTxnEnd n i t.id .stateRefused
    else if m.hdr.op = 0x3A then
      let (ls, failed) := h.bulkOpen (h.serving p) m
      if failed ≠ 0 then h.bulkAuthFail failed
      else
        let h := (h.opWrite n i (o.devOf t) (ls.flatMap lineBytes)).addReg Reg.FABOP_GW_OUT ls.length |>.tally 136 ls.length
        (h.closeTxn t.id).opTxnEnd n i t.id (if inlineField m.inlineArea 0 8 = 0 then .ok else .authFail)
    else (((h.addReg Reg.FABOP_GW_OUT t.lines).tally 136 t.lines).closeTxn t.id).opTxnEnd n i t.id .ok

/-- The answer of FENCE_REMOTE at its sender (R276, R327). -/
def Hw.fenceRemoteAnswer (h : Hw) (n i : Nat) (t : Txn) (m : Message) : Hw :=
  let h := h.closeTxn t.id
  match h.op n i with
  | none => h
  | some o => if o.aborting then h.opTxnEnd n i t.id .ok else if m.hdr.status = 3 then h.opEnd n i .stateRefused .notOwned else h.opEnd n i o.code .none

/-- FABRIC_RESPONSE: a response matches an outstanding transaction and completes it by its status; one that matches
none goes to the Stale Sump (R170, R179, R183). -/
def Hw.fabricResponse (h : Hw) (p : Fin 16) (m : Message) : Hw :=
  match h.matchTxn m.hdr.txn.toNat with
  | none => h.sump p m false
  | some t =>
    let id := t.id
    match t.src with
    | .gktFetch => h.gktEntry p m
    | _ =>
      if m.hdr.status = 2 then h.txnDead id
      else
        let h := h.dropEgress id
        match t.src with
        | .pump => if t.kind.writes then h.condWriteAnswer p m else h.pumpReadAnswer p m
        | .utp _ =>
          if t.kind = .load then (if t.cls = some .sealed then (h.dropWork id).sealAnswer id m.lines else h.toPort id .ok (answerLines m t.lines))
          else if t.kind.compute then h.toPort id .ok (answerLines m 4)
          else if t.kind.atomic then h.toPort id .ok [t.oldValue m]
          else h.toPort id .ok []
        | .cfe n i =>
          if t.kind = .bulk then (if t.lines = 0 then h.fenceRemoteAnswer n i t m else h.bulkAnswer p.val n i t m)
          else if t.kind.writes then h.finishTxn id .ok
          else (h.dropWork id).sealAnswer id m.lines
        | .gateway =>
          if t.kind.writes then h.finishTxn id .ok
          else if t.cls = some .sealed then (h.dropWork id).sealAnswer id m.lines
          else
            let r := h.gw.find? fun x => x.txn == id
            let h := { h.closeTxn id with gw := h.gw.filter fun x => x.txn != id }
            match r with
            | some r => h.gwAnswer r 0 0 ((answerLines m t.lines).map fun l => ⟨l, 0⟩)
            | none => h
        | _ => h.finishTxn id .ok

/-- SEAL_LOAD_RESPONSE: the lines of a SEAL read are resolved against their etags, decrypted and released (R113). -/
def Hw.sealLoadResponse (h : Hw) (p : Fin 16) (m : Message) : Hw :=
  match h.matchTxn m.hdr.txn.toNat with
  | none => h.sump p m false
  | some t => if t.cls = some .sealed ∧ t.kind.writes = false ∧ t.src ≠ .pump then h.fabricResponse p m else h

/-- FENCE_REMOTE received: applied to a fence with remote_ok, answered REFUSED for any other; a reissue of the last one
applied is answered OK and not applied again (R325, R327). -/
def Hw.fenceRemote (h : Hw) (m : Message) : Hw :=
  let a := m.inlineArea
  let f := inlineField a 0 16
  let key := (m.hdr.src.toNat, m.hdr.txn.toNat)
  let answer := fun (h : Hw) (st : Nat) => h.sendControl (h.answerMsg m.hdr 0x28 3 st 0 [])
  let v := h.fence (f % 4096)
  if 4096 ≤ f || !v.allocated || !bit v.cfg 22 then answer h 3
  else if v.lastRemote = some key then answer h 0
  else
    let err := if inlineField a 16 8 = 1 then some (CC.ofNum (inlineField a 17 8 % 16)) else none
    let h := h.setFence f { v with lastRemote := some key }
    answer (h.fenceSignal f (BitVec.ofNat 64 (inlineField a 8 64)) err m.hdr.src.toNat) 0

/-- The request that an inbound gateway transfer makes of this member's Gate (R184): a transfer of the gateway slice. -/
def Hw.gwReq (h : Hw) (m : Message) (put : Bool) : GateReq :=
  ⟨.gateway, some (if put then .store else .load), m.hdr.addr.toNat, m.hdr.lines.toNat, some (h.regF Reg.LINK_GW_SLICE 0 10), false, 0⟩

/-- This member serves as a gateway member, and the message has arrived for a rack's pool it serves (R184). -/
def Hw.gwServes (h : Hw) : Bool := h.joined && h.regBit Reg.LINK_GW_SLICE 31

/-- A checked inbound transfer judged and carried out, or refused (R184, R187). RETRY leaves it to be judged again. -/
def Hw.gwServe (h : Hw) (m : Message) (put : Bool) (lines : List Line) : Hw :=
  let q := h.gwReq m put
  let (h, c, w) := h.gateJudge q 0
  match c with
  | .retry => h
  | .none =>
    let n := m.hdr.lines.toNat
    let t : Txn := { h.grantTxn .gateway (if put then .store else .load) (q.slice.getD 0) m.hdr.addr.toNat n w with
      data := if put then lines.map fun l => (⟨l, 0⟩ : SealedLine) else [] }
    let h := (h.addReg Reg.FABOP_GW_IN n).tally 137 n
    let h : Hw := { h with gw := h.gw ++ [⟨t.id, m.hdr⟩] }
    if t.cls = some .sealed then (h.addTxn { t with stage := .keyWait }).advance t.id else (h.addTxn t).enqueueTxn t
  | c => h.gwAnswer ⟨0, m.hdr⟩ 3 c.num []

/-- BULK_PUT: a gateway member checks each data flit, judges the transfer, and writes the lines through its class path
(R184, R187, R188). DEDUCED (log entry 22). -/
def Hw.bulkPut (h : Hw) (p : Fin 16) (m : Message) : Hw :=
  if !h.gwServes then h
  else
    let (ls, failed) := h.bulkOpen (h.serving p.val) m
    if failed = 0 then h.gwServe m true ls else h.bulkAuthFail failed

/-- BULK_GET: a gateway member reads the lines through its class path (R187). -/
def Hw.bulkGet (h : Hw) (m : Message) : Hw := if h.gwServes then h.gwServe m false [] else h

/-- A slot operation whose device memory access has failed completes ERROR with ABORTED (R314). -/
def SlotItem.fail (id : Nat) : SlotItem → SlotItem
  | .op o k st d => if k = id then .op o k 5 6 else .op o k st d
  | x => x

/-- TIME_STEP: TP_NS decreases, or jumps by more than 1,000; the block takes it (R76). -/
def Hw.timeStep (h : Hw) (ns : BitVec 64) : Hw :=
  if !h.clk.tpValid then h
  else if ns.toNat < h.clk.now ∨ h.clk.now + 1000 < ns.toNat then
    ({ h with clk.now := ns.toNat } : Hw).raise 202 (detailWord none none 0 0) 0 0 0
  else { h with clk.now := ns.toNat }

/-- Two samples of a rail record, the older low (R435). -/
def railPair (ss : List Nat) (older newer : Nat) : Nat := ss.getD older 0 % 65536 + 65536 * (ss.getD newer 0 % 65536)

/-- RAIL_GLITCH or RAIL_SENSE_LOST with the six samples before the latest (R77, R435). -/
def Hw.railRaise (h : Hw) (source : Nat) : Hw :=
  let ss := h.rail.samples
  h.raise source (detailWord none none 0 0) (railPair ss 6 5) (railPair ss 4 3) (railPair ss 2 1)

/-- RAIL_SAMPLE: a sample of the module input rail, checked against the thresholds of word 0x013 (R77). -/
def Hw.railSample (h : Hw) (mv : BitVec 16) : Hw :=
  let h := { h with rail.samples := (mv.toNat :: h.rail.samples).take 7 }
  let t := h.perVal 0x013
  if mv.toNat < fld t 0 16 ∨ fld t 16 16 < mv.toNat then
    ({ h with lcs.railAt := some h.clk.now } : Hw).railRaise 204
  else h

/-- RAIL_SENSE_LOST: no sample for 10 us (R77). -/
def Hw.railSenseLost (h : Hw) : Hw := h.railRaise 205

/-- TIME_LOST: TP_VALID falls, and the block goes on from its own counts (R76). -/
def Hw.timeLost (h : Hw) : Hw :=
  if h.clk.tpValid then ({ h with clk.tpValid := false } : Hw).raise 203 (detailWord none none 0 0) 0 0 0 else h

/-- TIME_REGAINED: TP_VALID returns, and the block takes TP_NS again, with TIME_STEP where the two differ by more than
1,000 ns (R76). -/
def Hw.timeRegained (h : Hw) (ns : BitVec 64) : Hw :=
  if h.clk.tpValid then h
  else
    let far := decide (ns.toNat + 1000 < h.clk.now) || decide (h.clk.now + 1000 < ns.toNat)
    let h := { h with clk.tpValid := true, clk.now := ns.toNat }
    if far then h.raise 202 (detailWord none none 0 0) 0 0 0 else h

end Sys2Proof.Machine
end

