-- ==== Sys2Proof/Machine/Formats.lean ====
section
/-! DEFINITION. Number formats: exact values, the rounding of R207, the format codes of R224, MX scales and the
exponent-coded block (R193, R204, R224 to R235). -/

namespace Sys2Proof.Machine

/-- p = 2^31 - 1 (R192). -/
abbrev sbiP : Nat := 0x7FFFFFFF

/-- The exact value of an element: mant × 2^exp, an infinity, or a NaN (R226). -/
inductive Val where
  | num (mant exp : Int)
  | inf (neg : Bool)
  | nan
  deriving DecidableEq, Repr

/-- A lane value of a signed integer (R193). -/
def sbiEncode (v : Int) : Nat := (v % (sbiP : Int)).toNat

/-- The signed integer of a canonical lane value (R193). -/
def sbiDecode (x : Nat) : Int := if x ≤ 0x3FFFFFFF then (x : Int) else (x : Int) - sbiP

/-- A lane is canonical (R192). -/
def sbiCanonical (x : Nat) : Bool := decide (x < sbiP)

/-- RND of mant × 2^exp (R207): to nearest even, or, with 16 random bits taken as a fraction, down. -/
def rnd (mant exp : Int) (random : Option Nat) : Int :=
  if 0 ≤ exp then mant * 2 ^ exp.toNat
  else
    let d : Int := 2 ^ (-exp).toNat
    match random with
    | some r => (mant * 65536 + (r % 65536 : Nat) * d) / (d * 65536)
    | none =>
      let q := mant / d
      let rem := mant % d
      if 2 * rem < d then q else if d < 2 * rem then q + 1 else if q % 2 = 0 then q else q + 1

/-- Kinds of the special values of a floating-point format (R224). -/
inductive Specials where
  | ieee      -- infinities and NaNs at the top exponent
  | nanOnly   -- FP8-E4M3: NaN at S.1111.111 alone
  | finite    -- none
  deriving DecidableEq, Repr

/-- A format of R224. -/
inductive Format where
  | float (ebits mbits bias : Nat) (sp : Specials) (emax : Int) (mx : Bool)
  | int (bits : Nat) (mx : Bool)
  | sbi
  deriving DecidableEq, Repr

/-- The format of a code (R224); none for a reserved one. -/
def formatOf (code : Nat) : Option Format :=
  match code with
  | 0 => some (.float 11 52 1023 .ieee 1023 false)
  | 1 => some (.float 8 23 127 .ieee 127 false)
  | 2 => some (.float 8 7 127 .ieee 127 false)
  | 3 => some (.float 5 10 15 .ieee 15 false)
  | 4 => some (.float 4 3 7 .nanOnly 8 true)
  | 5 => some (.float 5 2 15 .ieee 15 true)
  | 6 => some (.float 3 2 3 .finite 4 true)
  | 7 => some (.float 2 3 1 .finite 2 true)
  | 8 => some (.float 2 1 1 .finite 2 true)
  | 9 => some (.int 32 false)
  | 10 => some (.int 8 true)
  | 11 => some (.int 4 false)
  | 12 => some .sbi
  | _ => none

/-- The format has an MX variant (R224). -/
def Format.hasMx : Format → Bool
  | .float _ _ _ _ _ m => m
  | .int _ m => m
  | .sbi => false

/-- Bits of an element (R224). -/
def Format.width : Format → Nat
  | .float e m _ _ _ _ => 1 + e + m
  | .int b _ => b
  | .sbi => 32

/-- emax of R230. -/
def Format.emax : Format → Int
  | .float _ _ _ _ e _ => e
  | _ => 0

/-- The value of an element's bits (R226). With `mx` an INT8 element k denotes k × 2^-6 (R224). -/
def Format.decode (f : Format) (mx : Bool) (raw : Nat) : Val :=
  match f with
  | .float eb mb bias sp _ _ =>
    let man := bits raw 0 mb
    let ex := bits raw mb eb
    let neg := bits raw (mb + eb) 1 == 1
    let top := ex == 2 ^ eb - 1
    let signed := fun (m : Nat) => if neg then -(m : Int) else (m : Int)
    match sp, top with
    | .ieee, true => if man = 0 then .inf neg else .nan
    | .nanOnly, true => if man = 2 ^ mb - 1 then .nan else .num (signed (man + 2 ^ mb)) ((ex : Int) - bias - mb)
    | _, _ => if ex = 0 then .num (signed man) (1 - (bias : Int) - mb) else .num (signed (man + 2 ^ mb)) ((ex : Int) - bias - mb)
  | .int b _ =>
    let v := bits raw 0 b
    let x : Int := if v < 2 ^ (b - 1) then (v : Int) else (v : Int) - 2 ^ b
    .num x (if mx && b == 8 then -6 else 0)
  | .sbi => if sbiCanonical raw then .num (sbiDecode raw) 0 else .nan

/-- A value times 2^k. -/
def Val.shift (v : Val) (k : Int) : Val := match v with | .num m e => .num m (e + k) | x => x

/-- ⌊log2⌋ of the magnitude of a finite value that is not 0. -/
def log2Of (mant exp : Int) : Int := (Nat.log2 mant.natAbs : Int) + exp

/-- The largest finite magnitude of a floating-point format, as exponent and mantissa fields in one number (R224). -/
def maxField (eb mb : Nat) : Specials → Nat
  | .ieee => (2 ^ eb - 1) * 2 ^ mb - 1
  | .nanOnly => 2 ^ (eb + mb) - 2
  | .finite => 2 ^ (eb + mb) - 1

/-- A finite value in a destination format other than SBI31: its bits, and whether it was saturated (R227). -/
def Format.encode (f : Format) (mx : Bool) (mant exp : Int) (random : Option Nat) : Nat × Bool :=
  match f with
  | .float eb mb bias sp _ _ =>
    if mant = 0 then (0, false)
    else
      let q := max (log2Of mant exp - mb) (1 - (bias : Int) - mb)
      let n := rnd mant (exp - q) random
      let a := n.natAbs
      let (a, q) := if 2 ^ (mb + 1) ≤ a then (a / 2, q + 1) else (a, q)
      let field := if a < 2 ^ mb then a else (q + bias + mb).toNat * 2 ^ mb + (a - 2 ^ mb)
      let top := maxField eb mb sp
      let neg := decide (n < 0)
      if n = 0 then (0, false)
      else if top < field then (top + (if neg then 2 ^ (eb + mb) else 0), true)
      else (field + (if neg then 2 ^ (eb + mb) else 0), false)
  | .int b _ =>
    let x := rnd mant (exp + (if mx && b == 8 then 6 else 0)) random
    let hi : Int := 2 ^ (b - 1) - 1
    let lo : Int := -(2 ^ (b - 1))
    let y := max lo (min hi x)
    ((y % 2 ^ b).toNat, y != x)
  | .sbi => (sbiEncode mant, false)

/-- cap_G (R204). -/
def capOf (g : Nat) : Nat := (sbiP - 1) / (2 * g)

/-- H_G (R204). -/
def headroomOf (g : Nat) : Nat := Nat.log2 (capOf g + 1)

/-- A source value converted to its integer under scale s (R204, R207, R226), with whether it was saturated and whether it
was a NaN. An SBI31 source takes neither scale nor rounding. -/
def toInteger (g s : Nat) (sbi : Bool) (random : Option Nat) (v : Val) : Int × Bool × Bool :=
  let cap : Int := capOf g
  match v with
  | .nan => (0, false, true)
  | .inf neg => (if neg then -cap else cap, true, false)
  | .num m e =>
    let x := if sbi then m else rnd m (e + 127 - s) random
    if cap < x then (cap, true, false) else if x < -cap then (-cap, true, false) else (x, false, false)

/-- Probe byte of a block's values (R215): e + 127 of the greatest finite magnitude, clamped to 1 to 254; 0 for zeros. -/
def probeByte (vs : List Val) : Nat :=
  vs.foldl (fun acc v => match v with
    | .num m e => if m = 0 then acc else max acc (max 1 (min 254 (log2Of m e + 127))).toNat
    | _ => acc) 0

/-- Bit string of bytes as a number, byte 0 low (R225). -/
def bytesNat (bs : List Byte) : Nat := bs.foldr (fun b acc => acc * 256 + b.toNat) 0

/-- Length of an XCB container whose elements are w bits wide beside their exponent, with e escapes (R232). -/
def xcbLength (w e : Nat) : Nat := (25 + 8 * w + e + 15) / 16 * 16

/-- w of R232; none for a format without a container. -/
def xcbWidth (code : Nat) : Option Nat := match code with | 2 => some 8 | 3 => some 11 | 1 => some 24 | _ => none

/-- Elements of a container whose delta is 7, which have an escape byte (R232). -/
def xcbEscapes (bs : List Byte) : List Nat := (List.range 64).filter fun k => bits (bytesNat bs) (8 + 3 * k) 3 == 7

/-- Length L of the container that begins with these bytes (R232). -/
def xcbLengthOf (w : Nat) (bs : List Byte) : Nat := xcbLength w (xcbEscapes bs).length

/-- One container of a span from its bytes: its elements' exponent fields and raw bits; none where it is corrupt in itself
(R232 to R234). -/
def xcbContainer (code w : Nat) (bs : List Byte) : Option (List Nat) :=
  let n := bytesNat bs
  let base := bits n 0 8
  let escapes := xcbEscapes bs
  let ebits := if code = 3 then 5 else 8
  let mbits := w - 1
  let fields := (List.range 64).map fun k =>
    let d := bits n (8 + 3 * k) 3
    if d = 7 then
      let at_ := 25 + 8 * w + (escapes.findIdx fun j => j == k)
      some (bits n (8 * at_) 8)
    else if base < d then none else some (base - d)
  if fields.any (·.isNone) || (code == 3 && (decide (31 < base) || fields.any fun f => decide (31 < f.getD 0))) then none
  else
    some ((List.range 64).map fun k =>
      let sm := bits n (8 * 25 + w * k) w
      let ex := (fields.getD k none).getD 0 % 2 ^ ebits
      bits sm 0 mbits + ex * 2 ^ mbits + bits sm mbits 1 * 2 ^ (mbits + ebits))

/-- Bytes that the containers of a span occupy, `count` of whose elements belong to the tensor: a second container wholly beyond the
last element is none of them (R231, R233). -/
def xcbSpanBytes (code : Nat) (bs : List Byte) (count : Nat) : Nat :=
  let w := (xcbWidth code).getD 0
  let l := xcbLengthOf w bs
  if code = 1 ∨ count ≤ 64 then l else l + xcbLengthOf w (bs.drop l)

/-- The elements of container `k` of a span (R231 to R234); none where it is corrupt. -/
def xcbElems (code : Nat) (bs : List Byte) (count k : Nat) : Option (List Nat) :=
  match xcbWidth code with
  | none => none
  | some w => if 256 < xcbSpanBytes code bs count then none else xcbContainer code w (if k = 0 then bs else bs.drop (xcbLengthOf w bs))

/-- Elements of an XCB span (R231). -/
def xcbSpanElems (code : Nat) : Nat := if code = 1 then 64 else 128

end Sys2Proof.Machine
end

