-- ==== Sys2Proof/Machine/Blind.lean ====
section
/-! DEFINITION. The arithmetic of BLIND: descriptors, masks, tags, the SBI31 block, conversion in and conversion out
(R192 to R208, R213 to R230). -/

namespace Sys2Proof.Machine

/-- Roles of a collective (R213). -/
inductive Role where
  | full | contribute | receive | leader
  deriving DecidableEq, Repr

/-- Role of a descriptor. -/
def descRole (d : Line) : Role :=
  match df d 12 0 2 with
  | 0 => .full | 1 => .contribute | 2 => .receive | _ => .leader

/-- The role contributes (R213). -/
def Role.contributes : Role → Bool
  | .receive => false | _ => true

/-- The role receives sums (R213). -/
def Role.receives : Role → Bool
  | .contribute => false | _ => true

/-- The role writes results to its destination (R213). -/
def Role.writesResult : Role → Bool
  | .full | .receive => true | _ => false

/-- G of a descriptor. -/
def descG (d : Line) : Nat := df d 8 0 10 + 1
/-- rank. -/
def descRank (d : Line) : Nat := df d 10 0 10
/-- probed. -/
def descProbed (d : Line) : Bool := df d 12 2 1 == 1
/-- stochastic. -/
def descStochastic (d : Line) : Bool := df d 12 3 1 == 1
/-- src_xcb. -/
def descXcb (d : Line) : Bool := df d 12 4 1 == 1
/-- scale_array. -/
def descScaleArray (d : Line) : Bool := df d 12 5 1 == 1
/-- src_slot. -/
def descSrcSlot (d : Line) : Bool := df d 12 6 1 == 1
/-- dst_slot. -/
def descDstSlot (d : Line) : Bool := df d 12 7 1 == 1
/-- src_fmt. -/
def descSrcFmt (d : Line) : Nat := df d 13 0 4
/-- dst_fmt. -/
def descDstFmt (d : Line) : Nat := df d 13 4 4
/-- src_mx. -/
def descSrcMx (d : Line) : Bool := df d 14 0 1 == 1
/-- dst_mx. -/
def descDstMx (d : Line) : Bool := df d 14 1 1 == 1
/-- src_addr. -/
def descSrc (d : Line) : Nat := df d 16 0 52
/-- dst_addr. -/
def descDst (d : Line) : Nat := df d 24 0 52
/-- acc_addr. -/
def descAcc (d : Line) : Nat := df d 32 0 46
/-- elements. -/
def descElems (d : Line) : Nat := df d 40 0 32
/-- scale_addr. -/
def descScales (d : Line) : Nat := df d 48 0 52
/-- coll_id. -/
def descColl (d : Line) : Nat := df d 0 0 16
/-- gepoch. -/
def descEpoch (d : Line) : Nat := df d 2 0 16
/-- step. -/
def descStep (d : Line) : Nat := df d 4 0 32

/-- Blocks of a tensor (R194). -/
def descBlocks (d : Line) : Nat := (descElems d + 59) / 60

/-- The descriptor's reserved fields are 0 (R213): first byte, first bit, width. -/
def descReservedOk (d : Line) : Bool :=
  ([(8, 10, 6), (10, 10, 6), (14, 2, 6), (16, 52, 12), (24, 52, 12), (32, 46, 18), (44, 0, 32), (48, 52, 12), (56, 0, 64)] : List (Nat × Nat × Nat)).all
    fun f => df d f.1 f.2.1 f.2.2 == 0

/-- A format code with its MX bit is legal (R214). -/
def fmtOk (code : Nat) (mx : Bool) : Bool :=
  match formatOf code with
  | some f => !mx || f.hasMx
  | none => false

/-- The checks of R214 on one descriptor, with the source fields judged where `src` and the destination fields where `dst`. -/
def descOk (d : Line) (src dst : Bool) : Bool :=
  descReservedOk d && descElems d != 0 && (!src || decide (descRank d < descG d)) &&
    (!src || (fmtOk (descSrcFmt d) (descSrcMx d) && decide (descSrc d % 64 = 0) &&
      (!descXcb d || ((xcbWidth (descSrcFmt d)).isSome && !descSrcMx d && !descSrcSlot d)))) &&
    (!dst || (fmtOk (descDstFmt d) (descDstMx d) && decide (descDst d % 64 = 0))) &&
    (descScaleArray d || df d 15 0 8 != 0xFF) && decide (descAcc d % 256 = 0) && decide (descAcc d + 256 * descBlocks d ≤ 2 ^ 46)

/-- The next-stage descriptor of a LEADER (R219): role FULL, the same elements, its src_* fields 0. -/
def nextOk (d next : Line) : Bool :=
  descOk next false true && decide (descRank next < descG next) && descRole next == .full && descElems next == descElems d &&
    !descXcb next && !descSrcSlot next && descSrcFmt next == 0 && !descSrcMx next && descSrc next == 0

/-- BLIND_REDUCE's descriptors are legal (R214, R219). -/
def blindLegal (d next : Line) : Bool :=
  let r := descRole d
  descOk d r.contributes r.writesResult && (r != .leader || nextOk d next)

/-- The context of the group key's derivation (R195). -/
def collContext (d : Line) : List Byte :=
  beBytes (descColl d) 2 ++ beBytes (descEpoch d) 2 ++ beBytes (descStep d) 4 ++ beBytes (descG d - 1) 2

/-- Lane value of a keystream word (R199). -/
def laneOfWord (w : Nat) : Nat := let x := w % 2 ^ 31; if x = sbiP then 0 else x

/-- The 128-bit block C of R199. -/
def maskBlock (purpose rank b q : Nat) : BitVec 128 := BitVec.ofNat 128 (purpose * 2 ^ 120 + rank % 1024 * 2 ^ 96 + b % 2 ^ 32 * 2 ^ 64 + q)

/-- The four keystream lanes of C under K (R199). -/
def keyLanes (k : BitVec 256) (c : BitVec 128) : List Nat :=
  let e := (Config.aesEnc k (swap128 c)).toNat
  (List.range 4).map fun j => laneOfWord (bits e (32 * j) 32)

/-- The 64 lanes of F(rank), purpose 1, or F_out, purpose 2, for block b (R199). -/
def maskLanes (k : BitVec 256) (purpose rank b : Nat) : List Nat :=
  (List.range 16).flatMap fun q => keyLanes k (maskBlock purpose rank b q)

/-- Sum of lanes modulo p. -/
def lanesAdd (a b : List Nat) : List Nat := List.zipWith (fun x y => (x + y) % sbiP) a b

/-- Difference of lanes modulo p. -/
def lanesSub (a b : List Nat) : List Nat := List.zipWith (fun x y => (x + (sbiP - y % sbiP)) % sbiP) a b

/-- A contributor's mask r_i, with F_out at rank G - 1 (R200). -/
def rankMask (k : BitVec 256) (g rank b : Nat) : List Nat :=
  let r := if g = 1 then List.replicate 64 0 else lanesSub (maskLanes k 1 rank b) (maskLanes k 1 ((rank + 1) % g) b)
  if rank + 1 = g then lanesAdd r (maskLanes k 2 0 b) else r

/-- The tag keys h_0 to h_3 (R201). -/
def tagKeys (k : BitVec 256) : List Nat := (keyLanes k (maskBlock 3 0 0 0)).map fun x => if x = 0 then 1 else x

/-- Σ_j y_j · h^(j+1) modulo p over the data lanes (R201). -/
def tagSum (h : Nat) (ys : List Nat) : Nat := ys.foldr (fun y acc => (y + acc) * h % sbiP) 0

/-- Tag lanes of masked data lanes, over the mask's own tag lanes (R201); with `lanes2`, lanes 62 and 63 are 0 (R192). -/
def tagLanes (k : BitVec 256) (lanes2 : Bool) (ys mask : List Nat) : List Nat :=
  (List.range 4).map fun l =>
    if lanes2 && decide (2 ≤ l) then 0 else (tagSum ((tagKeys k).getD l 1) ys + mask.getD (60 + l) 0) % sbiP

/-- The lanes of a contribution: 60 integers encoded and masked, and their tags (R193, R200, R201). -/
def contribLanes (k : BitVec 256) (g rank b : Nat) (lanes2 : Bool) (xs : List Int) : List Nat :=
  let mask := rankMask k g rank b
  let ys := lanesAdd (xs.map sbiEncode) (mask.take 60)
  ys ++ tagLanes k lanes2 ys mask

/-- The check of R202 of a summed block: every lane canonical, every tag lane right. -/
def sumCheck (k : BitVec 256) (b : Nat) (lanes2 : Bool) (lanes : List Nat) : Bool :=
  decide (lanes.length = 64) && lanes.all sbiCanonical && lanes.drop 60 == tagLanes k lanes2 (lanes.take 60) (maskLanes k 2 0 b)

/-- The integers of a summed block: F_out subtracted and decoded (R193, R200). -/
def demask (k : BitVec 256) (b : Nat) (lanes : List Nat) : List Int :=
  (lanesSub (lanes.take 60) ((maskLanes k 2 0 b).take 60)).map sbiDecode

/-- A block's 64 lanes as the four lines of a data flit, side-band 0 (R168, R192). -/
def lanesLines (lanes : List Nat) : List SealedLine :=
  (List.range 4).map fun l =>
    ⟨BitVec.ofNat 512 ((List.range 16).foldl (fun acc j => acc + lanes.getD (16 * l + j) 0 * 2 ^ (32 * j)) 0), 0⟩

/-- The 64 lanes of a data flit's four lines (R192); fewer than four lines give no block. -/
def lanesOfLines (ls : List SealedLine) : List Nat :=
  if ls.length = 4 then ls.flatMap fun l => (List.range 16).map fun j => bits l.data.toNat (32 * j) 32 else []

/-- Raw bits of the elements of block b that lie in the tensor, from what device memory holds (R194, R225, R231); none where
an XCB container that it needs is corrupt (R234). -/
def blockRaw (d : Line) (b : Nat) (src : SrcBlock) : Option (List Nat) :=
  let n := min 60 (descElems d - 60 * b)
  match formatOf (descSrcFmt d) with
  | none => none
  | some f =>
    if descXcb d then
      let per := xcbSpanElems (descSrcFmt d)
      let first := 60 * b / 64
      let parts := (List.range ((60 * b + n - 1) / 64 + 1 - first)).map fun j =>
        let span := 64 * (first + j) / per
        xcbElems (descSrcFmt d) (src.spans.getD (span - 60 * b / per) []) (min per (descElems d - per * span)) ((64 * (first + j) - per * span) / 64)
      if parts.any (·.isNone) then none
      else some ((((parts.flatMap fun s => s.getD [])).drop (60 * b - 64 * first)).take n)
    else
      let s := bytesNat src.elems
      some ((List.range n).map fun k => bits s (f.width * k) f.width)

/-- The values of block b's elements (R226, R229). -/
def blockVals (d : Line) (b : Nat) (src : SrcBlock) : Option (List Val) :=
  match formatOf (descSrcFmt d), blockRaw d b src with
  | some f, some raws =>
    some ((List.range raws.length).map fun k =>
      let v := f.decode (descSrcMx d) (raws.getD k 0)
      if descSrcMx d then
        let e := ((src.mx[(60 * b + k) / 32 - 60 * b / 32]?).getD 0).toNat
        if e = 0xFF then .nan else v.shift ((e : Int) - 127)
      else v)
  | _, _ => none

/-- XCB containers decoded for a block (R442). -/
def blockContainers (d : Line) (b : Nat) : Nat :=
  if descXcb d then (60 * b + min 60 (descElems d - 60 * b) - 1) / 64 + 1 - 60 * b / 64 else 0

/-- Bytes of a span that are read: its lines up to the last that holds a byte of its containers (R235). -/
def spanRange (d : Line) (span : Nat) (bs : List Byte) : Nat × Nat :=
  let per := xcbSpanElems (descSrcFmt d)
  let used := min 256 (xcbSpanBytes (descSrcFmt d) bs (min per (descElems d - per * span)))
  (descSrc d + 256 * span, (used + 63) / 64 * 64)

/-- Bytes of device memory that blocks `b` to `b + count - 1` are read from, as ranges (R225, R229, R231, R235): `src` is what they
hold, block by block. -/
def sourceRanges (d : Line) (b count : Nat) (src : List SrcBlock) : List (Nat × Nat) :=
  let n := min (60 * (b + count)) (descElems d)
  let w := match formatOf (descSrcFmt d) with | some f => f.width | none => 0
  if descXcb d then
    let per := xcbSpanElems (descSrcFmt d)
    (List.range count).flatMap fun j =>
      let first := 60 * (b + j) / per
      let next := if j = 0 then first else (60 * (b + j) - 1) / per + 1
      let last := (min (60 * (b + j) + 60) (descElems d) - 1) / per
      (List.range (last + 1 - next)).map fun k => spanRange d (next + k) ((src.getD j ⟨[], [], []⟩).spans.getD (next + k - first) [])
  else
    let lo := 60 * b * w / 8
    let elems := (descSrc d + lo, (n * w + 7) / 8 - lo)
    if descSrcMx d then
      let area := descSrc d + (descElems d * w + 511) / 512 * 64
      [elems, (area + 60 * b / 32, (n - 1) / 32 + 1 - 60 * b / 32)]
    else [elems]

/-- The integers of a block under its scale, with its saturated lanes and its NaNs (R204, R207, R226). `random` gives
each lane's random bits. -/
def blockInts (d : Line) (s : Nat) (random : Nat → Option Nat) (vs : List Val) : List Int × Nat × Nat :=
  let sbi := descSrcFmt d == 12
  let rs := (List.range vs.length).map fun k => toInteger (descG d) s sbi (random k) (vs.getD k (.num 0 0))
  let xs := rs.map (·.1)
  (xs ++ List.replicate (60 - xs.length) 0, (rs.filter fun r => r.2.1).length, (rs.filter fun r => r.2.2).length)

/-- A stage's integer rescaled for the next stage: RND(x · 2^(s1 - s2)), saturated to cap_G2 (R219). -/
def restage (g2 s1 s2 : Nat) (random : Option Nat) (x : Int) : Int × Bool :=
  let cap : Int := capOf g2
  let y := rnd x ((s1 : Int) - s2) random
  if cap < y then (cap, true) else if y < -cap then (-cap, true) else (y, false)

/-- Scale exponent of block b of a stage, 0xFF where there is none (R205, R215). -/
def Coll.scale (c : Coll) (b : Nat) : Nat :=
  match c.scales.get 0 b with
  | 0 => if (descProbed c.desc && (descRole c.desc).contributes) || descScaleArray c.desc then 0 else df c.desc 15 0 8
  | k + 1 => k

/-- Result of element k of a stage, as mantissa and exponent (R208). -/
def Coll.result (c : Coll) (k : Nat) : Int × Int :=
  ((c.sums.get [] (k / 60)).getD (k % 60) 0, (c.scale (k / 60) : Int) - 127)

/-- Random bits of element k's conversion out (R207). -/
def Coll.random (c : Coll) (k : Nat) : Option Nat :=
  if descStochastic c.desc then some (Config.freeBits 16 (c.rand.get 0 (k / 60) + k % 60)).toNat else none

/-- Scale byte of a 32-element group of an MX destination (R230). -/
def Coll.mxByte (c : Coll) (f : Format) (grp : Nat) : Nat :=
  let n := descElems c.desc
  let logs := (List.range (min 32 (n - 32 * grp))).filterMap fun j =>
    let (m, e) := c.result (32 * grp + j)
    if m = 0 then none else some (log2Of m e)
  match logs with
  | [] => 0
  | l :: ls => (max 0 (min 254 (ls.foldl max l - f.emax + 127))).toNat

/-- Element k in its destination format, and whether it was saturated (R208, R227, R230). -/
def Coll.outElem (c : Coll) (f : Format) (k : Nat) : Nat × Bool :=
  let (m, e) := c.result k
  if f = .sbi then (sbiEncode m, false)
  else if descDstMx c.desc then
    let s := c.mxByte f (k / 32)
    f.encode true m (e - ((s : Int) - 127)) (c.random k)
  else f.encode false m e (c.random k)

/-- Elements held in line L of the destination's element data: first and one past the last (R225, R228). -/
def lineElems (d : Line) (w l : Nat) : Nat × Nat := (512 * l / w, min (descElems d) ((512 * l + 511) / w + 1))

/-- Line L of the destination's element data, and the elements that begin in it and were saturated (R227, R228). -/
def Coll.outLine (c : Coll) (f : Format) (l : Nat) : Line × Nat :=
  let w := f.width
  let (lo, hi) := lineElems c.desc w l
  let es := (List.range (hi - lo)).map fun j => (lo + j, c.outElem f (lo + j))
  let n := es.foldl (fun acc e => acc + e.2.1 * 2 ^ (w * (e.1 - lo))) 0
  (BitVec.ofNat 512 (n / 2 ^ (512 * l - w * lo)), (es.filter fun e => e.2.2 && decide (512 * l ≤ w * e.1)).length)

/-- Line L of the destination's scale area (R229, R230). -/
def Coll.scaleLine (c : Coll) (f : Format) (l : Nat) : Line :=
  let groups := (descElems c.desc + 31) / 32
  BitVec.ofNat 512 ((List.range (min 64 (groups - 64 * l))).foldl (fun acc j => acc + c.mxByte f (64 * l + j) * 2 ^ (8 * j)) 0)

/-- The CRC-8 of a freshness entry over bits 55 to 0 (R196). -/
def freshCrc (n : Nat) : Nat := (bitsHigh n 56).foldl (crcStep 8 0x07) 0

/-- A freshness entry as 64 bits (R196). -/
def freshEntry (gepoch step : Nat) : BitVec 64 :=
  let n := gepoch % 65536 + step % 2 ^ 32 * 2 ^ 16 + 2 ^ 48
  BitVec.ofNat 64 (n + freshCrc n * 2 ^ 56)

/-- The entry's crc matches (R196). -/
def freshCrcOk (w : BitVec 64) : Bool := freshCrc (w.toNat % 2 ^ 56) == w.toNat / 2 ^ 56

/-- The new collective is fresh against an entry (R197). -/
def freshPasses (w : BitVec 64) (gepoch step : Nat) : Bool :=
  !w.getLsbD 48 || decide (bits w.toNat 0 16 < gepoch) || (bits w.toNat 0 16 == gepoch && decide (bits w.toNat 16 32 < step))

end Sys2Proof.Machine
end

