-- ==== Sys2Proof/Machine/Bru.lean ====
section
/-! DEFINITION. Collectives: contexts, freshness, probes, contributions, answers and completion (R195 to R223), and the
slot context entries that they take (R298). -/

namespace Sys2Proof.Machine

/-- The context of an operation. -/
def Hw.ctx (h : Hw) (n i : Nat) : Option Ctx := h.bru.ctxs.find? fun c => c.queue == n && c.op == i

/-- A context changed. -/
def Hw.modCtx (h : Hw) (n i : Nat) (f : Ctx → Ctx) : Hw :=
  { h with bru.ctxs := h.bru.ctxs.map fun c => if c.queue = n ∧ c.op = i then f c else c }

/-- A stage of a context. -/
def Ctx.stage (c : Ctx) (second : Bool) : Coll := if second then c.second.getD c.first else c.first

/-- A stage of a context changed. -/
def Ctx.modStage (c : Ctx) (second : Bool) (f : Coll → Coll) : Ctx :=
  if second then { c with second := c.second.map f } else { c with first := f c.first }

/-- The stage whose sums are the collective's results. -/
def Ctx.resultStage (c : Ctx) : Bool := c.second.isSome

/-- Results are held for BLIND.TAKE (R213). -/
def Ctx.holds (c : Ctx) : Bool :=
  let s := c.stage c.resultStage
  descDstSlot s.desc && (descRole s.desc).writesResult

/-- Source blocks come from BLIND.PUT (R213). -/
def Ctx.putFed (c : Ctx) : Bool := descSrcSlot c.first.desc && (descRole c.first.desc).contributes

/-- The slot context of an operation (R298). -/
def Hw.slotCtxOf (h : Hw) (n i : Nat) : Option SlotCtx := h.sched.ctxs.find? fun c => c.queue == n && c.op == i

/-- An entry of the slot context table is keyed so already (R298). -/
def Hw.slotKeyed (h : Hw) (blind : Bool) (key : Nat) : Bool := h.sched.ctxs.any fun c => c.blind == blind && c.key == key

/-- An entry made in the slot context table. -/
def Hw.slotAdd (h : Hw) (blind : Bool) (key n i : Nat) : Hw :=
  { h with sched.ctxs := h.sched.ctxs ++ [⟨blind, key, n, i, []⟩], sched.waiting := h.sched.waiting.filter fun w => !(w.2.2.1 == n && w.2.2.2 == i) }

/-- A command that needs a slot context takes one, or waits for one (R298). -/
def Hw.slotEnter (h : Hw) (blind : Bool) (key n i : Nat) : Hw × Bool :=
  if (h.slotCtxOf n i).isSome then (h, true)
  else if h.sched.waiting.any fun w => w.2.2.1 == n && w.2.2.2 == i then (h, false)
  else if h.sched.ctxs.length < 16 ∧ h.slotKeyed blind key = false ∧ h.sched.waiting = [] then (h.slotAdd blind key n i, true)
  else ({ h with sched.waiting := h.sched.waiting ++ [(blind, key, n, i)] }, false)

/-- SLOT_CONTEXT_TAKEN: the waiting command issued first that can have an entry takes one (R298). DEDUCED (log entry 26). -/
def Hw.slotContextTaken (h : Hw) : Hw :=
  if 16 ≤ h.sched.ctxs.length then h
  else
    let able := h.sched.waiting.filter fun w => !h.slotKeyed w.1 w.2.1
    let place : Bool × Nat × Nat × Nat → Nat := fun w => match h.op w.2.2.1 w.2.2.2 with | some o => o.seq | none => 0
    match able with
    | [] => h
    | w :: ws =>
      let best : Bool × Nat × Nat × Nat := ws.foldl (fun a b => if place b < place a then b else a) w
      h.slotAdd best.1 best.2.1 best.2.2.1 best.2.2.2

/-- The operand fields of BLIND_REDUCE, DISPATCH and COMBINE are legal (R212, R237). -/
def QOp.descOperandOk (o : QOp) : Bool :=
  o.field 4 0 32 == 0 && o.field 8 52 12 == 0 && o.field 16 0 128 == 0 && o.field 8 0 6 == 0

/-- Block address of the descriptor (R212). -/
def QOp.descAddr (o : QOp) : Nat := o.field 8 0 52

/-- A stage before it opens. -/
def Coll.fresh (d : Line) : Coll :=
  { desc := d, key := 0, slot := none, scales := [], next := 0, msgs := [], sums := [], fate := [], rand := [], tagBad := false, shortBad := false }

/-- Granules of a stage's accumulator (R214). -/
def accGranules (d : Line) : List Nat :=
  let first := descAcc d / 2 ^ 21
  let last := (descAcc d + 256 * descBlocks d - 1) / 2 ^ 21
  (List.range (last + 1 - first)).map fun k => first + k

/-- What the CFE presents for a collective: address, permission bits of each granule, those of the next stage last (R214). -/
def Ctx.granules (c : Ctx) : List (Nat × BitVec 4) :=
  let bitsOf := fun (d : Line) => (if (descRole d).receives then 1 else 0 : BitVec 4) ||| (if (descRole d).contributes then 2 else 0)
  let of := fun (d : Line) => (accGranules d).map fun g => (max (descAcc d) (g * 2 ^ 21), bitsOf d)
  of c.first.desc ++ (match c.second with | some s => of s.desc | none => [])

/-- A BLIND_REDUCE whose descriptor is read takes a slot context if it needs one, and a BRU context, or waits (R214, R298). -/
def Hw.collTake (h : Hw) (n i : Nat) (d next : Line) : Hw :=
  let role := descRole d
  let slotted := (descSrcSlot d && role.contributes) || (descDstSlot d && role.writesResult) || (role == .leader && descDstSlot next)
  let (h, ok) := if slotted then h.slotEnter true (descColl d) n i else (h, true)
  let ahead := (h.bru.waiting.takeWhile fun w => !(w.1 == n && w.2.1 == i)).any fun w => !(h.sched.waiting.any fun s => s.2.2.1 == w.1 && s.2.2.2 == w.2.1)
  if !ok || ahead || h.bruFenced || decide (64 ≤ h.bru.ctxs.length + h.bru.closing.length) then h
  else
    let c : Ctx := { queue := n, op := i, slice := h.queueSlice n, st := .opening, lanes := [], probeOk := [], first := Coll.fresh d,
                     second := if role = .leader then some (Coll.fresh next) else none, slotted := slotted, put := [], taken := [] }
    ({ h with bru.ctxs := h.bru.ctxs ++ [c], bru.waiting := h.bru.waiting.filter fun w => !(w.1 == n && w.2.1 == i) } : Hw).modOp n i
      fun o => { o with started := true, total := 1, next := 0 }

/-- BLIND_REDUCE: its operands and descriptors are checked, and it opens a context (R212 to R215). A command that waits for a
context is presented again. -/
def Hw.blindReduce (h : Hw) (n i : Nat) (d next : Line) (walk : BttWalk) : Hw :=
  match h.issuedOp n i 3 with
  | none => h
  | some o =>
    if !o.descOperandOk then h.opEnd n i .malformed .none
    else match h.bru.waiting.find? fun w => w.1 == n && w.2.1 == i with
      | some w => h.collTake n i w.2.2.1 w.2.2.2
      | none =>
        match h.opAccess n i o.descAddr (if descRole d = .leader then 128 else 64) false walk with
        | (h, false) => h
        | (h, true) =>
          let h := { h with bru.waiting := h.bru.waiting ++ [(n, i, d, next)] }
          if blindLegal d next then h.collTake n i d next else h.opEnd n i .malformed .none

/-- The next granule of a collective's accumulator range presented to the Gate (R86, R214). -/
def Hw.collPresent (h : Hw) (n i : Nat) : Hw :=
  match h.ctx n i with
  | none => h
  | some c =>
    if c.st ≠ .opening then h
    else match c.granules[c.lanes.length]? with
      | none => h
      | some (addr, accum) =>
        match h.presentGranule n i .reduceAcc addr 4 accum with
        | (h, some (some w)) =>
          let e := h.regions.table.get none w.region
          h.modCtx n i fun c => { c with
            lanes := c.lanes ++ [match e with | some e => e.lanes2 | none => false]
            probeOk := c.probeOk ++ [match e with | some e => e.probeOk | none => false] }
        | (h, _) => h

/-- Words of a fault about a collective (R435): step, collective id and group epoch, first affected block. -/
def Hw.collRaise (h : Hw) (n : Nat) (d : Line) (source block : Nat) (inj : Bool) : Hw :=
  h.raiseWith ⟨source, BitVec.ofNat 32 (detailWord (some (h.queueSlice n)) (some n) 0 0), BitVec.ofNat 32 (descStep d),
    BitVec.ofNat 32 (descColl d + 65536 * descEpoch d), BitVec.ofNat 32 block, inj, []⟩

/-- A collective is refused before anything of it has left (R214, R197). -/
def Hw.collRefuse (h : Hw) (n i result : Nat) : Hw := h.opUnitEnd n i .stateRefused result

/-- Block address of the freshness entry of a stage (R196). -/
def Hw.freshAddr (h : Hw) (d : Line) : Nat := h.base52 Reg.BRU_FRESH_BASE_LO Reg.BRU_FRESH_BASE_HI + 8 * descColl d

/-- The freshness entry of a stage read (R196, R197): none where the read faults in translation, which is recorded, or completes with
an error flag, which raises DMP_ERROR (R62, R294). -/
def Hw.freshRead (h : Hw) (d : Line) (r : MemRead) (walk : BttWalk) : Hw × Option (BitVec 64) :=
  let a := h.freshAddr d
  match h.bttCheck none a false walk with
  | (h, some kind) => (h.bttFault none 4 kind a, none)
  | (h, none) =>
    let h := h.emit (.dmRead h.dmId (match h.bttCached (pageNo a) with | some e => physOf e a | none => 0) 8)
    match r with
    | .stored => (h, some (h.bru.fresh.get 0 (descColl d)))
    | .other l => (h, some (BitVec.ofNat 64 l.toNat))
    | .error => (h.raise 200 (detailWord none none 0 0) 0 0 0, none)

/-- The entries of the stages that contribute, in order, each as its stage finds it: a second stage of one collective id finds what the
first is to write (R197). DEDUCED (log entry 69). None where a read fails. -/
def Hw.freshReads (h : Hw) (walk : BttWalk) : List (Line × CollRead) → Hw × Option (List (Line × BitVec 64))
  | [] => (h, some [])
  | (d, r) :: rest =>
    match h.freshRead d r.fresh walk with
    | (h, none) => (h, none)
    | (h, some w) =>
      match Hw.freshReads h walk rest with
      | (h, none) => (h, none)
      | (h, some ws) =>
        (h, some ((d, w) :: ws.map fun x => if descColl x.1 = descColl d then (x.1, freshEntry (descEpoch d) (descStep d)) else x))

/-- Freshness of one stage: the result of a refusal, 0 when it passes (R197). -/
def Hw.freshJudge (h : Hw) (n : Nat) (d : Line) (w : BitVec 64) : Hw × Nat :=
  let (h, ok, inj) := h.checked 5 (some 2) none none (freshCrcOk w)
  if !ok then (h.collRaise n d 241 0 inj, 9)
  else if freshPasses w (descEpoch d) (descStep d) then (h, 0)
  else (h.collRaise n d 240 0 false, 2)

/-- The freshness entry written before the first contribution leaves (R197). -/
def Hw.freshWrite (h : Hw) (n i : Nat) (d : Line) : Hw :=
  let e := freshEntry (descEpoch d) (descStep d)
  ({ h with bru.fresh := h.bru.fresh.put 0 (descColl d) e } : Hw).dmWrite (.fresh n i) none 4 (h.freshAddr d) (leBytes e.toNat 8)

/-- The group key K of a stage (R195). -/
def Hw.groupKey (h : Hw) (d : Line) : BitVec 256 := kdfKey (keyBytes (h.slot 11).key) "SIRVIS BLIND" (collContext d)

/-- K of a stage derived into a free slice slot, and written to the BRU over the key bus (R195, R361, R364, R366). -/
def Hw.keyStage (h : Hw) (n i : Nat) (second : Bool) : Hw :=
  match h.ctx n i, h.freeSliceSlot with
  | some c, some k =>
    let key := h.groupKey (c.stage second).desc
    let h := h.placeKey k { Slot.free with kind := 0, origin := 2, owner := c.slice, usage := 8 } key
    h.modCtx n i fun c => c.modStage second fun s => { s with key := key, slot := some k }
  | _, _ => h

/-- Scales read from an array (R205). -/
def scalesOf (d : Line) (bs : List Byte) : Tbl Nat :=
  if descScaleArray d && !(descProbed d && (descRole d).contributes) then
    (List.range (min bs.length (descBlocks d))).map fun b => (b, (bs.getD b 0).toNat + 1)
  else []

/-- The header of a BLIND message (R211). -/
def Hw.blindHeader (h : Hw) (op : Nat) (d : Line) (b lines dflits : Nat) (txn : Nat) : Header :=
  h.header op 2 1 dflits 1 0 (BitVec.ofNat 46 (descAcc d + 256 * b)) (h.regF Reg.GATE_RACKS 0 4) lines 0 txn

/-- The inline area's collective tag, with what follows it (R211). -/
def blindArea (d : Line) (lanes2 wantSum : Bool) (b : Nat) (rest : List (Nat × Nat)) : BitVec 1664 :=
  inlineOf ([(0, descColl d), (2, descEpoch d), (4, descStep d), (8, descG d - 1), (10, b2n lanes2 + 2 * b2n wantSum), (12, b)] ++ rest)

/-- Tag-lane count of a stage. -/
def Ctx.lanes2 (c : Ctx) (second : Bool) : Bool := if second then c.lanes.getLastD false else c.lanes.headD false

/-- A BLIND message of a stage leaves for the Regulator and awaits its answer. -/
def Hw.sendBlind (h : Hw) (c : Ctx) (second : Bool) (op b count : Nat) (slot : Option Nat) (area : BitVec 1664) (lines : List SealedLine) : Hw :=
  let d := (c.stage second).desc
  let id := h.newTag
  let m : Message := { hdr := h.blindHeader op d b (if op = 0x12 then 0 else 4 * count) (lines.length / 4) id, inlineArea := area, lines := lines }
  let h := h.takeTag
  let h := h.enqueueFor slot 9 c.slice (if op = 0x12 then 0 else 256 * count) m none
  let h := h.modCtx c.queue c.op fun c => c.modStage second fun s => { s with msgs := s.msgs ++ [⟨id, op, b, count⟩] }
  h.modOp c.queue c.op fun o => { o with txns := o.txns ++ [id] }

/-- The probes of a stage: one BL_EXPMAX for each run of up to 190 blocks (R211, R215). -/
def Hw.sendProbes (h : Hw) (n i : Nat) (second : Bool) (bytes : List Nat) : Hw :=
  (List.range ((bytes.length + 189) / 190)).foldl (fun h r =>
    match h.ctx n i with
    | none => h
    | some c =>
      let run := (bytes.drop (190 * r)).take 190
      let s := c.stage second
      let area := blindArea s.desc (c.lanes2 second) false (190 * r)
        ((16, run.length) :: (List.range run.length).map fun k => (18 + k, run.getD k 0))
      (h.addReg Reg.BRU_PROBE_CNT run.length).sendBlind c second 0x12 (190 * r) run.length none area []) h

/-- Blocks of one message from block b: at most 16, within the tensor and within one granule (R211). -/
def messageBlocks (d : Line) (b limit : Nat) : Nat :=
  min (min 16 limit) (min (descBlocks d - b) (8192 - (descAcc d / 256 + b) % 8192))

/-- Blocks that may still be asked for or sent while results are held (R307). -/
def Ctx.holdRoom (c : Ctx) : Nat := if c.holds then 16 - ((if c.putFed then c.put.length else c.first.next) - c.taken.length) else 16

/-- A stage ends MALFORMED at a block: nothing more of it is sent (R205, R234). -/
def Hw.collMalformed (h : Hw) (n i : Nat) : Hw :=
  (h.modOp n i fun o => { o with code := o.code.worse .malformed }).modCtx n i fun c => { c with st := .draining }

/-- BL_READ messages of a RECEIVE, up to 32 outstanding, ascending (R215, R307). -/
def Hw.sendReads (h : Hw) (n i : Nat) : Nat → Hw
  | 0 => h
  | fuel + 1 =>
    match h.ctx n i with
    | none => h
    | some c =>
      let d := c.first.desc
      let k := messageBlocks d c.first.next c.holdRoom
      let k := match (List.range k).find? fun j => c.first.scale (c.first.next + j) == 0xFF with | some j => j | none => k
      if c.st ≠ .receiving then h
      else if descBlocks d ≤ c.first.next then h.modCtx n i fun c => { c with st := .draining }
      else if 32 ≤ c.first.msgs.length ∨ c.holdRoom = 0 then h
      else if k = 0 then h.collMalformed n i
      else
        let h := h.sendBlind c false 0x11 c.first.next k none (blindArea d (c.lanes2 false) true c.first.next []) []
        Hw.sendReads (h.modCtx n i fun c => c.modStage false fun s => { s with next := s.next + k }) n i fuel

/-- Reads of device memory at addresses that an operation names, for `use`; the first that faults ends it (R294). -/
def Hw.readsFor (h : Hw) (use : DmUse) (n i : Nat) (ranges : List (Nat × Nat)) (walk : BttWalk) : Hw × Bool :=
  ranges.foldl (fun acc r => match acc with | (h, true) => h.accessFor use n i r.1 r.2 false walk | (h, false) => (h, false)) (h, true)

/-- The ranges that an operation reads are accessible; a fault completes it ABORTED (R292, R294). -/
def Hw.opReads (h : Hw) (n i : Nat) (ranges : List (Nat × Nat)) (walk : BttWalk) : Hw × Bool :=
  h.readsFor (.op n i) n i ranges walk

/-- PROBED scaling begins: the source is read and its exponents are sent (R215). -/
def Hw.collProbe (h : Hw) (n i : Nat) (src : List SrcBlock) (walk : BttWalk) : Hw :=
  match h.ctx n i with
  | none => h
  | some c =>
    let d := c.first.desc
    let nb := descBlocks d
    match h.opReads n i (sourceRanges d 0 nb src) walk with
    | (h, false) => h
    | (h, true) =>
      let vals := (List.range nb).map fun b => blockVals d b (src.getD b ⟨[], [], []⟩)
      match vals.findIdx? fun v => v.isNone with
      | some b => (h.collRaise n d 244 b false).opEnd n i .malformed .none
      | none => (h.modCtx n i fun c => { c with st := .probing }).sendProbes n i false (vals.map fun v => probeByte (v.getD []))

/-- COLLECTIVE_OPENED: the refusals of R214 and R197, then K, the scales, and the first state after OPENING (R215). `first` and
`second` are the reads of the two stages. A collective that finds no slice slot for its K stays in OPENING. DESIGN CHOICE (log
entry 69). -/
def Hw.collectiveOpened (h : Hw) (n i : Nat) (first second : CollRead) (walk : BttWalk) : Hw :=
  match h.ctx n i, h.op n i with
  | some c, some o =>
    if c.st ≠ .opening ∨ c.lanes.length < c.granules.length ∨ o.aborting = true ∨ h.sliceFree < c.stages.length then h
    else
      let g1 := (accGranules c.first.desc).length
      let mixed := fun (l : List Bool) => l.any fun x => x != l.headD false
      let stages := (c.first.desc, first) :: (match c.second with | some s => [(s.desc, second)] | none => [])
      let contributing := stages.filter fun s => (descRole s.1).contributes
      let probes := contributing.any fun s => descProbed s.1
      let policyProbe := match h.dom.policy with | some p => p.probe | none => false
      let okFor := (if descProbed c.first.desc then (c.probeOk.take g1).all id else true) &&
        (match c.second with | some s => !descProbed s.desc || (c.probeOk.drop g1).all id | none => true)
      if mixed (c.lanes.take g1) || mixed (c.lanes.drop g1) then h.collRefuse n i 1
      else if probes && !(okFor && policyProbe) then h.collRefuse n i 3
      else match h.freshReads walk contributing with
      | (h, none) => h.opEnd n i .aborted .none
      | (h, some words) =>
        let (h, result) := words.foldl (fun acc s => if acc.2 = 0 then acc.1.freshJudge n s.1 s.2 else acc) (h, 0)
        if result ≠ 0 then h.collRefuse n i result
        else
          let h := contributing.foldl (fun h s => h.freshWrite n i s.1) h
          let arrays := stages.filterMap fun s => if descScaleArray s.1 && !(descProbed s.1 && (descRole s.1).contributes) then some (descScales s.1, descBlocks s.1) else none
          match h.opReads n i arrays walk with
          | (h, false) => h
          | (h, true) =>
            let load := fun (r : CollRead) (s : Coll) => { s with scales := scalesOf s.desc r.scales }
            let h := h.modCtx n i fun c => { c with first := load first c.first, second := c.second.map (load second) }
            let h := h.keyStage n i false
            let h := if c.second.isSome then h.keyStage n i true else h
            match descRole c.first.desc with
            | .receive => (h.modCtx n i fun c => { c with st := .receiving }).sendReads n i 33
            | _ =>
              if descProbed c.first.desc then h.collProbe n i first.probe walk
              else h.modCtx n i fun c => { c with st := .sending }
  | _, _ => h

/-- The 60 random values of a block's conversion drawn from the DRBG, in one generate call (R207, R374). -/
def Hw.drawLanes (h : Hw) : Hw := { h with free := h.free + 60, cis.calls := h.cis.calls + 1 }

/-- One block of a stage converted: its integers, with the counts of R204, R207 and R442; none where it ends the
collective MALFORMED. -/
def Hw.convertBlock (h : Hw) (n : Nat) (s : Coll) (b : Nat) (src : SrcBlock) : Hw × Option (List Int) :=
  let d := s.desc
  if s.scale b = 0xFF then (h, none)
  else match blockVals d b src with
    | none => (h.collRaise n d 244 b false, none)
    | some vs =>
      let base := h.free
      let h := if descStochastic d then h.drawLanes else h
      let (xs, sat, nan) := blockInts d (s.scale b) (fun k => if descStochastic d then some (Config.freeBits 16 (base + k)).toNat else none) vs
      let h := if 0 < sat then ((h.addReg Reg.BRU_SAT_CNT sat).tally 109 sat).setIrq 0x0B 3 else h
      let h := if 0 < nan then (h.addReg Reg.BRU_NAN_CNT nan).tally 110 nan else h
      let f := descSrcFmt d
      let h := ((h.tally (64 + f) 1).tally (112 + f) vs.length).tally 78 (blockContainers d b)
      (if descSrcMx d then h.tally 77 1 else h, some xs)

/-- Blocks of a stage masked, tagged and sent as one BL_CONTRIB (R200, R201, R211). -/
def Hw.sendContrib (h : Hw) (n i : Nat) (second : Bool) (b : Nat) (slot : Option Nat) (blocks : List (List Int)) : Hw :=
  match h.ctx n i with
  | none => h
  | some c =>
    let s := c.stage second
    let d := s.desc
    let lines := (List.range blocks.length).flatMap fun k =>
      lanesLines (contribLanes s.key (descG d) (descRank d) (b + k) (c.lanes2 second) (blocks.getD k []))
    let want := (descRole d).receives
    let h := h.addReg Reg.BRU_BLOCKS_OUT blocks.length
    h.sendBlind c second 0x10 b blocks.length slot (blindArea d (c.lanes2 second) want b []) lines

/-- BL_CONTRIB_SEND: the next blocks of a collective's source are converted, masked, tagged and sent in one message, up to 16 of
them (R204, R211, R222). -/
def Hw.blContribSend (h : Hw) (n i : Nat) (src : List SrcBlock) (walk : BttWalk) : Hw :=
  match h.ctx n i, h.op n i with
  | some c, some o =>
    let d := c.first.desc
    let b := c.first.next
    let k := messageBlocks d b (min src.length c.holdRoom)
    if c.st ≠ .sending ∨ o.aborting = true ∨ c.putFed = true ∨ k = 0 ∨ (descStochastic d = true ∧ h.drbgReady = false) then h
    else match h.opReads n i (sourceRanges d b k src) walk with
      | (h, false) => h
      | (h, true) =>
        let (h, xs, bad) := (List.range k).foldl (fun (acc : Hw × List (List Int) × Bool) j =>
          if acc.2.2 then acc
          else match acc.1.convertBlock n c.first (b + j) (src.getD j ⟨[], [], []⟩) with
            | (h, some x) => (h, acc.2.1 ++ [x], false)
            | (h, none) => (h, acc.2.1, true)) (h, [], false)
        let h := if xs = [] then h else h.sendContrib n i false b none xs
        let h := h.modCtx n i fun c => c.modStage false fun s => { s with next := s.next + xs.length }
        if bad then h.collMalformed n i
        else if descBlocks d ≤ b + k then h.modCtx n i fun c => { c with st := .draining } else h
  | _, _ => h

/-- Who awaits a BLIND answer: the context, which stage, and the message. -/
def Hw.blindMatch (h : Hw) (txn : Nat) : Option (Ctx × Bool × CollMsg) :=
  h.bru.ctxs.findSome? fun c =>
    match c.first.msgs.find? fun m => m.txn == txn with
    | some m => some (c, false, m)
    | none => match c.second with
      | some s => (s.msgs.find? fun m => m.txn == txn).map fun m => (c, true, m)
      | none => none

/-- The transaction tag of a message of a context that has not been released (R218). -/
def Hw.collTxn (h : Hw) (txn : Nat) : Bool := (h.blindMatch txn).isSome || h.bru.closing.any fun c => decide (txn ∈ c.txns)

/-- An answer that no open collective awaits goes to the Sump; with its last answer a context whose command has completed is
released (R183, R217, R218). -/
def Hw.blindLate (h : Hw) (p : Fin 16) (m : Message) : Hw :=
  ({ h with bru.closing := (h.bru.closing.map fun c => { c with txns := c.txns.filter (· ≠ m.hdr.txn.toNat) }).filter fun c => c.txns != [] } : Hw).sump p m false

/-- The stage converts with random bits that the DRBG has not ready (R207, R374). -/
def Hw.drawsLate (h : Hw) (c : Ctx) (second : Bool) : Bool :=
  !h.drbgReady && (descStochastic (c.stage second).desc || (!second && (match c.second with | some s => descStochastic s.desc | none => false)))

/-- A message answered: it is no longer outstanding, and nothing of it is still sent. -/
def Hw.blindAnswered (h : Hw) (c : Ctx) (second : Bool) (m : CollMsg) : Hw :=
  let h := h.modCtx c.queue c.op fun c => c.modStage second fun s => { s with msgs := s.msgs.filter fun x => x.txn != m.txn }
  h.modOp c.queue c.op fun o => { o with txns := o.txns.filter (· ≠ m.txn) }

/-- BLIND_TAG_FAIL or BLIND_INCOMPLETE, once for a collective, with LAST_FAIL and LAST_COUNT (R203, R217). -/
def Hw.collFail (h : Hw) (c : Ctx) (second tags : Bool) (b count : Nat) (inj : Bool) : Hw :=
  match h.ctx c.queue c.op with
  | none => h
  | some c =>
    let s := c.stage second
    if (if tags then s.tagBad else s.shortBad) then h
    else
      let h := h.setReg Reg.BRU_LAST_FAIL (BitVec.ofNat 32 b)
      let h := h.setReg Reg.BRU_LAST_COUNT (BitVec.ofNat 32 (min count 2047 + 65536 * descG s.desc + 2 ^ 31))
      let h := h.collRaise c.queue s.desc (if tags then 242 else 243) b inj
      h.modCtx c.queue c.op fun c => c.modStage second fun s => if tags then { s with tagBad := true } else { s with shortBad := true }

/-- A block's outcome recorded (R216). -/
def Hw.setFate (h : Hw) (c : Ctx) (second : Bool) (b : Nat) (cc : CC) : Hw :=
  h.modCtx c.queue c.op fun c => c.modStage second fun s => { s with fate := s.fate.put none b (some cc) }

/-- A block that has been released, and taken where results are held, may be written (R228, R299). -/
def Ctx.available (c : Ctx) (b : Nat) : Bool :=
  (c.stage c.resultStage).fate.get none b == some .ok && (!c.holds || decide (b ∈ c.taken))

/-- Every element of `lo` to `hi - 1`, or of the MX groups that hold them, may be written (R228, R230). -/
def Ctx.elemsAvailable (c : Ctx) (lo hi : Nat) : Bool :=
  let d := (c.stage c.resultStage).desc
  let lo := if descDstMx d then lo / 32 * 32 else lo
  let hi := if descDstMx d then min ((hi + 31) / 32 * 32) (descElems d) else hi
  (List.range ((hi - 1) / 60 + 1 - lo / 60)).all fun j => c.available (lo / 60 + j)

/-- Lines of the destination that block b completes: of the element data, and of the scale area (R228, R230). -/
def Ctx.completed (c : Ctx) (f : Format) (b : Nat) : List Nat × List Nat :=
  let d := (c.stage c.resultStage).desc
  let n := descElems d
  let lo := 60 * b
  let hi := min (60 * b + 60) n
  let mx := descDstMx d
  let lo' := if mx then lo / 32 * 32 else lo
  let hi' := if mx then min ((hi + 31) / 32 * 32) n else hi
  let w := f.width
  let first := w * lo' / 512
  let data := ((List.range ((w * hi' - 1) / 512 + 1 - first)).map fun k => first + k).filter fun l =>
    c.elemsAvailable (lineElems d w l).1 (lineElems d w l).2
  let g0 := lo / 32 / 64
  let scales := if mx then ((List.range ((hi - 1) / 32 / 64 + 1 - g0)).map fun k => g0 + k).filter fun l =>
      c.elemsAvailable (2048 * l) (min (2048 * l + 2048) n)
    else []
  (data, scales)

/-- A released block's results written, each line once every element in it has been released (R208, R227 to R230). A
translation fault completes the command ABORTED (R294). -/
def Hw.writeResults (h : Hw) (n i b : Nat) (use : DmUse) (walk : BttWalk) : Hw :=
  match h.ctx n i with
  | none => h
  | some c =>
    let s := c.stage c.resultStage
    match formatOf (descDstFmt s.desc) with
    | none => h
    | some f =>
      let (data, scales) := c.completed f b
      let area := descDst s.desc + (descElems s.desc * f.width + 511) / 512 * 64
      let put := fun (acc : Hw × Bool) (addr : Nat) (l : Line) =>
        match acc with
        | (h, false) => (h, false)
        | (h, true) => match h.opAccess n i addr 64 true walk with
          | (h, true) => (h.dmWrite use (some n) 0 addr (lineBytes l), true)
          | (h, false) => (h, false)
      let acc := data.foldl (fun acc l =>
        let (line, sat) := s.outLine f l
        let acc := put acc (descDst s.desc + 64 * l) line
        (if 0 < sat then acc.1.tally (96 + descDstFmt s.desc) sat else acc.1, acc.2)) (h, true)
      (scales.foldl (fun acc l => put acc (area + 64 * l) (s.scaleLine f l)) acc).1

/-- Counts of a released block (R442). -/
def Hw.releasedCount (h : Hw) (s : Coll) : Hw :=
  let h := h.tally (80 + descDstFmt s.desc) 1
  if descDstMx s.desc then h.tally 93 1 else h

/-- A LEADER's verified blocks contributed to the next stage, up to the first whose scale ends the collective (R205, R219). -/
def Hw.forward (h : Hw) (n i : Nat) (bs : List Nat) : Hw :=
  bs.foldl (fun h b =>
    match h.ctx n i, h.op n i with
    | some c, some o =>
      match c.second with
      | none => h
      | some s2 =>
        if o.code = .malformed then h
        else if s2.scale b = 0xFF then h.collMalformed n i
        else
          let base := h.free
          let st := descStochastic s2.desc
          let h := if st then h.drawLanes else h
          let xs := c.first.sums.get [] b
          let rs := (List.range 60).map fun k =>
            restage (descG s2.desc) (c.first.scale b) (s2.scale b) (if st then some (Config.freeBits 16 (base + k)).toNat else none) (xs.getD k 0)
          let sat := (rs.filter fun r => r.2).length
          let h := if 0 < sat then ((h.addReg Reg.BRU_SAT_CNT sat).tally 109 sat).setIrq 0x0B 3 else h
          (h.sendContrib n i true b none [rs.map (·.1)]).modCtx n i fun c => c.modStage true fun s => { s with next := s.next + 1 }
    | _, _ => h) h

/-- Exponent byte of a block of stage sums (R220). -/
def Coll.sumByte (c : Coll) (b : Nat) : Nat :=
  probeByte ((c.sums.get [] b).map fun x => .num x ((c.scale b : Int) - 127))

/-- What a LEADER does with a verified block of its stage: it is forwarded, or, with PROBED scaling of the next stage, the
probes leave once every block has been verified (R219, R220). -/
def Hw.leaderBlock (h : Hw) (n i b : Nat) : Hw :=
  match h.ctx n i with
  | none => h
  | some c =>
    match c.second with
    | none => h
    | some s2 =>
      if !descProbed s2.desc then h.forward n i [b]
      else
        let nb := descBlocks c.first.desc
        if (List.range nb).all fun b => c.first.fate.get none b == some .ok then
          h.sendProbes n i true ((List.range nb).map fun b => c.first.sumByte b)
        else h

/-- One block of an answer (R202, R216). -/
def Hw.answerBlock (h : Hw) (c : Ctx) (second : Bool) (b count : Nat) (sums : List SealedLine) (walk : BttWalk) : Hw :=
  let s := c.stage second
  let d := s.desc
  let g := descG d
  let role := descRole d
  if count < g then
    (((h.incReg Reg.BRU_INCOMPLETE_CNT).tally 95 1).collFail c second false b count false).setFate c second b .incomplete
  else if g < count then
    (((h.incReg Reg.BRU_TAG_FAIL_CNT).tally 94 1).collFail c second true b count false).setFate c second b .authFail
  else if !role.receives then h.setFate c second b .ok
  else
    let lanes := lanesOfLines sums
    let (h, ok, inj) := h.checked 8 none none none (sumCheck s.key b (c.lanes2 second) lanes)
    if !ok then
      (((h.incReg Reg.BRU_TAG_FAIL_CNT).tally 94 1).collFail c second true b count inj).setFate c second b .authFail
    else
      let base := h.free
      let st := descStochastic d
      let h := if st then h.drawLanes else h
      let h := (h.incReg Reg.BRU_BLOCKS_IN).modCtx c.queue c.op fun c => c.modStage second fun s => { s with
        sums := s.sums.put [] b (demask s.key b lanes), rand := if st then s.rand.put 0 b base else s.rand, fate := s.fate.put none b (some .ok) }
      if role = .leader then h.leaderBlock c.queue c.op b
      else
        let h := h.releasedCount s
        if c.holds then h else h.writeResults c.queue c.op b (.op c.queue c.op) walk

/-- DEAD_TARGET of a BLIND message answered NO_TARGET: recorded once, its blocks counted (R178, R216). -/
def Hw.blindDead (h : Hw) (c : Ctx) (m : CollMsg) (d : Line) : Hw :=
  let t := h.newTxn (.cfe c.queue c.op) .reduceAcc (some .blind) c.slice (BitVec.ofNat 46 (descAcc d + 256 * m.first)) (4 * m.count)
  ((h.deadRecord t m.op).addReg Reg.LINK_DEAD_CNT (m.count - 1)).tally 152 (m.count - 1)

/-- After an answer: a RECEIVE reads on, and an operation whose queue was reset ends (R215, R285). -/
def Hw.collGoOn (h : Hw) (c : Ctx) : Hw := (h.sendReads c.queue c.op 33).opSettle c.queue c.op

/-- BLIND_ANSWER: the answer of a BL_CONTRIB or BL_READ, block by block (R216). One that is to be converted with random bits waits
while the DRBG has none ready (R374): the command is without effect. -/
def Hw.blindAnswer (h : Hw) (p : Fin 16) (m : Message) (walk : BttWalk) : Hw :=
  match h.blindMatch m.hdr.txn.toNat with
  | none => h.blindLate p m
  | some (c, second, x) =>
    if x.op = 0x12 ∨ m.hdr.op.toNat ≠ x.op ∨ (h.drawsLate c second = true ∧ (descRole (c.stage second).desc).receives = true) then h
    else
      let d := (c.stage second).desc
      let h := h.blindAnswered c second x
      let h := if m.hdr.status = 2 then
          (List.range x.count).foldl (fun h k => h.setFate c second (x.first + k) .deadTarget) (h.blindDead c x d)
        else (List.range x.count).foldl (fun h k =>
          match h.ctx c.queue c.op with
          | none => h
          | some c => h.answerBlock c second (x.first + k) (inlineField m.inlineArea (16 + 2 * k) 16) ((m.lines.drop (4 * k)).take 4) walk) h
      h.collGoOn c

/-- A probe fails: the stage contributes nothing, and the collective ends (R216). -/
def Hw.probeFailed (h : Hw) (n i : Nat) (cc : CC) : Hw :=
  (h.modOp n i fun o => { o with code := if o.code = .ok then cc else o.code.worse cc }).modCtx n i fun c => { c with st := .draining }

/-- BL_EXPMAX_ANSWER: the scales of a run of blocks, or the end of the collective (R215, R216). One after which a LEADER forwards with
random bits waits while the DRBG has none ready (R374): the command is without effect. -/
def Hw.blExpmaxAnswer (h : Hw) (p : Fin 16) (m : Message) : Hw :=
  match h.blindMatch m.hdr.txn.toNat with
  | none => h.blindLate p m
  | some (c, second, x) =>
    if x.op ≠ 0x12 ∨ m.hdr.op ≠ 0x12 ∨ (second = true ∧ h.drawsLate c true = true) then h
    else
      let s := c.stage second
      let g := descG s.desc
      let count := inlineField m.inlineArea 16 16
      let n := c.queue
      let i := c.op
      let h := h.blindAnswered c second x
      let h :=
        if m.hdr.status = 2 then (h.blindDead c x s.desc).probeFailed n i .deadTarget
        else if count ≠ g then (h.collFail c second false x.first count false).probeFailed n i .incomplete
        else h.modCtx n i fun c => c.modStage second fun (s : Coll) => { s with
          scales := (List.range x.count).foldl (fun (t : Tbl Nat) k =>
            t.put 0 (x.first + k) (inlineField m.inlineArea (18 + k) 8 + 1 - headroomOf g + 1)) s.scales }
      let h : Hw := match h.ctx n i, h.op n i with
        | some c', some o =>
          if (c'.stage second).msgs = [] ∧ o.code = .ok ∧ o.aborting = false then
            (if second then h.forward n i (List.range (descBlocks s.desc))
             else if c'.st = .probing then h.modCtx n i fun c => { c with st := .sending } else h)
          else h
        | _, _ => h
      h.opSettle n i

/-- Code of a collective, the first of R217's list that applies. -/
def Ctx.code (c : Ctx) (own : CC) : CC :=
  let fates := own :: ((c.first.fate.filterMap (·.2)) ++ (match c.second with | some s => s.fate.filterMap (·.2) | none => []))
  match ([.malformed, .stateRefused, .aborted, .deadTarget, .authFail, .incomplete] : List CC).find? fun x => decide (x ∈ fates) with
  | some x => x
  | none => .ok

/-- A collective closes: its completion is written, K is erased and its context is freed (R215, R217). -/
def Hw.collFinish (h : Hw) (n i : Nat) : Hw :=
  match h.ctx n i, h.op n i with
  | some c, some o =>
    let cc := c.code o.code
    h.opUnitEnd n i cc ((blindResult cc 0 false).getD 0)
  | _, _ => h

/-- Every block of a slot-fed collective has been put, and taken where results are held (R299). -/
def Ctx.slotsDone (c : Ctx) : Bool :=
  let nb := descBlocks c.first.desc
  (!c.putFed || decide (nb ≤ c.put.length)) && (!c.holds || decide (nb ≤ c.taken.length))

/-- COLLECTIVE_CLOSE: a draining collective whose every message has been answered closes (R215, R217). -/
def Hw.collectiveClose (h : Hw) (n i : Nat) : Hw :=
  match h.ctx n i, h.op n i with
  | some c, some o =>
    if c.st = .draining ∧ o.txns = [] ∧ (c.slotsDone = true ∨ o.code ≠ .ok) then h.collFinish n i else h
  | _, _ => h

/-- T_GROUP_EXPIRY: T_GROUP after DRAINING the remaining blocks end INCOMPLETE, and the collective closes (R215, R216); one
whose results are held stays until its blocks have been taken (R299). -/
def Hw.tGroupExpiry (h : Hw) (n i : Nat) : Hw :=
  match h.ctx n i with
  | none => { h with bru.closing := h.bru.closing.filter fun c => !(c.queue == n && c.op == i) }
  | some c =>
    if c.st ≠ .draining then h
    else
      let msgs := (c.first.msgs.map fun m => (false, m)) ++ (match c.second with | some s => s.msgs.map fun m => (true, m) | none => [])
      let h := msgs.foldl (fun h p =>
        let h := h.blindAnswered c p.1 p.2
        if p.2.op = 0x12 then (h.collFail c p.1 false p.2.first 0 false).probeFailed n i .incomplete
        else (List.range p.2.count).foldl (fun h k =>
          (((h.incReg Reg.BRU_INCOMPLETE_CNT).tally 95 1).collFail c p.1 false (p.2.first + k) 0 false).setFate c p.1 (p.2.first + k) .incomplete) h) h
      match h.op n i with
      | some o => if o.aborting then h.opSettle n i else if c.slotsDone ∨ o.code ≠ .ok then h.collFinish n i else h
      | none => h

/-- Every context of a slice, or all of them, closed ABORTED at once (R217). -/
def Hw.collAbort (h : Hw) (p : Ctx → Bool) : Hw :=
  (h.bru.ctxs.filter p).foldl (fun h c => h.opUnitEnd c.queue c.op .aborted 5) h

/-- Contexts whose command has completed released at once, of a slice or all of them (R217). -/
def Hw.closingAbort (h : Hw) (p : Nat → Bool) : Hw := { h with bru.closing := h.bru.closing.filter fun c => !p c.slice }

end Sys2Proof.Machine
end

