-- ==== Sys2Proof/Machine/Shape.lean ====
section
/-! DEFINITION. DISPATCH and COMBINE: their checks, their shapes, the lines they write, and their transfers (R237 to R244). -/

namespace Sys2Proof.Machine

/-- The descriptor's reserved fields are 0 (R237): first byte, first bit, width. -/
def shapeReservedOk (d : Line) (combine : Bool) : Bool :=
  ([(1, 3, 5), (2, 13, 3), (4, 13, 3), (6, 6, 2), (8, 21, 11), (12, 12, 20), (16, 52, 12), (24, 52, 12), (32, 46, 18), (56, 52, 12)] : List (Nat × Nat × Nat)).all
    (fun f => df d f.1 f.2.1 f.2.2 == 0) && (!combine || df d 24 46 6 == 0)

/-- The descriptor is legal, as R238 states for it. -/
def shapeLegal (d : Line) (combine : Bool) : Bool :=
  let p := shapeP d
  let used := p * sectionSize d
  shapeReservedOk d combine && (combine || shapeMode d != 3) && decide (1 ≤ shapeSlots d) && decide (shapeSlots d ≤ 4096) &&
    (combine || shapeMode d != 1 || (decide (1 ≤ shapeBucket d) && decide (shapeBucket d ≤ shapeSlots d))) &&
    (combine || (decide (1 ≤ shapeRows d) && decide (shapeRows d ≤ 2 ^ 20))) && decide (shapeSelf d < p) &&
    (!shapeFenceEn d || decide (shapeFence d + p - 1 ≤ 4095)) &&
    decide (shapeSrc d % 64 = 0) && decide (shapeMap d % 64 = 0) && decide (shapeSlab d % 256 = 0) &&
    (if combine then decide (shapeRecv d % 256 = 0) && decide (shapeRecv d + used ≤ 2 ^ 46) else decide (shapeRoute d % 64 = 0)) &&
    decide (used ≤ shapeStride d) && decide (shapeSlab d + (p - 1) * shapeStride d + used ≤ 2 ^ 46)

/-- n′ of a destination to which n rows are routed (R239). -/
def shapedCount (d : Line) (n : Nat) : Nat :=
  match shapeMode d with
  | 0 => min n (shapeSlots d)
  | 1 => min (shapeSlots d) (shapeBucket d * max 1 ((n + shapeBucket d - 1) / shapeBucket d))
  | _ => shapeSlots d

/-- Rows routed to a destination, in source order (R239). -/
def routed (d : Line) (route : List (BitVec 16)) (dest : Nat) : List Nat :=
  (List.range (shapeRows d)).filter fun r => (route[r]?).getD 0xFFFF == BitVec.ofNat 16 dest

/-- The section of a destination (R239, R240). -/
def dispatchPart (d : Line) (route : List (BitVec 16)) (dest : Nat) : Part :=
  let rows := routed d route dest
  let n := shapedCount d rows.length
  let real := min rows.length n
  { entries := (rows.take real).map fun r => (r, true), real := real, shaped := n, value := shapeValue d, pos := 0, readPos := 1 + indexLines n
    known := true, failed := false, dead := false, aborted := false, stepped := false, step := none, signalled := false, outs := [] }

/-- A section of COMBINE before its receive section has been read (R243). -/
def combinePart : Part :=
  { entries := [], real := 0, shaped := 0, value := 0, pos := 0, readPos := 0, known := false, failed := false, dead := false, aborted := false
    stepped := false, step := none, signalled := false, outs := [] }

/-- Routing entries are participants or 0xFFFF (R238). -/
def routeOk (d : Line) (route : List (BitVec 16)) : Bool :=
  (List.range (shapeRows d)).all fun r => let e := (route[r]?).getD 0xFFFF; e == 0xFFFF || decide (e.toNat < shapeP d)

/-- SCHED.STEPQ names the queue (R298). -/
def Hw.steppedQueue (h : Hw) (n : Nat) : Bool := if n < 32 then h.regBit Reg.SCHED_STEPQ_LO n else h.regBit Reg.SCHED_STEPQ_HI (n - 32)

/-- Granules of a range of the pool. -/
def rangeGranules (addr bytes : Nat) : List Nat :=
  if bytes = 0 then [] else (List.range ((addr + bytes - 1) / 2 ^ 21 + 1 - addr / 2 ^ 21)).map fun k => addr / 2 ^ 21 + k

/-- Granules of a command's slabs (R301). -/
def slabGranules (d : Line) (combine : Bool) : List Nat :=
  let used := shapeP d * sectionSize d
  ((List.range (shapeP d)).flatMap fun k => rangeGranules (shapeSlab d + k * shapeStride d) used) ++
    (if combine then rangeGranules (shapeRecv d) used else [])

/-- Where the granules of a command's slabs are presented to the Gate: the first line of each in its slab (R86, R238). -/
def slabAddrs (d : Line) : List Nat :=
  (List.range (shapeP d)).flatMap fun k =>
    let base := shapeSlab d + k * shapeStride d
    (rangeGranules base (shapeP d * sectionSize d)).map fun g => max base (g * 2 ^ 21)

/-- The granules of a stepped command's slabs pinned, and those not cached fetched (R301). -/
def Hw.pinSlabs (h : Hw) (n i : Nat) (gs : List Nat) : Hw :=
  let h := ({ h with sched.ctxs := h.sched.ctxs.map fun c => if c.queue = n ∧ c.op = i then { c with pins := gs } else c } : Hw).repin
  gs.foldl (fun h g => if (h.cached g).isSome then h else h.startFill g) h

/-- DISPATCH and COMBINE: the command is checked, its routing array and member map read, and it runs (R237 to R241). A
stepped command takes its slot context first (R298). -/
def Hw.shapeStart (h : Hw) (n i : Nat) (combine : Bool) (d : Line) (route members : List (BitVec 16)) (walk : BttWalk) : Hw :=
  match h.issuedOp n i (if combine then 5 else 4) with
  | none => h
  | some o =>
    if !o.descOperandOk then h.opEnd n i .malformed .none
    else
      let stepped := h.steppedQueue n || (h.slotCtxOf n i).isSome
      let (h, ok) := if stepped then h.slotEnter false n n i else (h, true)
      if !ok || !h.drbgReady then h
      else match h.opAccess n i o.descAddr 64 false walk with
        | (h, false) => h
        | (h, true) =>
          let blank : ShapeRun :=
            { queue := n, op := i, combine := combine, desc := d, members := members.map (·.toNat), parts := [], stepped := stepped, slabs := []
              genKey := h.freeVal 256, genCtr := 0, dropped := 0 }
          let h := ({ h with shaper := h.shaper ++ [blank] } : Hw).drbgCall
          if !shapeLegal d combine then h.opEnd n i .malformed .none
          else match h.opReads n i ((shapeMap d, 2 * shapeP d) :: (if combine then [] else [(shapeRoute d, 2 * shapeRows d)])) walk with
            | (h, false) => h
            | (h, true) =>
              if !combine && !routeOk d route then h.opEnd n i .malformed .none
              else
                let parts := (List.range (shapeP d)).map fun k => if combine then combinePart else dispatchPart d route k
                let dropped := if combine then 0 else
                  (List.range (shapeP d)).foldl (fun acc k => acc + ((routed d route k).length - (dispatchPart d route k).real)) 0
                let h := h.modRun n i fun r => { r with parts := parts, dropped := dropped, slabs := if stepped then slabAddrs d else [] }
                let h := h.modOp n i fun o => { o with started := true, total := 1, next := 0 }
                if stepped then h.pinSlabs n i (slabGranules d combine) else h

/-- DISPATCH (R237 to R242). -/
def Hw.dispatch (h : Hw) (n i : Nat) (d : Line) (route members : List (BitVec 16)) (walk : BttWalk) : Hw :=
  h.shapeStart n i false d route members walk

/-- COMBINE (R243). DESIGN CHOICE (log entry 17). -/
def Hw.combine (h : Hw) (n i : Nat) (d : Line) (members : List (BitVec 16)) (walk : BttWalk) : Hw :=
  h.shapeStart n i true d [] members walk

/-- 64 bytes of the generator's keystream, from block `ctr` (R241). -/
def generator (key : BitVec 256) (ctr : Nat) : Nat :=
  (List.range 4).foldl (fun acc j => acc + (Config.aesEnc key (BitVec.ofNat 128 (ctr + j))).toNat * 2 ^ (128 * j)) 0

/-- Index entry of a slot, over 64 generator bits (R240, R243). -/
def Part.entry (p : Part) (slot gen : Nat) : Nat :=
  match p.entries[slot]? with
  | some (row, valid) => row % 2 ^ 32 + b2n valid * 2 ^ 32 + bits gen 33 31 * 2 ^ 33
  | none => bits gen 0 32 + bits gen 33 31 * 2 ^ 33

/-- The slot holds a real row. -/
def Part.realSlot (p : Part) (slot : Nat) : Bool := match p.entries[slot]? with | some (_, v) => v | none => false

/-- The line written at a position of a section: the line, the generator blocks used so far and the source lines left (R240). -/
def ShapeRun.lineAt (r : ShapeRun) (p : Part) (pos ctr : Nat) (data : List Line) : Line × Nat × List Line :=
  let g := generator r.genKey ctr
  if pos = 0 then
    (BitVec.ofNat 512 (p.shaped % 2 ^ 32 + p.real % 2 ^ 32 * 2 ^ 32 + p.value.toNat * 2 ^ 64 + g % 2 ^ 384 * 2 ^ 128), ctr + 3, data)
  else if pos ≤ indexLines p.shaped then
    (BitVec.ofNat 512 ((List.range 8).foldl (fun acc k => acc + p.entry (8 * (pos - 1) + k) (bits g (64 * k) 64) * 2 ^ (64 * k)) 0), ctr + 4, data)
  else if p.realSlot ((pos - 1 - indexLines p.shaped) / shapeRowLines r.desc) then (data.headD 0, ctr, data.drop 1)
  else (BitVec.ofNat 512 g, ctr + 4, data)

/-- Pool address of the next line that is written of a section. -/
def ShapeRun.writeAddr (r : ShapeRun) (k : Nat) (p : Part) : Nat :=
  sectionAddr r.desc k (shapeSelf r.desc) + 64 * linePlace r.desc p.shaped p.pos

/-- Lines of the next transfer of a section: contiguous, up to 64, within one granule (R86, R240). -/
def ShapeRun.chunk (r : ShapeRun) (k : Nat) (p : Part) : Nat :=
  let x := indexLines p.shaped
  let run := if p.pos ≤ x then x + 1 - p.pos else sectionLines r.desc p.shaped - p.pos
  min 64 (min run (32768 - bits (r.writeAddr k p) 6 15))

/-- Block address of the source of a row line (R237, R243). -/
def ShapeRun.sourceAddr (r : ShapeRun) (k : Nat) (p : Part) (pos : Nat) : Nat :=
  let q := pos - 1 - indexLines p.shaped
  let rl := shapeRowLines r.desc
  let slot := q / rl
  let row := if r.combine then k * shapeSlots r.desc + slot else match p.entries[slot]? with | some (x, _) => x | none => 0
  shapeSrc r.desc + (row * rl + q % rl) * 64

/-- Source lines that a transfer reads. -/
def ShapeRun.sources (r : ShapeRun) (k : Nat) (p : Part) (count : Nat) : List (Nat × Nat) :=
  (List.range count).filterMap fun j =>
    let pos := p.pos + j
    if indexLines p.shaped < pos && p.realSlot ((pos - 1 - indexLines p.shaped) / shapeRowLines r.desc) then some (r.sourceAddr k p pos, 64) else none

/-- Real and dummy rows of a section that has been written, counted. -/
def Hw.rowsWritten (h : Hw) (p : Part) : Hw :=
  let real := ((p.entries.take p.shaped).filter (·.2)).length
  (((h.addReg Reg.SHAPE_ROWS_REAL real).addReg Reg.SHAPE_ROWS_DUMMY (p.shaped - real)).tally 134 real).tally 135 (p.shaped - real)

/-- One transfer of a section issued: its lines, sealed as plain stores (R115, R240). -/
def Hw.shapeWrite (h : Hw) (n i k : Nat) (slot : Option Nat) (count : Nat) (w : Option Window) (data : List Line) : Hw × List Line :=
  match h.run n i with
  | none => (h, data)
  | some r =>
    match r.parts[k]? with
    | none => (h, data)
    | some p =>
      let (lines, ctr, rest) := (List.range count).foldl (fun (acc : List Line × Nat × List Line) j =>
        let (l, c, d) := r.lineAt p (p.pos + j) acc.2.1 acc.2.2
        (acc.1 ++ [l], c, d)) ([], r.genCtr, data)
      let t := { h.grantTxn (.cfe n i) .shapeWrite (h.queueSlice n) (r.writeAddr k p) count w with
        stage := .keyWait, slot := slot, data := lines.map fun l => (⟨l, 0⟩ : SealedLine) }
      let h := h.issueTransfer n i t 0
      let h := (h.modRun n i fun r => { r with genCtr := ctr }).modPart n i k fun p => { p with pos := p.pos + count, outs := p.outs ++ [t.id] }
      let h := if sectionLines r.desc p.shaped ≤ p.pos + count then h.rowsWritten p else h
      (h.advance t.id, rest)

/-- The next read of a receive section (R243): its header, or index lines below n′. -/
def Hw.shapeRead (h : Hw) (n i k : Nat) : Hw :=
  match h.run n i with
  | none => h
  | some r =>
    match r.parts[k]? with
    | none => h
    | some p =>
      let addr := shapeRecv r.desc + k * sectionSize r.desc + 64 * p.readPos
      let count := if p.readPos = 0 then 1 else min 64 (min (1 + indexLines p.shaped - p.readPos) (32768 - bits addr 6 15))
      match h.presentGranule n i .shapeRead addr count 0 with
      | (h, none) => h
      | (h, some w) =>
        let t := { h.grantTxn (.cfe n i) .shapeRead (h.queueSlice n) addr count w with stage := .keyWait }
        let h := (h.issueTransfer n i t 0).modPart n i k fun p => { p with outs := p.outs ++ [t.id] }
        h.advance t.id

/-- The next transfer of a DISPATCH or COMBINE (R86, R240, R243): `data` are the source lines of its real rows. A stepped
command presents its slabs and reads here, and writes in its steps (R238, R300). -/
def Hw.shapePresent (h : Hw) (n i : Nat) (data : List Line) (walk : BttWalk) : Hw :=
  match h.run n i, h.op n i with
  | some r, some o =>
    if o.aborting ∨ o.total ≤ o.next then h
    else if r.stepped then
      match r.slabs with
      | a :: rest =>
        (match h.presentGranule n i .shapeWrite a 1 0 with
        | (h, none) => h
        | (h, some _) => h.modRun n i fun r => { r with slabs := rest })
      | [] =>
      match r.parts.findIdx? fun p => !p.failed && !p.dead && !p.ready && p.outs == [] with
      | some k => h.shapeRead n i k
      | none => h
    else match r.parts.findIdx? fun p => !r.wrote p with
      | none => h
      | some k =>
        match r.parts[k]? with
        | none => h
        | some p =>
          if !p.ready then (if p.outs = [] then h.shapeRead n i k else h)
          else
            let count := r.chunk k p
            match h.presentGranule n i .shapeWrite (r.writeAddr k p) count 0 with
            | (h, none) => h
            | (h, some w) =>
              match h.opReads n i (r.sources k p count) walk with
              | (h, false) => h
              | (h, true) => (h.shapeWrite n i k none count w data).1
  | _, _ => h

/-- CFE_TRANSFER_PRESENT: an outstanding operation presents its next transfer to the Gate (R83, R86). `data` are the lines of
device memory that it carries, `code` the entry of a group's length array. -/
def Hw.cfeTransferPresent (h : Hw) (n i : Nat) (data : List Line) (code : Nat) (walk : BttWalk) : Hw :=
  match h.op n i with
  | none => h
  | some o =>
    if o.st ≠ .issued ∨ o.started = false ∨ o.aborting = true then h
    else match o.opcode with
      | 1 => h.copyPresent n i data code walk
      | 2 => h.bulkPresent n i data walk
      | 3 => h.collPresent n i
      | 4 => h.shapePresent n i data walk
      | 5 => h.shapePresent n i data walk
      | _ => h

end Sys2Proof.Machine
end

