-- ==== Sys2Proof/Machine/Sched.lean ====
section
/-! DEFINITION. The Scheduled Port: slot words, their judgement, their work, their completions, and quiet windows
(R295 to R314). -/

namespace Sys2Proof.Machine

/-- Completion statuses of slot operations (R303). -/
inductive SlotStatus where
  | ok | busy | refused | authFail | incomplete | error | malformed
  deriving DecidableEq, Repr

/-- SCH_CPL_STATUS (R303). -/
def SlotStatus.num : SlotStatus → Nat
  | .ok => 0 | .busy => 1 | .refused => 2 | .authFail => 3 | .incomplete => 4 | .error => 5 | .malformed => 6

/-- Reasons of BUSY and REFUSED (R304). -/
inductive SlotReason where
  | gate | full | egress | notReady | hold | noContext | repeated | tooBig
  deriving DecidableEq, Repr

/-- Reason codes (R304). -/
def SlotReason.num : SlotReason → Nat
  | .gate => 0 | .full => 1 | .egress => 2 | .notReady => 3 | .hold => 4 | .noContext => 5 | .repeated => 6 | .tooBig => 7

/-- Status of a reason (R304); GATE is BUSY with RETRY alone. -/
def SlotReason.status (r : SlotReason) (gate : GateCode) : SlotStatus :=
  match r with
  | .gate => if gate = .retry then .busy else .refused
  | .full | .egress | .notReady | .hold => .busy
  | .noContext | .repeated | .tooBig => .refused

/-- op of a slot word (R295). -/
def slotOp (w : BitVec 64) : Nat := bits w.toNat 0 4
/-- id. -/
def slotId (w : BitVec 64) : Nat := bits w.toNat 4 6
/-- coll_id. -/
def slotColl (w : BitVec 64) : Nat := bits w.toNat 10 16
/-- block. -/
def slotBlock (w : BitVec 64) : Nat := bits w.toNat 26 27
/-- queue. -/
def slotQueue (w : BitVec 64) : Nat := bits w.toNat 10 6
/-- part. -/
def slotPart (w : BitVec 64) : Nat := bits w.toNat 16 8
/-- fence. -/
def slotFence (w : BitVec 64) : Nat := bits w.toNat 10 12
/-- delta. -/
def slotDelta (w : BitVec 64) : Nat := bits w.toNat 22 32
/-- cycles. -/
def slotCycles (w : BitVec 64) : Nat := bits w.toNat 10 16

/-- First bit that an operation does not use; it and those above are reserved (R295). -/
def slotTop (op : Nat) : Nat :=
  match op with
  | 1 => 53 | 2 => 53 | 3 => 24 | 4 => 24 | 5 => 54 | 6 => 22 | 7 => 26 | _ => 64

/-- The word's reserved bits are 0 (R295). -/
def slotReservedOk (w : BitVec 64) : Bool := w.toNat / 2 ^ slotTop (slotOp w) == 0

/-- Slot operations whose completion is pending. -/
def Hw.slotPending (h : Hw) : List Nat := h.sched.items.filterMap fun i => match i with | .op _ id _ _ => some id | .quiet _ => none

/-- A slot operation still works: a read of its has not returned, or a write has not been acknowledged (R302). -/
def Hw.slotBusy (h : Hw) (id : Nat) : Bool :=
  (h.dmp.open_.any fun t => t.use == .slot id) || h.dmp.waiting.any fun a => a.use == .slot id

/-- Slot operations that still work. -/
def Hw.slotWorking (h : Hw) : Nat := (h.slotPending.filter fun id => h.slotBusy id).length

/-- Slice of every slot operation (R297). -/
def Hw.slotSlice (h : Hw) : Nat := h.regF Reg.SCHED_CTL 0 10

/-- SCHED_PROTOCOL of a word (R296, R435). -/
def Hw.slotProtocol (h : Hw) (w : BitVec 64) : Hw :=
  h.raise 250 (detailWord (some h.slotSlice) none 0 0) (slotOp w + 16 * slotId w) 0 0

/-- A slot operation's completion waits for its turn (R305). -/
def Hw.slotEnd (h : Hw) (w : BitVec 64) (st : SlotStatus) (data : Nat) : Hw :=
  { h with sched.items := h.sched.items ++ [.op (slotOp w) (slotId w) st.num (BitVec.ofNat 64 data)] }

/-- A slot operation that does nothing, for a reason (R303, R304); one that needs a domain that is being reset completes ERROR with ABORTED
(R427). -/
def Hw.slotNot (h : Hw) (w : BitVec 64) (r : SlotReason) (gate : GateCode) : Hw :=
  if gate = .fenced ∧ h.resetFences (some (if slotOp w ≤ 2 then .blind else .sealed)) = true then h.slotEnd w .error CC.aborted.num
  else h.slotEnd w (r.status gate) (256 * r.num + gate.num)

/-- A slot word is MALFORMED (R296). -/
def Hw.slotMalformed (h : Hw) (w : BitVec 64) : Bool :=
  decide (8 ≤ slotOp w) || !slotReservedOk w || decide (slotId w ∈ h.slotPending) || (slotOp w == 5 && slotDelta w == 0)

/-- The Scheduled Port takes words: the Gate runs, and CK_HOST is not off (R38). -/
def Hw.slotsRun (h : Hw) : Bool := h.gateRuns && h.pow.rung != .u4 && h.pow.rung != .u5

/-- What every slot word but NOP and QUIET meets first (R296): it is dropped while 64 completions are pending, and completes
MALFORMED where it is; while the whole block is being reset it completes ERROR with ABORTED (R427); `work` does the rest. DEDUCED (log
entry 28). -/
def Hw.slotWord (h : Hw) (w : BitVec 64) (op : Nat) (work : Hw → Hw) : Hw :=
  if !h.slotsRun || slotOp w ≠ op then h
  else if 64 ≤ h.slotPending.length then h.slotProtocol w
  else if h.slotMalformed w then (h.slotProtocol w).slotEnd w .malformed 0
  else if h.blockFenced then h.slotEnd w .error CC.aborted.num
  else work h

/-- RESERVED_SLOT_OP: a word with a reserved op (R296). -/
def Hw.reservedSlotOp (h : Hw) (w : BitVec 64) : Hw := h.slotWord w (max 8 (slotOp w)) fun h => h

/-- Flits of slot operations that wait in the Regulator or on a port (R306). -/
def Hw.slotFlits (h : Hw) : Nat :=
  let mine := fun (m : Nat) => m == 8 || m == 13
  (h.rgl.items.filter fun i => mine i.master).foldl (fun n i => n + i.flits) 0 +
    h.ports.foldl (fun n p => (List.range 4).foldl (fun n v => ((p.2.vc v).queue.filter fun i => mine i.master).foldl (fun n i => n + i.left) n) n) 0

/-- SCHED.EGRESS_RES, values below 32 taken as 32. -/
def Hw.egressRes (h : Hw) : Nat := max (h.regF Reg.SCHED_EGRESS_RES 0 12) 32

/-- The context of a slot-fed collective (R298). -/
def Hw.slotFed (h : Hw) (coll : Nat) : Option Ctx :=
  match h.sched.ctxs.find? fun c => c.blind && c.key == coll with
  | some c => h.ctx c.queue c.op
  | none => none

/-- The Gate's judgement of a slot operation at an address (R297). -/
def Hw.slotJudge (h : Hw) (k : ReqKind) (addr : Nat) : Hw × GateCode × Option Window :=
  h.gateJudge ⟨.sched, some k, addr, 4, some h.slotSlice, false, 0⟩ 0

/-- A consecutive block joins the message before it while that has not started (R306): the message changed. -/
def Message.join (m : Message) (lines : List SealedLine) : Message :=
  { m with hdr := { m.hdr with dflits := m.hdr.dflits + 1, lines := m.hdr.lines + 4 }, lines := m.lines ++ lines }

/-- The message of a block that a put of block b can join (R306). -/
def Hw.joinable (h : Hw) (c : Ctx) (b : Nat) : Option Nat :=
  match c.first.msgs.find? fun m => m.op == 0x10 && m.first + m.count == b && decide (m.count < 16) && (descAcc c.first.desc / 256 + b) % 8192 != 0 with
  | none => none
  | some m =>
    let inRgl := h.rgl.items.any fun i => match i.work with | .message x => x.hdr.txn.toNat == m.txn && !x.hdr.resp | _ => false
    let inPort := h.ports.any fun p => (List.range 4).any fun v => (p.2.vc v).queue.any fun i => i.msg.hdr.txn.toNat == m.txn && !i.msg.hdr.resp && !i.started
    if inRgl || inPort then some m.txn else none

/-- A put's block appended to the message with that tag (R306). -/
def Hw.joinBlock (h : Hw) (n i txn : Nat) (lines : List SealedLine) : Hw :=
  let h := { h with
    rgl.items := h.rgl.items.map fun (it : WorkItem) => match it.work with
      | .message x => if x.hdr.txn.toNat = txn ∧ x.hdr.resp = false then { it with work := .message (x.join lines), flits := it.flits + 1, bytes := it.bytes + 256 } else it
      | _ => it }
  let h := (List.range 16).foldl (fun h p => (List.range 4).foldl (fun h v =>
    if ((h.port p).vc v).queue.any fun i => i.msg.hdr.txn.toNat == txn && !i.msg.hdr.resp && !i.started then
      h.modVc p v fun c => { c with queue := c.queue.map fun (i : EgressItem) =>
        if i.msg.hdr.txn.toNat = txn ∧ i.msg.hdr.resp = false ∧ i.started = false then { i with msg := i.msg.join lines, left := i.left + 1 } else i }
    else h) h) h
  h.modCtx n i fun c => c.modStage false fun s => { s with msgs := s.msgs.map fun (m : CollMsg) => if m.txn = txn then { m with count := m.count + 1 } else m }

/-- A slot-fed block contributed: joined to the message before it, or in a message of its own (R302, R306). -/
def Hw.putBlock (h : Hw) (id : Nat) (c : Ctx) (b : Nat) (xs : List Int) : Hw :=
  let s := c.first
  let h := match h.joinable c b with
    | some txn =>
      (h.addReg Reg.BRU_BLOCKS_OUT 1).joinBlock c.queue c.op txn
        (lanesLines (contribLanes s.key (descG s.desc) (descRank s.desc) b (c.lanes2 false) xs))
    | none => h.sendContrib c.queue c.op false b (some id) [xs]
  h.modCtx c.queue c.op fun c => { c with
    put := c.put ++ [b], st := if descBlocks c.first.desc ≤ c.put.length + 1 then .draining else c.st }

/-- BLIND_PUT: block b of a slot-fed collective is read, converted, masked, tagged and passed to the Regulator
(R299, R302 to R307). -/
def Hw.blindPut (h : Hw) (w : BitVec 64) (src : SrcBlock) (walk : BttWalk) : Hw :=
  h.slotWord w 1 fun h =>
    let b := slotBlock w
    match h.slotFed (slotColl w) with
    | none => h.slotNot w .noContext .none
    | some c =>
      let d := c.first.desc
      if !c.putFed || decide (descBlocks d ≤ b) then h.slotNot w .noContext .none
      else if 32 ≤ h.slotWorking then h.slotNot w .full .none
      else
        let (h, code, _) := h.slotJudge .blindPut (descAcc d + 256 * b)
        if code ≠ .none then h.slotNot w .gate code
        else if b ∈ c.put then h.slotNot w .repeated .none
        else if c.st = .opening ∨ c.st = .probing ∨ (descStochastic d = true ∧ h.drbgReady = false) then h.slotNot w .notReady .none
        else if c.st ≠ .sending then h.slotEnd w .error (match h.op c.queue c.op with | some o => o.code.num | none => 0)
        else if c.holdRoom = 0 then h.slotNot w .hold .none
        else if h.egressRes < h.slotFlits + 2 then h.slotNot w .egress .none
        else match h.readsFor (.slot (slotId w)) c.queue c.op (sourceRanges d b 1 [src]) walk with
          | (h, false) => h.slotEnd w .error CC.aborted.num
          | (h, true) =>
            match h.convertBlock c.queue c.first b src with
            | (h, none) => (h.collMalformed c.queue c.op).slotEnd w .error CC.malformed.num
            | (h, some xs) => (h.putBlock (slotId w) c b xs).slotEnd w .ok b

/-- BLIND_TAKE: the released result of block b is written (R299, R302, R303). -/
def Hw.blindTake (h : Hw) (w : BitVec 64) (walk : BttWalk) : Hw :=
  h.slotWord w 2 fun h =>
    let b := slotBlock w
    match h.slotFed (slotColl w) with
    | none => h.slotNot w .noContext .none
    | some c =>
      let d := c.first.desc
      if !c.holds || decide (descBlocks d ≤ b) then h.slotNot w .noContext .none
      else if 32 ≤ h.slotWorking then h.slotNot w .full .none
      else
        let (h, code, _) := h.slotJudge .blindTake (descAcc (c.stage c.resultStage).desc + 256 * b)
        if code ≠ .none then h.slotNot w .gate code
        else if b ∈ c.taken then h.slotNot w .repeated .none
        else
          let take := fun (h : Hw) => (h.modCtx c.queue c.op fun c => { c with taken := c.taken ++ [b] })
          match (c.stage c.resultStage).fate.get none b with
          | none => h.slotNot w .notReady .none
          | some .ok =>
            let h := (take h).writeResults c.queue c.op b (.slot (slotId w)) walk
            if (h.ctx c.queue c.op).isNone then h.slotEnd w .error CC.aborted.num
            else (h.sendReads c.queue c.op 33).slotEnd w .ok b
          | some .authFail => ((take h).sendReads c.queue c.op 33).slotEnd w .authFail b
          | some .incomplete => ((take h).sendReads c.queue c.op 33).slotEnd w .incomplete b
          | some cc => ((take h).sendReads c.queue c.op 33).slotEnd w .error cc.num

/-- Every transfer of a section, first to last (R302). -/
def Hw.stepWrites (h : Hw) (id n i k : Nat) (w : Option Window) (data : List Line) : Nat → Hw
  | 0 => h
  | fuel + 1 =>
    match h.run n i with
    | none => h
    | some r =>
      match r.parts[k]? with
      | none => h
      | some p =>
        if sectionLines r.desc p.shaped ≤ p.pos then h
        else
          let (h, rest) := h.shapeWrite n i k (some id) (r.chunk k p) w data
          Hw.stepWrites h id n i k w rest fuel

/-- Granules of a section that a step writes. -/
def ShapeRun.sectionGranules (r : ShapeRun) (k : Nat) (p : Part) : List Nat :=
  rangeGranules (sectionAddr r.desc k (shapeSelf r.desc)) (64 * (linePlace r.desc p.shaped (sectionLines r.desc p.shaped - 1) + 1))

/-- A step of a DISPATCH or COMBINE (R300 to R304). -/
def Hw.slotStep (h : Hw) (w : BitVec 64) (combine : Bool) (data : List Line) (walk : BttWalk) : Hw :=
  let k := slotPart w
  match h.sched.ctxs.find? fun c => !c.blind && c.key == slotQueue w with
  | none => h.slotNot w .noContext .none
  | some c =>
    let n := c.queue
    let i := c.op
    if (match h.op n i with | some o => o.opcode | none => 0) ≠ (if combine then 5 else 4) then h.slotNot w .noContext .none
    else if 32 ≤ h.slotWorking then h.slotNot w .full .none
    else match h.run n i with
      | none => h.slotNot w .notReady .none
      | some r =>
        match r.parts[k]? with
        | none => h.slotNot w .noContext .none
        | some p =>
          let (h, code, win) := h.slotJudge .shapeWrite (sectionAddr r.desc k (shapeSelf r.desc))
          let step := fun (h : Hw) => h.modPart n i k fun p => { p with stepped := true, step := some (slotId w) }
          let lines := sectionLines r.desc p.shaped
          let flits := 2 * ((lines + 3) / 4)
          if code ≠ .none then h.slotNot w .gate code
          else if p.stepped then h.slotNot w .repeated .none
          else if r.slabs ≠ [] ∨ (r.parts.any fun p => !p.ready && !p.failed && !p.dead) = true then h.slotNot w .notReady .none
          else if p.failed then (step h).slotEnd w .authFail k
          else if p.dead then (step h).slotEnd w .error CC.deadTarget.num
          else if h.drbgReady = false ∨ (r.sectionGranules k p).any (fun g => (h.cached g).isNone || h.gkt.fills.any fun f => f.granule == g) = true then
            h.slotNot w .notReady .none
          else if h.egressRes < flits then h.slotNot w .tooBig .none
          else if h.egressRes < h.slotFlits + flits then h.slotNot w .egress .none
          else match h.readsFor (.slot (slotId w)) n i (r.sources k p lines) walk with
            | (h, false) => h.slotEnd w .error CC.aborted.num
            | (h, true) => ((step h).stepWrites (slotId w) n i k win data lines).slotEnd w .ok lines

/-- DISPATCH_STEP: one destination's section (R300, R302). -/
def Hw.dispatchStep (h : Hw) (w : BitVec 64) (data : List Line) (walk : BttWalk) : Hw := h.slotWord w 3 fun h => h.slotStep w false data walk

/-- COMBINE_STEP: one origin's section (R300, R302). -/
def Hw.combineStep (h : Hw) (w : BitVec 64) (data : List Line) (walk : BttWalk) : Hw := h.slotWord w 4 fun h => h.slotStep w true data walk

/-- FENCE.SIG and FENCE.POLL judged at steps 1 and 3 of R87, and by the fence's owner (R297). -/
def Hw.fenceJudge (h : Hw) (allowed : Bool) : Hw × GateCode :=
  let s := h.slotSlice
  let c : GateCode := if h.pow.rung = .u3 then .retry else if (h.slice s).st ≠ .active then .sliceGone else if allowed then .none else .perm
  let h := h.emit (.gate .sched 0 c)
  match c with
  | .none => (h.incReg Reg.GATE_GRANT_CNT, c)
  | _ =>
    let h := h.incReg (Reg.GATE_REFUSE_CNT c.num)
    (if c = .retry then h else h.lastRefuse ⟨.sched, none, 0, 0, some s, false, 0⟩ c, c)

/-- FENCE_SIG: delta is added to a fence's value, and its waiters are woken (R302). -/
def Hw.fenceSigOp (h : Hw) (w : BitVec 64) : Hw :=
  h.slotWord w 5 fun h =>
    let f := slotFence w
    let (h, code) := h.fenceJudge ((h.fence f).maySignal h.slotSlice)
    if code ≠ .none then h.slotNot w .gate code
    else
      let v := (h.fence f).value + BitVec.ofNat 64 (slotDelta w)
      (h.fenceSignal f v none h.memberId).slotEnd w .ok v.toNat

/-- FENCE_POLL: a fence's state and value (R302, R303). -/
def Hw.fencePollOp (h : Hw) (w : BitVec 64) : Hw :=
  h.slotWord w 6 fun h =>
    let v := h.fence (slotFence w)
    let (h, code) := h.fenceJudge (v.mayWait h.slotSlice)
    if code ≠ .none then h.slotNot w .gate code
    else match v.st with
      | .signalled => h.slotEnd w .ok v.value.toNat
      | .error => h.slotEnd w .error v.value.toNat
      | _ => h.slotNot w .notReady .none

/-- A quiet window opens once every slot operation presented before its word has completed, and a snapshot that waits for one is
written (R311, R445). -/
def Hw.openQuiet (h : Hw) : Hw :=
  let isQuiet := fun (i : SlotItem) => match i with | .quiet _ => true | _ => false
  let n := (h.sched.items.takeWhile isQuiet).length
  if n = 0 then h
  else ((({ h with sched.items := h.sched.items.dropWhile isQuiet } : Hw).setF Reg.SCHED_STAT 31 1 1).tally 56 n).exportGo

/-- QUIET: opens a quiet window under DETERMINISTIC, once its turn comes (R296, R311). -/
def Hw.quietWord (h : Hw) (w : BitVec 64) : Hw :=
  if !h.slotsRun || slotOp w ≠ 7 then h
  else if 64 ≤ h.slotPending.length ∨ slotCycles w = 0 ∨ slotId w ≠ 0 ∨ slotReservedOk w = false then h.slotProtocol w
  else if !h.deterministic then h
  else ({ h with sched.items := h.sched.items ++ [.quiet (slotCycles w)] } : Hw).openQuiet

/-- QUIET_WINDOW_END: the window's cycles run out, and its tail begins (R311). -/
def Hw.quietWindowEnd (h : Hw) : Hw :=
  if h.regBit Reg.SCHED_STAT 31 then (h.setF Reg.SCHED_STAT 31 1 0).setF Reg.SCHED_STAT 30 1 1 else h

/-- QUIET_TAIL_END: 72 CK_ENG cycles after the window its tail ends (R311). -/
def Hw.quietTailEnd (h : Hw) : Hw := if h.regBit Reg.SCHED_STAT 30 then h.setF Reg.SCHED_STAT 30 1 0 else h

/-- SCHED_QUIET_STARVED: SCHED.STARVE ms of DETERMINISTIC with less than 1 us of quiet windows (R313). -/
def Hw.schedQuietStarved (h : Hw) : Hw :=
  if h.deterministic && h.regF Reg.SCHED_STARVE 0 16 != 0 then h.raise 252 (detailWord none none 0 0) 0 0 0 else h

/-- SCHED_BOUND_MISS, with its breach record for REPAIR, RESET and KEY (R314, R357). -/
def Hw.boundMiss (h : Hw) (op id : Nat) (m : SlotMiss) : Hw :=
  let c := m.cause % 5
  let h := (h.incReg Reg.SCHED_MISS_CNT).setReg Reg.SCHED_LAST_MISS (BitVec.ofNat 32 (op + 16 * id + 4096 * c + 65536 * min m.late 0x7FFF + 2 ^ 31))
  let h := h.raise 251 (detailWord (some h.slotSlice) none 0 0) (op + 16 * id) c m.late
  match c with
  | 2 => h.breach 2 4 3 m.party 4 id
  | 3 => h.breach m.rank 4 m.kind m.party 4 id
  | 4 => h.breach 1 4 1 h.slotSlice 4 id
  | _ => h

/-- The step of a section has completed: its fence may be signalled (R300). -/
def Hw.stepDone (h : Hw) (id : Nat) : Hw :=
  let mine := h.shaper.filter fun r => r.parts.any fun p => p.step == some id
  mine.foldl (fun h r => h.shapeSettle r.queue r.op) { h with
    shaper := h.shaper.map fun r => { r with parts := r.parts.map fun p => if p.step = some id then { p with step := none } else p } }

/-- SLOT_COMPLETION: the oldest slot operation completes, once its work is done (R303, R305); `miss` is set where it is late
with the conditions of R310 met (R314). -/
def Hw.slotCompletion (h : Hw) (miss : Option SlotMiss) : Hw :=
  match h.sched.items with
  | .op op id st data :: rest =>
    if h.slotBusy id then h
    else
      let late := if h.deterministic then miss else none
      let late5 := match late with | some m => m.cause % 5 == 1 || m.cause % 5 == 3 || m.cause % 5 == 4 | none => false
      let (st, data) := if late5 then (5, BitVec.ofNat 64 CC.aborted.num) else (st, data)
      let h := (({ h with sched.items := rest } : Hw).emit (.schCpl id st data)).incReg Reg.SCHED_OPS_CNT
      let h := if 1 ≤ op ∧ op ≤ 6 then h.tally (48 + op) 1 else h
      let h := if st = 1 then (h.incReg Reg.SCHED_BUSY_CNT).tally 55 1 else h
      let h := match late with | some m => h.boundMiss op id m | none => h
      (if op = 3 ∨ op = 4 then h.stepDone id else h).openQuiet
  | _ => h

end Sys2Proof.Machine
end

