-- ==== Sys2Proof/Machine/Removal.lean ====
section
/-! DEFINITION. Removal and teardown of slices (R335 to R341), and the squash of outstanding work that they share with
the reset of the whole block (R337, R427). -/

namespace Sys2Proof.Machine

/-- Transaction Port transactions answered ABORTED with zeros and counted: those that `p` names and that are still open (R56, R337). -/
def Hw.squashPorts (h : Hw) (p : Txn → Bool) : Hw × Nat :=
  (h.txns.filter fun t => p t && (match t.src with | .utp _ => true | _ => false) && t.stage != .ready && t.stage != .window).foldl
    (fun acc t => ((acc.1.dropEgress t.id).toPort t.id .aborted (t.blank .aborted), acc.2 + 1)) (h, 0)

/-- What is left of an operation when its work is squashed: its transfers are forgotten and it completes ABORTED (R337). -/
def Hw.squashOp (h : Hw) (n i : Nat) : Hw :=
  match h.op n i with
  | none => h
  | some o =>
    if o.ended then h
    else
      let h := o.txns.foldl (fun h id => h.closeTxn id) h
      h.opDone n i .aborted (if o.st = .waiting then Detail.skipped.num else 0) true (if o.opcode = 9 ∧ o.st ≠ .waiting then h.waitValue o else 0)

/-- A queue's buffer squashed: every operation completes, and the completion record is written (R337). -/
def Hw.squashQueue (h : Hw) (n : Nat) : Hw :=
  match (h.queue n).run with
  | none => h
  | some b =>
    ((List.range b.ops.length).foldl (fun h i => h.squashOp n i) h).bufFinish n

/-- Slot operations still at work complete ERROR with ABORTED: those that `p` takes by operation and id (R337, R427). -/
def Hw.squashSlots (h : Hw) (p : Nat → Nat → Bool) : Hw :=
  let busy := h.sched.items.filterMap fun i => match i with
    | .op op id _ _ => if p op id && h.slotBusy id then some id else none
    | .quiet _ => none
  { h with
    sched.items := busy.foldl (fun items id => items.map (SlotItem.fail id)) h.sched.items
    dmp.open_ := h.dmp.open_.filter fun t => match t.use with | .slot id => decide (id ∉ busy) | _ => true
    dmp.waiting := h.dmp.waiting.filter fun a => match a.use with | .slot id => decide (id ∉ busy) | _ => true }

/-- A slice's queues, in every state but OFF, go HALTED, whatever reset is in progress (R336, R341). -/
def Hw.haltQueues (h : Hw) (s : Nat) : Hw :=
  (h.queuesOf s).foldl (fun h n => h.setQueue n { h.queue n with st := .halted, pre := none, idleArmed := false }) h

/-- Fences orphaned by the end of a slice: those it owns and those on which it is the signalling sharer (R339). -/
def Hw.orphanFences (h : Hw) (s : Nat) : Hw :=
  (h.obj.fences.filter fun p => p.2.allocated && (p.2.owner == s || (p.2.shares s && bit p.2.cfg 21))).foldl (fun h p => h.fenceOrphan p.1) h

/-- Slot contexts of a slice's commands removed (R336). -/
def Hw.dropSlotCtxs (h : Hw) (s : Nat) : Hw :=
  ({ h with
    sched.ctxs := h.sched.ctxs.filter fun c => h.queueSlice c.queue != s
    sched.waiting := h.sched.waiting.filter fun w => h.queueSlice w.2.2.1 != s } : Hw).repin

/-- The final step: windows, queues, quarantine and, on removal, fences and events (R336, R339). -/
def Hw.finishSlice (h : Hw) (s : Nat) (dead : Bool) : Hw :=
  let v := h.slice s
  let h := { h with gate.windows := h.gate.windows.filter fun w => w.slice != s }
  let h := (h.queuesOf s).foldl (fun h n => (h.setQueue n { h.queue n with st := .off }).setF (Reg.QRING_Qn_CTL n) 0 1 0) h
  let h := if dead then h.setSlice s { v with st := .dead, step := 0, quar := false }
    else
      let h := h.setSlice s { Slice.unbound with jobs := v.jobs }
      let owned := (h.obj.fences.filter fun p => p.2.allocated && p.2.owner == s).map (·.1)
      let shared := (h.obj.fences.filter fun p => p.2.shares s).map (·.1)
      let events := (h.obj.events.filter fun p => p.2.alloc && fld p.2.cfg 0 10 == s).map (·.1)
      let h := owned.foldl (fun h f => h.setFence f { h.fence f with st := .free, status := .ok }) h
      let h := shared.foldl (fun h f => h.setFence f { h.fence f with cfg := setBits (setBits (h.fence f).cfg 10 10 0) 24 1 0 }) h
      events.foldl (fun h e => h.setEvent e { h.event e with alloc := false, set := false }) h
  h.quarStat.setIrq 0x10 0

/-- Steps 1 and 2 of R336: the slice is closed, and its drain begins. -/
def Hw.closeSlice (h : Hw) (s : Nat) (teardown : Bool) : Hw :=
  let h := h.setSlice s { h.slice s with st := if teardown then .tearing else .removing, step := 2, refusal := 0, since := h.clk.now }
  let h := (((h.haltQueues s).dropSlotCtxs s).orphanFences s)
  (h.collAbort fun c => c.slice == s).closingAbort fun k => k == s

/-- REMOVE: SLICE.CMD REMOVE of the selected slice (R335, R336). -/
def Hw.removeSlice (h : Hw) : Hw :=
  let s := h.regF Reg.SLICE_SEL 0 10
  match (h.slice s).st with
  | .active => h.closeSlice s false
  | .dead => (h.setSlice s { h.slice s with refusal := 0 }).finishSlice s false
  | _ => h.setSlice s { h.slice s with refusal := 1 }

/-- TEARDOWN: SLICE.CMD TEARDOWN of the selected slice (R335, R336). -/
def Hw.teardownSlice (h : Hw) : Hw :=
  let s := h.regF Reg.SLICE_SEL 0 10
  if (h.slice s).st = .active then h.closeSlice s true else h.setSlice s { h.slice s with refusal := 1 }

/-- SLICE_DRAIN_END: the drain ends, and what is still open is squashed (R337). -/
def Hw.sliceDrainEnd (h : Hw) (s : Nat) : Hw :=
  if (h.slice s).step ≠ 2 then h
  else
    let (h, count) := h.squashPorts fun t => t.slice == s
    let h := (h.queuesOf s).foldl (fun h n => h.squashQueue n) h
    let h := if h.slotSlice = s then h.squashSlots (fun _ _ => true) else h
    (h.addReg Reg.SLICE_SQUASH_CNT count).setSlice s { h.slice s with step := 3, since := h.clk.now }

/-- A transaction is tagged with a slot of a slice: it is the slice's own, or a SEAL transaction of a family whose key the slice holds
(R338, R372). -/
def Hw.tagged (h : Hw) (s : Nat) (t : Txn) : Bool :=
  (t.slice == s && (match t.src with | .utp _ => true | .cfe _ _ => true | .left => true | _ => false)) ||
  (t.cls == some .sealed && (match h.familySlot t.family with | some k => (h.slot k).owner == s | none => false))

/-- SLICE.BARRIER of a slice: the units that still hold its tagged work (R338). -/
def Hw.barrierOf (h : Hw) (s : Nat) : Word :=
  let mine := h.txns.filter fun t => h.tagged s t && t.stage != .window
  let clu := (List.range 16).foldl (fun acc p => acc + (if mine.any fun t => (t.port.map fun q => h.serving q.val) == some p && t.stage != .ready then 2 ^ p else 0)) 0
  let queues := h.queuesOf s
  let scu := queues.any fun n => match (h.queue n).run with
    | some b => b.ops.any fun o => o.outstanding && (o.opcode == 0x0D || o.opcode == 0x0E) && o.started
    | none => false
  BitVec.ofNat 32 (clu + 2 ^ 16 * b2n (h.bru.ctxs.any fun c => c.slice == s) + 2 ^ 17 * b2n (h.shaper.any fun r => h.queueSlice r.queue == s) +
    2 ^ 18 * b2n ((queues.any fun n => (h.queue n).run.isSome) || mine.any fun t => match t.src with | .cfe _ _ => true | .left => true | _ => false) + 2 ^ 19 * b2n scu +
    2 ^ 20 * b2n (mine.any fun t => match t.src with | .utp _ => true | _ => false))

/-- SLICE_BARRIER_CLEAR: no unit reports a transaction of the slice, and its slots may be erased (R338). -/
def Hw.sliceBarrierClear (h : Hw) (s : Nat) : Hw :=
  if (h.slice s).step = 3 ∧ h.barrierOf s = 0 then h.setSlice s { h.slice s with step := 4, since := h.clk.now } else h

/-- SLICE_BARRIER_SLOW: the barrier has not cleared 100 us after it began, and keeps waiting (R338, R357). -/
def Hw.sliceBarrierSlow (h : Hw) (s : Nat) : Hw :=
  if (h.slice s).step = 3 ∧ h.barrierOf s ≠ 0 then
    (h.raise 254 (detailWord (some s) none 0 0) 0 0 0).setIrq 0x10 1 |>.breach 1 3 1 s 1 s
  else h

/-- Every Cistern slot of a slice erased, a family key with its cached key sets (R336, R365). -/
def Hw.eraseSlice (h : Hw) (s : Nat) : Hw :=
  (h.cis.slots.filter fun p => p.2.live && !p.2.system && p.2.owner == s).foldl (fun h p =>
    if p.2.usage = 0x41 then (h.eraseFamily p.2.family).eraseSlot p.1 else h.eraseSlot p.1) h

/-- SLICE_SLOTS_ERASED: the SCU confirms the erasure of the slice's slots, and the slice finishes (R336). -/
def Hw.sliceSlotsErased (h : Hw) (s : Nat) : Hw :=
  if (h.slice s).step ≠ 4 then h
  else
    let dead := (h.slice s).st == .tearing
    (h.eraseSlice s).keysChanged.finishSlice s dead

end Sys2Proof.Machine
end

