-- ==== Sys2Proof/Machine/Power.lean ====
section
/-! DEFINITION. Profiles, the power ladder and the measurement of the clocks (R26, R33 to R47, R80). -/

namespace Sys2Proof.Machine

/-- A cluster repair runs, which counts as work (R259). -/
def Hw.repairing (h : Hw) : Bool := (List.range 16).any fun n => h.regF (Reg.CLU_STAT n) 0 3 == 1

/-- The pipelines have work (R39). -/
def Hw.pipelineWork (h : Hw) : Bool :=
  h.txns != [] || h.rgl.items != [] || h.bru.ctxs != [] || h.shaper != [] || h.sched.items != [] || h.pump.wet.isSome || h.repairing ||
    h.ports.any fun p => p.2.vcs.any fun v => v.2.queue != []

/-- Every CFE queue is empty: no buffer runs or is preloaded, and nothing is published (R39). -/
def Hw.queuesEmpty (h : Hw) : Bool :=
  h.cfe.queues.all fun q => q.2.run.isNone && q.2.pre.isNone && (q.2.st != .active) && (q.2.st == .off || q.2.head == q.2.tail)

/-- The Pump is idle or paused (R39). -/
def Hw.pumpStill (h : Hw) : Bool := h.pump.ranges == [] || h.regBit Reg.PUMP_CTL 8 || h.pump.rungPause

/-- Conditions at entry of a rung (R39, R259). A rung is entered only from a shallower one: the only ways out of a rung that R39 names
are its wake events. DESIGN CHOICE (log entry 52). -/
def Hw.entryOk (h : Hw) (r : Rung) : Bool :=
  decide (h.pow.rung.num < r.num) &&
  match r with
  | .u0 => true
  | .u1 => !h.repairing
  | .u2 => !h.repairing && h.queuesEmpty && h.bru.ctxs == [] && h.bru.waiting == [] && h.pumpStill
  | _ => !h.repairing && h.queuesEmpty && h.bru.ctxs == [] && h.bru.waiting == [] && h.pumpStill && h.txns == [] &&
      (r == .u3 || !h.joined)

/-- PWR.RUNG_STAT.refusal written; a refusal sets IRQ_STAT.rung_refused (R40). -/
def Hw.rungRefusal (h : Hw) (code : Nat) : Hw :=
  let h := h.setF Reg.PWR_RUNG_STAT 8 3 code
  if code = 0 then h else h.setIrq 0x02 1

/-- PWR.WAKE_CAUSE; the port goes with causes 1 and 3. -/
def Hw.wakeCause (h : Hw) (cause port : Nat) : Hw :=
  h.setReg Reg.PWR_WAKE_CAUSE (BitVec.ofNat 32 (cause + 65536 * (if cause = 1 ∨ cause = 3 then port % 16 else 0)))

/-- A cause of R39 wakes the block from a rung: 1 to 5 from U1 to U3, 6 and 7 from U2 and U3, 10 from U3. -/
def wakesFrom (r : Rung) (cause : Nat) : Bool :=
  match r with
  | .u1 => decide (1 ≤ cause ∧ cause ≤ 5)
  | .u2 => decide (1 ≤ cause ∧ cause ≤ 7)
  | .u3 => decide (1 ≤ cause ∧ cause ≤ 7) || cause == 10
  | _ => false

/-- An exit to U0 starts (R38). -/
def Hw.startExit (h : Hw) (cause port : Nat) : Hw :=
  ({ h with pow := { h.pow with moving := some .u0, auto := false } } : Hw).wakeCause cause port

/-- A rung request that no transition delays (R37, R39, R40, R80). RUNG_REQ = 1 asks for U1 as the other rungs are asked for, and a rung
shallower than the one in force, other than U0, is never entered (`Hw.entryOk`): it is refused BUSY after the 100 us of R40.
DESIGN CHOICE (log entry 52). -/
def Hw.rungApply (h : Hw) (v : Nat) : Hw :=
  if (v = 4 ∨ v = 5) ∧ h.joined = true then h.rungRefusal 2
  else if v ≠ 0 ∧ h.deterministic = true then h.rungRefusal 3
  else
    let h := h.rungRefusal 0
    if Rung.ofNum v = h.pow.rung then h
    else if v = 0 then
      if h.pow.rung = .u4 ∨ h.pow.rung = .u5 then { h with pow := { h.pow with moving := some .u0, clockWait := true, auto := false } }
      else h.startExit 8 0
    else
      let h := { h with pow := { h.pow with moving := some (Rung.ofNum v), auto := false } }
      if 3 ≤ v then h.pumpPause none else h

/-- The transition is over, and the newest request written meanwhile takes effect (R46). -/
def Hw.rungNext (h : Hw) : Hw :=
  match h.pow.queued with
  | some v => ({ h with pow := { h.pow with queued := none } } : Hw).rungApply v.toNat
  | none => h

/-- A transition ends without its rung: an entry given up, or an exit without its clocks. -/
def Hw.rungStop (h : Hw) : Hw :=
  { h with pow := { h.pow with moving := none, clockWait := false, auto := false }, pump.rungPause := h.pump.rungPause && h.pow.rung == .u3 }

/-- The block is entering a rung. -/
def Hw.entering (h : Hw) : Bool := match h.pow.moving with | some r => r != .u0 | none => false

/-- What a wake does: an entry is abandoned, and a rung below U0 is left (R42). -/
def Hw.wake (h : Hw) (cause port : Nat) : Hw :=
  let h := if h.entering then h.rungStop else h
  if h.pow.moving = none ∧ (h.pow.rung = .u1 ∨ h.pow.rung = .u2 ∨ h.pow.rung = .u3) then h.startExit cause port else h

/-- RUNG_REQ: a write of PWR.RUNG_REQ (R40, R42, R46); a reserved code is ignored but for its refusal (R40, R453). -/
def Hw.rungReq (h : Hw) (value : Word) : Hw :=
  let v := fld value 0 3
  if 6 ≤ v then (h.pageFault 0x02 .reservedWrite).rungRefusal 4
  else
  let h := h.setReg Reg.PWR_RUNG_REQ (BitVec.ofNat 32 v)
  if h.entering ∧ v = 0 then
    let h := ({ h with pow := { h.pow with queued := none } } : Hw).rungStop
    h.rungApply 0
  else if h.pow.moving.isSome then { h with pow := { h.pow with queued := some (BitVec.ofNat 3 v) } }
  else h.rungApply v

/-- PROFILE_WRITE: a write of PWR.PROFILE; one that sets DETERMINISTIC is a wake event (R33, R36, R37). -/
def Hw.profileWrite (h : Hw) (value : Word) : Hw :=
  if 2 ≤ fld value 0 2 then h.pageFault 0x02 .reservedWrite
  else
    let h := (h.setReg Reg.PWR_PROFILE (value &&& 0x33)).setF Reg.PWR_PROFILE_ACT 31 1 1
    if bit value 4 then (let h := h.wake 9 0; if h.pow.moving = none then h.rungNext else h) else h

/-- The requested profile is in effect (R36); a cluster that is out takes it when it is readmitted (R248, R259). -/
def Hw.profileApply (h : Hw) : Hw :=
  let p := h.reg Reg.PWR_PROFILE
  let h := ((h.setReg Reg.PWR_PROFILE_ACT p).setReg Reg.PWR_GATED_PIPES (if fld p 0 2 = 1 then 210 else 0)).setIrq 0x02 2
  (((List.range 16).filter fun n => h.cluState n == 0).foldl (fun h n => h.setClu n { h.clu n with gated := fld p 0 2 == 1 }) h).exportGo

/-- A requested profile that sets DETERMINISTIC is not yet in effect (R37). -/
def Hw.deterministicDue (h : Hw) : Bool := h.regBit Reg.PWR_PROFILE_ACT 31 && h.regBit Reg.PWR_PROFILE 4

/-- PROFILE_EFFECT: the requested profile takes effect; DETERMINISTIC only in U0, where it abandons an entry that runs and the request
kept meanwhile is judged (R36, R37, R46). -/
def Hw.profileEffect (h : Hw) : Hw :=
  if h.regBit Reg.PWR_PROFILE_ACT 31 = false then h
  else if h.deterministicDue = true then
    if h.pow.rung ≠ .u0 then h.wake 9 0
    else if h.entering = true then (h.rungStop.profileApply).rungNext
    else h.profileApply
  else h.profileApply

/-- An automatic entry starts: the setting is not 0, DETERMINISTIC is not in effect, and nothing moves (R33, R39). -/
def Hw.autoEntry (h : Hw) (r : Rung) (setting : Nat) : Hw :=
  if setting = 0 ∨ h.deterministic = true ∨ h.deterministicDue = true ∨ h.pow.moving ≠ none ∨ h.pipelineWork = true ∨ h.entryOk r = false then h
  else { h with pow := { h.pow with moving := some r, auto := true } }

/-- AUTO_U1_ENTRY: IDLE_U1 cycles have passed without pipeline work (R39). -/
def Hw.autoU1 (h : Hw) : Hw := h.autoEntry .u1 (h.regF Reg.PWR_IDLE_U1 0 16)

/-- AUTO_U2_ENTRY: IDLE_U2 has passed without work (R39). -/
def Hw.autoU2 (h : Hw) : Hw := h.autoEntry .u2 (h.regF Reg.PWR_IDLE_U2 0 16)

/-- Queues are lost: every queue OFF, its configuration at its reset values (R38, R430). -/
def Hw.queuesLost (h : Hw) : Hw :=
  { h with
    regs := h.regs.filter fun r => pageOf r.1 != 0x0E
    cfe := { h.cfe with queues := [], btt := [], bttInv := false } }

/-- Windows, negative entries, Region Table cache, GKT cache and BTT cache emptied (R38, R430). -/
def Hw.cachesLost (h : Hw) : Hw :=
  { h with
    gate := { h.gate with windows := [], negatives := [], resolutions := [], retries := [], aged := [], rtc := [] }
    gkt := { h.gkt with cache := [], fills := [] }
    cfe := { h.cfe with btt := [], bttInv := false } }

/-- The SCU has lost its SRAM: it is not ready until it has booted again, and its sessions and measurement registers are
gone (R38, R44, R397, R404). -/
def Hw.scuLost (h : Hw) : Hw :=
  { h with scu := { Scu.fresh with held := h.scu.held, frames := h.scu.frames, inbox := h.scu.inbox, leaver := h.scu.leaver, policyDigest := h.scu.policyDigest, meas := h.scu.meas } }
    |>.setReg 0x15010 0

/-- What U4 loses (R38): caches, queue state, SCU SRAM with the measurement registers, and link sessions. -/
def Hw.loseU4 (h : Hw) : Hw :=
  let h := (h.cachesLost.queuesLost).scuLost
  let h := { h with scu.meas := [] }
  (List.range 16).foldl (fun h p => h.sessionClear p .none) h

/-- The joined state is lost (R44, R370, R395, R396, R471). -/
def Hw.joinLost (h : Hw) : Hw :=
  let h := (h.setReg Reg.CAP_MEMBER 0).setF Reg.ATTEST_JOIN_STAT 4 2 0
  { h with
    dom := { policy := none, leaving := [] }
    cis := { h.cis with transient := [], floors := [], retired := [] }
    ide := { pending := [], kset := [], asked := [], open_ := [] }
    scu := { h.scu with join := none, policyDigest := 0, leaver := none, meas := [] } }

/-- RUNG_ENTRY_DONE: the conditions of the rung being entered are met, and it is in force (R38, R39, R45). -/
def Hw.rungEntryDone (h : Hw) : Hw :=
  match h.pow.moving with
  | none => h
  | some r =>
    if r = .u0 ∨ h.entryOk r = false then h
    else
      let h := match r with | .u4 => h.loseU4 | .u5 => h.loseU4.wipeCistern.joinLost | _ => h
      let h := { h with pow := { h.pow with rung := r, moving := none, auto := false } }
      ((h.setIrq 0x02 0).emit (.rung r)).rungNext

/-- RUNG_ENTRY_TIMEOUT: the conditions of a requested rung have not been met in time (R40). -/
def Hw.rungEntryTimeout (h : Hw) : Hw :=
  match h.pow.moving with
  | none => h
  | some r =>
    if r = .u0 ∨ h.pow.auto = true ∨ h.entryOk r = true then h
    else (h.rungStop.rungRefusal 1).rungNext

/-- The cause wakes the block from the rung in force, or from the one that it is entering (R39, R42). -/
def Hw.wokenBy (h : Hw) (cause : Nat) : Bool :=
  wakesFrom h.pow.rung cause || match h.pow.moving with | some r => wakesFrom r cause | none => false

/-- WAKE_EVENT: a wake event of the rung in force, or of the rung being entered (R39, R41, R42). -/
def Hw.wakeEvent (h : Hw) (cause port : Nat) : Hw :=
  if h.wokenBy cause = false then h
  else
    let h := h.wake cause port
    if h.pow.moving = none then h.rungNext else h

/-- Held ingress of every port processed as far as it now may be (R41, R257). -/
def Hw.drainPorts (h : Hw) : Hw := (List.finRange 16).foldl (fun h p => h.drainHeld p h.collTxn) h

/-- RUNG_EXIT_DONE: the exit time has passed, and U0 is in force; a DETERMINISTIC that has been kept takes effect with it, what waits for the
processor is presented, a reset that waited goes on, and an exit of U5 has drawn a new scramble (R37, R38, R44, R78, R363, R428). -/
def Hw.rungExitDone (h : Hw) : Hw :=
  if h.pow.moving ≠ some .u0 then h
  else
    let h := if h.pow.clockWait then h.wakeCause 8 0 else h
    let down := h.pow.rung == .u4 || h.pow.rung == .u5
    let h := if down then { h with scu := { h.scu with booting := true } } else h
    let h := if h.pow.rung = .u5 then ({ h with cis.scramble := h.freeVal 32 } : Hw).tookFree else h
    let h := { h with pow := { h.pow with rung := .u0, moving := none, clockWait := false }, pump.rungPause := false }
    let h := { h with resets := h.resets.map fun (r : ResetRun) => if r.phase = ResetPhase.fence then { r with phase := ResetPhase.drain } else r }
    let h := (h.setIrq 0x02 0).emit (.rung .u0)
    let h := if h.deterministicDue then h.profileApply else h
    h.icuPresent.drainPorts.rungNext

/-- CLOCK_PRESENCE_TIMEOUT: a clock that an exit needs has not been seen (R80). -/
def Hw.clockPresenceTimeout (h : Hw) : Hw :=
  if h.pow.clockWait then (h.rungStop.rungRefusal 5).rungNext else h

/-- PWR.RUNG_STAT. -/
def Hw.rungStat (h : Hw) : Word :=
  BitVec.ofNat 32 (h.pow.rung.num + 8 * b2n h.pow.moving.isSome + 16 * (match h.pow.moving with | some r => r.num | none => 0) +
    256 * h.regF Reg.PWR_RUNG_STAT 8 3)

/-- A measured rate, in units of 0.1 MHz, outside its range by more than the margin of 2 % (R26): CK_HOST, CK_ENG, CK_LNKn, CK_MGT. -/
def hostOut (r : Nat) : Bool := decide (r < 7840) || decide (20400 < r)
/-- CK_ENG. -/
def engOut (r : Nat) : Bool := decide (r < 14700) || decide (16320 < r)
/-- CK_LNKn: 1.5625 GHz, 500 ppm and 2 %. -/
def lnkOut (r : Nat) : Bool := decide (r < 15305) || decide (15945 < r)
/-- CK_MGT: 125 MHz, 100 ppm and 2 %. -/
def mgtOut (r : Nat) : Bool := decide (r < 1225) || decide (1275 < r)

/-- One clock's measurement: its rate register where it has one, its range bit, and CLOCK_RANGE (R26, R47). The range bit of a clock that
was not measured clears at the window's end. DESIGN CHOICE (log entry 53). -/
def Hw.clockMeasured (h : Hw) (addr : Option Nat) (rangeBit source : Nat) (out : Nat → Bool) (rate : Option (BitVec 16)) : Hw :=
  let h := match addr with
    | some a => h.setReg a (match rate with | some r => BitVec.ofNat 32 (r.toNat + 2 ^ 31) | none => 0)
    | none => h
  match rate with
  | none => h.setF Reg.CLK_RANGE_STAT rangeBit 1 0
  | some r =>
    let h := h.setF Reg.CLK_RANGE_STAT rangeBit 1 (b2n (out r.toNat))
    if out r.toNat then h.raise source (detailWord none none (if source < 176 then source - 160 else 0) 0) 0 0 0 else h

/-- CLOCK_WINDOW: a 10 us window ends with the rate of each clock, none for one that is stopped. CK_ENG, which the block gates itself, is
measured in U0 and U1 only (R26, R27, R47). -/
def Hw.clockWindow (h : Hw) (host eng mgt : Option (BitVec 16)) (lnk : List (Option (BitVec 16))) : Hw :=
  let h := h.clockMeasured (some Reg.CLK_MEAS_HOST) 0 176 hostOut host
  let h := h.clockMeasured (some Reg.CLK_MEAS_ENG) 1 177 engOut (if h.scuClocked then eng else none)
  let h := h.clockMeasured (some Reg.CLK_MEAS_MGT) 2 178 mgtOut mgt
  let sel := h.clk.lnkSel
  let h := (List.range 16).foldl (fun h n =>
    h.clockMeasured (if n = sel then some Reg.CLK_MEAS_LNK else none) (4 + n) (160 + n) lnkOut (lnk.getD n none)) h
  { h with clk := { h.clk with lnkSel := h.regF Reg.CLK_LNK_SEL 0 4 } }

end Sys2Proof.Machine
end

