-- ==== Sys2Proof/Machine/Cluster.lean ====
section
/-! DEFINITION. Port cipher clusters: failed checks, isolation, the repair phases, manual isolation and retest
(R245 to R259). -/

namespace Sys2Proof.Machine

/-- State and phase written. -/
def Hw.cluGo (h : Hw) (n state phase : Nat) : Hw := (h.setF (Reg.CLU_STAT n) 0 3 state).setF (Reg.CLU_STAT n) 4 2 phase

/-- CLU.STAT.serving_partner written. -/
def Hw.cluServes (h : Hw) (n : Nat) (on : Bool) : Hw := h.setF (Reg.CLU_STAT n) 8 1 (b2n on)

/-- Repairs that may start within 1 s (CLU.CTL.max_repairs; 0 is taken as 1). -/
def Hw.maxRepairs (h : Hw) (n : Nat) : Nat := max (h.regF (Reg.CLU_CTL n) 8 4) 1

/-- Both clusters of a pair are out: the pair is fenced, and the transactions on its ports are re-routed (R257). -/
def Hw.fencePair (h : Hw) (k : Nat) : Hw :=
  if h.regBit (Reg.CLU_STAT (2 * k)) 9 then h
  else
    let h := [2 * k, 2 * k + 1].foldl (fun h n => (h.setF (Reg.CLU_STAT n) 9 1 1).cluServes n false) h
    ((h.raise (80 + k) (detailWord none none k 0) 0 0 0).reroute (2 * k)).reroute (2 * k + 1)

/-- A cluster carries traffic: it is IN_SERVICE, or has passed its test and RELOAD (R253, R257). -/
def Hw.cluAble (h : Hw) (n : Nat) : Bool := h.cluState n == 0 || h.cluIn n 3

/-- A cluster serves both ports of its pair, and processes again the blocks that were inside the clusters that are out (R252). -/
def Hw.cluServesBoth (h : Hw) (n : Nat) : Hw :=
  let h := (h.cluServes n true).addReg (Reg.CLU_RERUN_CNT n) ((h.clu n).redo + (h.clu (partner n)).redo)
  (h.setClu n { h.clu n with redo := 0 }).setClu (partner n) { h.clu (partner n) with redo := 0 }

/-- The fence of a pair lifts, cluster `n` serves both ports, and the held ingress is processed (R257). -/
def Hw.unfencePair (h : Hw) (n : Nat) : Hw :=
  let h := [n, partner n].foldl (fun h n => h.setF (Reg.CLU_STAT n) 9 1 0) h
  (h.cluServesBoth n).drainPorts

/-- A cluster is out with `blocks` blocks inside: the partner takes over both ports, or the pair is fenced when it is out itself
(R252, R257). -/
def Hw.takeOver (h : Hw) (n : Nat) (blocks : Nat) : Hw :=
  let h := (h.cluServes n false).setClu n { h.clu n with redo := (h.clu n).redo + blocks }
  if h.cluAble (partner n) then h.cluServesBoth (partner n) else h.fencePair (n / 2)

/-- A repair starts from ZEROISE (R253, R255). -/
def Hw.startRepair (h : Hw) (n : Nat) (manual : Bool) : Hw :=
  let c := h.clu n
  let h := h.setClu n { c with repairs := h.clk.now :: c.repairs, since := h.clk.now, manual := manual, attempts := 0, checkFailed := false }
  (h.cluGo n 1 0).incReg (Reg.CLU_REPAIR_CNT n)

/-- As many repairs as CLU.CTL.max_repairs have started within some 1 s (R256). -/
def Hw.repairsFull (h : Hw) (n : Nat) : Bool :=
  let ts := (h.clu n).repairs
  ts.any fun t => decide (h.maxRepairs n ≤ (ts.filter fun u => decide (t ≤ u) && decide (u < t + 1000000000)).length)

/-- A cluster goes to HELD in place of another repair (R256). Once it is out of HELD, the repairs that brought it there count no more.
DESIGN CHOICE (log entry 67). -/
def Hw.cluHold (h : Hw) (n : Nat) : Hw :=
  ((h.setClu n { h.clu n with repairs := [] }).cluGo n 3 0).raise (64 + n) (detailWord none none n 0) 0 0 0

/-- A check of R250 that failed: what was checked. -/
def cluCheckKind : CluCheck → Nat
  | .stage .. => 1 | .key .. => 2 | .unit .. => 3

/-- PIPE_FAULT and UNIT_FAULT of a failed check. -/
def Hw.cluMark (h : Hw) (n : Nat) (c : CluCheck) : Hw :=
  match c with
  | .stage p _ => h.setF (Reg.CLU_PIPE_FAULT n) p.val 1 1
  | .key p _ => (h.setF (Reg.CLU_PIPE_FAULT n) p.val 1 1).setF (Reg.CLU_UNIT_FAULT n) 3 1 1
  | .unit u => h.setF (Reg.CLU_UNIT_FAULT n) (if u.val = 3 then 4 else u.val) 1 1

/-- The armed checker is the one whose check failed (R419). -/
def Hw.cluInjected (h : Hw) (n : Nat) (c : CluCheck) : Bool :=
  match c with
  | .stage p s => h.injectHits 1 (some n) (some p.val) (some s.val)
  | .key p s => h.injectHits 2 (some n) (some p.val) (some s.val)
  | .unit u => h.injectHits 3 (some n) (some u.val) none

/-- The check is of a pipeline that is clock-gated, and whose stages therefore hold nothing: F10 to F19 under FRUGAL, outside a
known-answer test (R248). -/
def Hw.pipeGated (h : Hw) (n : Nat) (c : CluCheck) : Bool :=
  let idle := fun (p : Nat) => decide (10 ≤ p) && decide (p ≤ 19) && (h.clu n).gated && !h.cluIn n 1
  match c with
  | .stage p _ => idle p.val
  | .key p _ => idle p.val
  | .unit _ => false

/-- CLUSTER_CHECK_FAIL: a check fails in a cluster, and `blocks` blocks were inside it (R250, R252, R256). A cluster that carries traffic
is isolated; one under its known-answer test fails that test (R254). -/
def Hw.clusterCheckFail (h : Hw) (n : Fin 16) (c : CluCheck) (blocks : Nat) : Hw :=
  if h.pipeGated n.val c then h
  else
    let inj := h.cluInjected n.val c
    let h := if inj then h.injectUse else h
    let h := h.cluMark n.val c
    let h := h.raiseWith ⟨16 * (cluCheckKind c - 1) + n.val, BitVec.ofNat 32 (detailWord none none n.val 0),
      h.reg (Reg.CLU_PIPE_FAULT n.val), h.reg (Reg.CLU_UNIT_FAULT n.val), 0, inj, []⟩
    if h.cluIn n.val 1 then h.setClu n.val { h.clu n.val with checkFailed := true }
    else if !h.cluAble n.val then h
    else
      let h := if h.cluState n.val = 0 then h.setIrq (0x40 + n.val) 0 else h
      (if h.repairsFull n.val then h.cluHold n.val else h.startRepair n.val false).takeOver n.val blocks

/-- ZEROISE_DONE: key registers and keystream are zero, and the known-answer test begins (R253). -/
def Hw.zeroiseDone (h : Hw) (n : Fin 16) : Hw :=
  if !h.cluIn n.val 0 || h.resets.any fun r => r.dom.num == n.val / 2 || r.dom == .block then h
  else (h.cluGo n.val 1 1).setClu n.val { h.clu n.val with keys := [], attempts := 1, checkFailed := false }

/-- What a known-answer test leaves in KAT_FAIL and KAT_UNIT (R254). -/
def Hw.katRecord (h : Hw) (n : Nat) (pipes : BitVec 30) (units : BitVec 3) (attempts : Nat) (pass : Bool) : Hw :=
  (h.setReg (Reg.CLU_KAT_FAIL n) (pipes.setWidth 32)).setReg (Reg.CLU_KAT_UNIT n)
    (BitVec.ofNat 32 (units.toNat + 256 * attempts + 2 ^ 31 * b2n pass))

/-- A cluster that has failed its third test (R255, R467). -/
def Hw.cluFailed (h : Hw) (n : Nat) : Hw :=
  (h.cluGo n 4 0).raise (48 + n) (detailWord none none n 0) (h.reg (Reg.CLU_KAT_FAIL n)).toNat (h.reg (Reg.CLU_KAT_UNIT n)).toNat 0

/-- KAT_DONE: a known-answer test ends with the pipelines and units that failed; a check that has failed during it fails it too (R253 to
R255, R258). -/
def Hw.katDone (h : Hw) (n : Fin 16) (pipes : BitVec 30) (units : BitVec 3) : Hw :=
  if !h.cluIn n.val 1 then h
  else
    let c := h.clu n.val
    let pass := pipes == 0 && units == 0 && !c.checkFailed
    let h := h.katRecord n.val pipes units c.attempts pass
    if pass then
      if c.manual && h.regBit (Reg.CLU_CTL n.val) 0 then h.cluGo n.val 2 0 else h.cluGo n.val 1 2
    else if c.attempts < 3 then h.setClu n.val { c with attempts := c.attempts + 1, checkFailed := false }
    else h.cluFailed n.val

/-- The key registers of a cluster written again from the Cistern: the link sessions of its pair, the bulk class key and the cached SEAL
key sets (R249, R430). -/
def Hw.loadFromCistern (h : Hw) (n : Nat) : Hw :=
  let link := (List.range 8).map fun k => linkSlot (n / 2 * 2) + k
  let sets := h.cis.sets.flatMap fun s => [128 + 4 * s.pos, 129 + 4 * s.pos, 130 + 4 * s.pos]
  let held := (link ++ [12] ++ sets).filter fun k => (h.slot k).live
  h.setClu n { h.clu n with keys := held.foldl (fun (t : Tbl (BitVec 256 × BitVec 256)) k =>
    t.put (0, 0) (4 * k) ((h.slot k).share0, (h.slot k).share1)) [] }

/-- RELOAD: every key that the partner holds for the pair (R253); where the partner is out too, the keys come from the Cistern, and the
key sets in transient slots are derived again. DESIGN CHOICE (log entry 67). -/
def Hw.reloadKeys (h : Hw) (n : Nat) : Hw :=
  if h.cluAble (partner n) then h.setClu n { h.clu n with keys := (h.clu (partner n)).keys }
  else (h.loadFromCistern n).dropTransient fun _ => true

/-- RELOAD_DONE: the key registers are reloaded, and a fence of the pair lifts (R253, R257). -/
def Hw.reloadDone (h : Hw) (n : Fin 16) : Hw :=
  if !h.cluIn n.val 2 then h
  else
    let h := (h.reloadKeys n.val).cluGo n.val 1 3
    if h.regBit (Reg.CLU_STAT n.val) 9 then h.unfencePair n.val else h

/-- READMIT: the ports return to their own clusters as far as these are in service, and the profile in force applies to the cluster
(R253, R259). -/
def Hw.readmit (h : Hw) (n : Fin 16) : Hw :=
  if !h.cluIn n.val 3 then h
  else
    let us := (h.clk.now - (h.clu n.val).since + 999) / 1000
    let h := ((h.cluGo n.val 0 0).setReg (Reg.CLU_PIPE_FAULT n.val) 0).setReg (Reg.CLU_UNIT_FAULT n.val) 0
    let h := (h.setClu n.val { h.clu n.val with gated := h.frugal }).setReg (Reg.CLU_LAST_REPAIR n.val) (BitVec.ofNat 32 (min us 0xFFFF))
    let h := h.cluServes (partner n.val) false
    (h.cluServes n.val (h.cluState (partner n.val) != 0)).setIrq (0x40 + n.val) 1

/-- CLU.CTL.isolate written 1 (R258). The spec does not say how many blocks are inside the cluster: a free value. DESIGN CHOICE (log
entry 67). -/
def Hw.isolateOn (h : Hw) (n : Nat) : Hw :=
  if h.cluState (partner n) ≠ 0 then h.setF (Reg.CLU_STAT n) 10 1 1
  else
    let h := h.setF (Reg.CLU_STAT n) 10 1 0
    if h.cluState n ≠ 0 then h
    else
      let blocks := (h.freeVal 16).toNat
      (((h.tookFree.setF (Reg.CLU_CTL n) 0 1 1).startRepair n true).setIrq (0x40 + n) 0).takeOver n blocks

/-- CLU.CTL.isolate written 0 (R258). -/
def Hw.isolateOff (h : Hw) (n : Nat) : Hw :=
  let h := h.setF (Reg.CLU_CTL n) 0 1 0
  if h.cluState n = 2 then h.cluGo n 1 2 else h

/-- CLU.CTL.retest written 1 (R255). -/
def Hw.retestOn (h : Hw) (n : Nat) : Hw :=
  if h.cluState n = 3 ∨ h.cluState n = 4 then h.startRepair n (h.regBit (Reg.CLU_CTL n) 0) else h

/-- A write of CLU.CTL: max_repairs, isolate and retest (R255, R256, R258). -/
def Hw.cluCtl (h : Hw) (n : Nat) (value : Word) : Hw :=
  let h := h.setF (Reg.CLU_CTL n) 8 4 (fld value 8 4)
  let h := if bit value 0 then h.isolateOn n else h.isolateOff n
  if bit value 1 then h.retestOn n else h

end Sys2Proof.Machine
end

