-- ==== Sys2Proof/Machine/Region.lean ====
section
/-! DEFINITION. REGION_OP: CREATE, DESTROY, SHARE, UNSHARE and SET_FILL, with their checks, their table writes and what
they wait for (R15, R16, R20, R89 to R102, R372, R473, R475, R476). -/

namespace Sys2Proof.Machine

/-- Results of REGION.LAST_OP (R100, R475). -/
inductive RegRes where
  | ok | overlap | policy | noMap | shareFull | windowLimit | classChange | notFound | busy | tableFull | writeFail
  deriving DecidableEq, Repr

/-- Numbers of the results. -/
def RegRes.num : RegRes → Nat
  | .ok => 0 | .overlap => 1 | .policy => 2 | .noMap => 3 | .shareFull => 4 | .windowLimit => 5 | .classChange => 6
  | .notFound => 7 | .busy => 8 | .tableFull => 9 | .writeFail => 10

/-- Completion code of a result (R100, R475). -/
def RegRes.code : RegRes → CC
  | .ok => .ok | .writeFail => .aborted | _ => .stateRefused

/-- A write to one of the tables (R89, R92). -/
inductive TblWrite where
  | entry (index : Nat) (r : Option Region)
  | dir (gib : Nat) (w : Word)
  | map (slot : Nat) (w : Word)
  deriving DecidableEq, Repr

/-- A valid region by its index. -/
def Hw.region (h : Hw) (i : Nat) : Option Region := h.regions.table.get none i

/-- The cached entry of an index updated or dropped in the same step as its table entry (R93, R101). -/
def Hw.rtcWrite (h : Hw) (i : Nat) (r : Option Region) : Hw :=
  { h with gate := { h.gate with rtc := h.gate.rtc.filterMap fun p => if p.1 = i then r.map fun r => (i, r) else some p } }

/-- Windows of a region that a change of its entry leaves: they take its state and the permissions of their share; those
of a share that is gone leave (R101). -/
def Hw.windowsFollow (h : Hw) (i : Nat) (r : Option Region) : Hw :=
  let follow := fun (w : Window) =>
      if w.region ≠ i then some w
      else match r with
        | none => none
        | some r => (r.shares.find? fun s => s.2.1 == w.slice).map fun s => ({ w with state := r.state, perm := s.2.2 } : Window)
  { h with gate := { h.gate with windows := h.gate.windows.filterMap follow } }

/-- Block address of a table write. -/
def Hw.tableAddr (h : Hw) (w : TblWrite) : Nat :=
  match w with
  | .entry i _ => h.base52 Reg.REGION_TABLE_BASE_LO Reg.REGION_TABLE_BASE_HI + 64 * i
  | .dir g _ => h.base52 Reg.REGION_DIR_BASE_LO Reg.REGION_DIR_BASE_HI + 4 * g
  | .map k _ => h.base52 Reg.REGION_MAP_BASE_LO Reg.REGION_MAP_BASE_HI + 4 * k

/-- Table of BTT_FAULT_INFO that a write goes to (R294). -/
def TblWrite.table : TblWrite → Nat
  | .map .. => 2
  | _ => 1

/-- Bytes of a table write. An entry that is no longer valid keeps its other fields, under a CRC that matches (R89). DEDUCED (log
entry 57). -/
def Hw.tableBytes (h : Hw) (w : TblWrite) : List Byte :=
  match w with
  | .entry _ (some r) => lineBytes r.line
  | .entry i none => (match h.region i with
    | some r => lineBytes (BitVec.ofNat 512 (r.low - 1 + crc32c (r.low - 1) 480 * 2 ^ 480))
    | none => List.replicate 64 0)
  | .dir _ v => leBytes v.toNat 4
  | .map _ v => leBytes v.toNat 4

/-- Transfers still to be presented in a region are judged again: its entry has changed (R101). -/
def Hw.dropGrants (h : Hw) (i : Nat) : Hw :=
  let keep := fun (o : QOp) => { o with grants := o.grants.filter fun x => match x.2.2.2 with | some w => w.region != i | none => true }
  { h with cfe.queues := h.cfe.queues.map fun q => (q.1, { q.2 with run := q.2.run.map fun b => { b with ops := b.ops.map keep } }) }

/-- One table write carried out (R89, R92, R93, R101). -/
def Hw.tableWrite (h : Hw) (w : TblWrite) : Hw :=
  match w with
  | .entry i r => ((({ h with regions := { h.regions with table := h.regions.table.put none i r } } : Hw).rtcWrite i r).windowsFollow i r).dropGrants i
  | .dir g v => { h with regions := { h.regions with dir := h.regions.dir.put 0 g v } }
  | .map k v => { h with regions := { h.regions with maps := h.regions.maps.put 0 k v } }

/-- One attempt at a table write: it is translated and leaves, and it fails where it faults in translation or completes with an error
flag, `err` (R62, R294, R475). -/
def Hw.tryWrite (h : Hw) (w : TblWrite) (err : Bool) (walk : BttWalk) : Hw × Bool :=
  let a := h.tableAddr w
  match h.bttCheck none a true walk with
  | (h, some kind) => (h.bttFault none w.table kind a, false)
  | (h, none) =>
    let h := h.emit (.dmWrite h.dmId (match h.bttCached (pageNo a) with | some e => physOf e a | none => 0) (h.tableBytes w))
    if err then (h.raise 200 (detailWord none none 0 0) 0 0 0, false) else (h.tableWrite w, true)

/-- The writes of a sub-operation in their order, each made once more where it fails: false as the last part when one has failed
twice (R475). `errs` are the attempts, counted from 0, that complete with an error flag. -/
def Hw.tableWrites (h : Hw) (ws : List TblWrite) (walk : BttWalk) (errs : List Nat) : Hw × Nat × Bool :=
  ws.foldl (fun acc w =>
    match acc with
    | (h, k, false) => (h, k, false)
    | (h, k, true) =>
      match h.tryWrite w (decide (k ∈ errs)) walk with
      | (h, true) => (h, k + 1, true)
      | (h, false) =>
        let (h, ok) := h.tryWrite w (decide (k + 1 ∈ errs)) walk
        (h, k + 2, ok)) (h, 0, true)

/-- The REGION_OP of a queue that may be executed now: it has been issued and not started, and it is the earliest issued of all
(R476). -/
def Hw.regionTurn (h : Hw) (n i subop : Nat) : Option QOp :=
  match h.issuedOp n i 0x0E with
  | none => none
  | some o =>
    if o.field 4 0 4 ≠ subop then none
    else if h.regions.running.isSome then none
    else if (h.cfe.queues.any fun q => match q.2.run with
      | some b => b.ops.any fun x => x.opcode == 0x0E && x.st == .issued && decide (x.seq < o.seq) && h.admin q.1
      | none => false) then none
    else some o

/-- The completion of a REGION_OP that has been executed: LAST_OP, the negative entries and the age of negative results
(R97, R102, R282, R475). -/
def Hw.regionEnd (h : Hw) (n i subop index : Nat) (res : RegRes) : Hw :=
  let h := if res = .writeFail then { h.rtcWrite index none with
      gate := { (h.rtcWrite index none).gate with windows := h.gate.windows.filter fun w => w.region != index } } else h
  let h := { h with regions := { h.regions with running := none } }
  let h := (h.setReg Reg.REGION_LAST_OP (BitVec.ofNat 32 (subop + 16 * res.num + 65536 * index))).setIrq 0x05 0
  match h.op n i with
  | some o => if o.opcode = 0x0E ∧ o.started = true then
      h.opComplete n i res.code res.num false (if subop = 0 ∧ res = .ok then BitVec.ofNat 32 index else 0)
    else h.negativesClear
  | none => h.negativesClear

/-- A REGION_OP begins: PRIV from a queue without admin (R283), else the operation is executing. -/
def Hw.regionStart (h : Hw) (n i subop : Nat) (f : Hw → QOp → Hw) : Hw :=
  match h.issuedOp n i 0x0E with
  | none => h
  | some o =>
    if o.field 4 0 4 ≠ subop then h
    else if !h.admin n then h.opEnd n i .stateRefused .priv
    else match h.regionTurn n i subop with
      | none => h
      | some o => f (h.modOp n i fun o => { o with started := true }) o

/-- The class map permits a class from a granule on, up to an end (R18, R20): each step moves past one entry that permits it. -/
def mapPermits (p : Policy) (c : RClass) : Nat → Nat → Nat → Bool
  | 0, at_, end_ => decide (end_ ≤ at_)
  | fuel + 1, at_, end_ =>
    if end_ ≤ at_ then true
    else match p.classMap.find? fun e => decide (e.base ≤ at_ ∧ at_ < e.base + e.size) && (match c with
        | .sealed => e.maySeal
        | .blind => e.mayBlind
        | .link => e.mayLink && (match e.path with
          | some ids => ids.all fun x => decide (x ∈ p.switches) || decide (x ∈ p.trays)
          | none => false)) with
      | some e => mapPermits p c fuel (e.base + e.size) end_
      | none => false

/-- The checks of R20, and of R372 for a SEAL region: its family has an open key and is not retired. -/
def Hw.createAllowed (h : Hw) (c : RClass) (base size : Nat) (lqFull lanes2 : Bool) (family : Nat) : Bool :=
  match h.dom.policy with
  | none => false
  | some p =>
    h.joined && mapPermits p c p.classMap.length base (base + size) &&
      (match c with
        | .sealed => (lqFull || p.noneLq) && (h.familySlot family).isSome && !h.familyRetired family
        | .blind => !lanes2 || decide (p.laneFloor ≤ 2)
        | .link => true)

/-- The map taken for a GiB, whether or not its directory entry names it yet (R92, R476). -/
def Hw.mapOf (h : Hw) (gib : Nat) : Option Nat := (h.regions.owner.find? fun p => p.2 == gib + 1).map (·.1)

/-- Maps that have been taken (R92). -/
def Hw.mapsUsed (h : Hw) : List Nat := h.regions.owner.map (·.1)

/-- The lowest free maps of the pool, `n` of them (R92). -/
def Hw.freeMaps (h : Hw) (n : Nat) : Option (List Nat) :=
  let ms := (List.range h.mapCount).filter fun m => !decide (m ∈ h.mapsUsed)
  if n ≤ ms.length then some (ms.take n) else none

/-- The GiBs that a range of granules touches, ascending. -/
def gibsOf (base size : Nat) : List Nat := (List.range ((base + size - 1) / 512 + 1 - base / 512)).map (· + base / 512)

/-- A range covers a whole GiB. -/
def coversGib (base size gib : Nat) : Bool := decide (base ≤ 512 * gib) && decide (512 * gib + 512 ≤ base + size)

/-- Granules of a range within a GiB. -/
def inGib (base size gib : Nat) : List Nat :=
  (List.range 512).map (· + 512 * gib) |>.filter fun g => inRange g base size

/-- The directory and map entries of a new region; `maps` are the free maps for the GiBs that need one, in order (R92). The entries of a
map that is newly taken and are not written are 0. DESIGN CHOICE (log entry 58). -/
def Hw.placeWrites (h : Hw) (index base size : Nat) : List Nat → List Nat → List TblWrite
  | [], _ => []
  | gib :: rest, maps =>
    if coversGib base size gib then .dir gib (dirWhole index) :: h.placeWrites index base size rest maps
    else
      let own := h.mapOf gib
      let m := own.getD (maps.headD 0)
      let named := h.regions.dir.get 0 gib == dirMapped m
      ((inGib base size gib).map fun g => TblWrite.map (512 * m + g % 512) (mapEntry index)) ++
        (if named then [] else [.dir gib (dirMapped m)]) ++ h.placeWrites index base size rest (if own.isSome then maps else maps.drop 1)

/-- GiBs of a range that need a map taken for them. -/
def Hw.mapGibs (h : Hw) (base size : Nat) : List Nat :=
  (gibsOf base size).filter fun gib => !coversGib base size gib && (h.mapOf gib).isNone

/-- GiBs of a range that need a map of their own. -/
def Hw.mapsNeeded (h : Hw) (base size : Nat) : Nat := (h.mapGibs base size).length

/-- Maps taken for GiBs, in order (R92). -/
def Hw.takeMaps (h : Hw) (gibs maps : List Nat) : Hw :=
  (gibs.zip maps).foldl (fun h p => { h with regions := { h.regions with owner := h.regions.owner.put 0 p.2 (p.1 + 1) } }) h

/-- Maps of a range that hold no valid entry given back (R92). -/
def Hw.freeEmptyMaps (h : Hw) (base size : Nat) : Hw :=
  (gibsOf base size).foldl (fun h gib =>
    match h.mapOf gib with
    | some m =>
      if (List.range 512).any fun k => bit (h.regions.maps.get 0 (512 * m + k)) 16 then h
      else { h with regions := { h.regions with owner := h.regions.owner.put 0 m 0 } }
    | none => h) h

/-- The directory and map entries of a region cleared, and the directory entry of a map left empty (R92, R476). -/
def Hw.clearWrites (h : Hw) (index base size : Nat) : List TblWrite :=
  (gibsOf base size).flatMap fun gib =>
    let w := h.regions.dir.get 0 gib
    if fld w 0 2 = 1 then (if fld w 2 16 = index then [.dir gib 0] else [])
    else match h.mapOf gib with
      | none => []
      | some m =>
        let mine := (inGib base size gib).filter fun g => h.regions.maps.get 0 (512 * m + g % 512) == mapEntry index
        let others := (List.range 512).any fun k => bit (h.regions.maps.get 0 (512 * m + k)) 16 && !decide ((512 * gib + k) ∈ mine)
        (mine.map fun g => TblWrite.map (512 * m + g % 512) 0) ++ (if others || w == 0 then [] else [.dir gib 0])

/-- Granule entries of a new SEAL region that this member homes (R473). -/
def Hw.gktCreate (h : Hw) (base size family : Nat) : Hw :=
  (h.homedIn base size).foldl (fun h g => h.setPart g ⟨family, 0, false, 0, h.memberId⟩)
    (h.gktDrop fun p => inRange p.1 base size)

/-- Why a CREATE is refused, the first that applies (R100); none when it is not. -/
def Hw.createRefusal (h : Hw) (o : QOp) (c : RClass) : Option RegRes :=
  let base := o.field 8 0 25
  let size := o.field 12 0 26
  let live := h.regions.table.filterMap (·.2)
  if 65536 ≤ h.regions.table.length then some .tableFull
  else if (live.any fun r => r.base == base && r.size == size && r.cls != c) then some .classChange
  else if (live.any fun r => decide (r.base < base + size) && decide (base < r.base + r.size)) then some .overlap
  else if !h.createAllowed c base size (o.field 5 2 1 == 1) (o.field 5 3 1 == 1) (o.field 20 0 16) then some .policy
  else if (h.freeMaps (h.mapsNeeded base size)).isNone then some .noMap
  else if o.field 24 0 4 ≠ 0 ∧ 256 ≤ h.sliceShares (o.field 22 0 10) then some .windowLimit
  else none

/-- The lowest index that names no valid region. -/
def Hw.freeIndex (h : Hw) : Nat := ((List.range 65536).find? fun i => (h.region i).isNone).getD 0

/-- CREATE (R16, R20, R97, R100, R282, R473). -/
def Hw.regionCreate (h : Hw) (n i : Nat) (walk : BttWalk) (errs : List Nat) : Hw :=
  h.regionStart n i 0 fun h o =>
    match RClass.ofNum (o.field 5 0 2) with
    | none => h
    | some c =>
      match h.createRefusal o c with
      | some res => h.regionEnd n i 0 0 res
      | none =>
        let base := o.field 8 0 25
        let size := o.field 12 0 26
        let index := h.freeIndex
        let perm := o.field 24 0 4
        let r : Region :=
          { cls := c, state := .creating, lqFull := o.field 5 2 1 == 1, lanes2 := o.field 5 3 1 == 1, probeOk := o.field 5 4 1 == 1
            gen := h.regions.gens.get 0 index % 65536, base := base, size := size
            fill := if o.field 5 5 1 = 1 then h.policyFill else BitVec.ofNat 32 (o.field 16 0 32)
            family := o.field 20 0 16, shares := if perm = 0 then [] else [(0, o.field 22 0 10, BitVec.ofNat 4 perm)] }
        let maps := (h.freeMaps (h.mapsNeeded base size)).getD []
        let ws := .entry index (some r) :: h.placeWrites index base size (gibsOf base size) maps ++ [.entry index (some { r with state := .active })]
        let (h', _, done) := (h.takeMaps (h.mapGibs base size) maps).tableWrites ws walk errs
        let h' := if (h'.region index).isSome then
            { h' with regions := { h'.regions with gens := h'.regions.gens.put 0 index (h'.regions.gens.get 0 index + 1) } } else h'
        if done then ((if c = .sealed then h'.gktCreate base size r.family else h').regionEnd n i 0 index .ok)
        else (h'.freeEmptyMaps base size).regionEnd n i 0 index .writeFail

/-- Requests granted under a region and still to be answered: all of them, or those of one slice (R101). -/
def Hw.regionOpen (h : Hw) (index : Nat) (r : Region) (slice : Option Nat) : List Nat :=
  (h.txns.filter fun t => t.cls.isSome && t.region == index && t.gen == r.gen && t.src != .pump && t.stage != .window &&
    (match slice with | some s => t.slice == s | none => true)).map (·.id)

/-- A collective still works in a region (R101). -/
def Hw.regionCollective (h : Hw) (r : Region) (slice : Option Nat) : Bool :=
  h.bru.ctxs.any fun c => (c.granules.any fun g => inRange g.1 r.base r.size) && (match slice with | some s => c.slice == s | none => true)

/-- The REGION_OP that waits has nothing left to wait for (R101, R473). -/
def Hw.regionReady (h : Hw) (w : RegionOpRun) : Bool :=
  (w.waits.all fun id => match h.txn id with | some t => t.stage == .window | none => true) &&
  (match h.region w.index with
    | some r =>
      let slice := if w.subop = 3 then (match h.op w.queue w.op with | some o => some (o.field 22 0 10) | none => none) else none
      !h.regionCollective r slice &&
      !(w.subop == 1 && (match h.pump.wet with | some x => inRange x.granule r.base r.size | none => false))
    | none => true)

/-- The REGION_OP of a queue that waits (R101). -/
def Hw.regionWaiting (h : Hw) (n i subop : Nat) : Option RegionOpRun :=
  match h.regions.running with
  | some w => if w.queue = n ∧ w.op = i ∧ w.subop = subop then some w else none
  | none => none

/-- A region named by a sub-operation other than CREATE; a BUSY one is named by DESTROY alone (R100). -/
def Hw.namedRegion (h : Hw) (index : Nat) (destroy : Bool) : Except RegRes Region :=
  match h.region index with
  | none => .error .notFound
  | some r => if r.state ≠ .active ∧ destroy = false then .error .busy else .ok r

/-- A sub-operation waits for the requests granted before its change (R101). -/
def Hw.regionWait (h : Hw) (n i subop index : Nat) (waits : List Nat) : Hw :=
  { h with regions := { h.regions with running := some ⟨n, i, subop, index, waits⟩ } }

/-- The pumping of a region is aborted: its QUEUED and WET granules are parked, its OPENING granules leave their rounds, and its
ranges are finished (R473 steps 1, 3 and 4). The pstate of a granule that leaves its round is PARKED. DESIGN CHOICE (log entry 62). -/
def Hw.abortPumping (h : Hw) (r : Region) : Hw :=
  let mine := fun (g : Nat) => inRange g r.base r.size
  let h := h.abortGranules mine
  let rounds := h.gkt.rounds.filter fun o => o.granules.any mine
  let h := { h with
    gkt := { h.gkt with rounds := h.gkt.rounds.filter fun o => !(o.granules.any mine) }
    pump := { h.pump with ranges := h.pump.ranges.map fun (x : PumpRange) =>
      if (x.granules.any fun g => mine g && h.granuleState g == 1) then { x with aborted := true } else x } }
  let h := (rounds.flatMap (·.granules)).foldl (fun h g => if h.granuleState g = 1 then h.setPstate g 5 else h) h
  let h := rounds.foldl (fun h o => match o.cmd with | some (n, i) => h.opUnitEnd n i .aborted 0 | none => h) h
  h.wetStop.settleRanges

/-- A SEAL region of a family stands on this member beside the one at an index. -/
def Hw.familyElsewhere (h : Hw) (f index : Nat) : Bool :=
  h.regions.table.any fun p => p.1 != index && (match p.2 with | some r => r.cls == .sealed && r.family == f | none => false)

/-- The end of a DESTROY: granule entries, directory and maps, the entry, and a family left without a region (R372, R473). -/
def Hw.destroyFinish (h : Hw) (n i index : Nat) (walk : BttWalk) (errs : List Nat) : Hw :=
  match h.region index with
  | none => h.regionEnd n i 1 index .ok
  | some r =>
    let h := if r.cls = .sealed then
        (h.homedIn r.base r.size).foldl (fun h g => h.clearPart g) (h.gktDrop fun p => inRange p.1 r.base r.size) else h
    let (h, _, done) := h.tableWrites (h.clearWrites index r.base r.size ++ [.entry index none]) walk errs
    let h := h.freeEmptyMaps r.base r.size
    if !done then h.regionEnd n i 1 index .writeFail
    else
      let last := r.cls = .sealed ∧ h.familyElsewhere r.family index = false
      let h := if last then
          ({ h.eraseFamily r.family with cis := { (h.eraseFamily r.family).cis with retired := r.family :: h.cis.retired.filter (· ≠ r.family) } } : Hw).keysChanged
        else h
      h.regionEnd n i 1 index .ok

/-- DESTROY: the first application sets DESTROYING and stops the pumping; the operation ends once every earlier request is
answered (R100, R101, R473). -/
def Hw.regionDestroy (h : Hw) (n i : Nat) (walk : BttWalk) (errs : List Nat) : Hw :=
  match h.regionWaiting n i 1 with
  | some w => if h.regionReady w then h.destroyFinish n i w.index walk errs else h
  | none =>
    h.regionStart n i 1 fun h o =>
      let index := o.field 6 0 16
      match h.namedRegion index true with
      | .error res => h.regionEnd n i 1 index res
      | .ok r =>
        let (h, _, done) := h.tableWrites [.entry index (some { r with state := .destroying })] walk errs
        if !done then h.regionEnd n i 1 index .writeFail
        else
          let h := h.regionWait n i 1 index (h.regionOpen index r none)
          if r.cls = .sealed then h.abortPumping r else h

/-- Shares with the share of a slice added at the lowest free position, or replaced; none when all are in use (R89). -/
def withShare (shares : List (Nat × Nat × BitVec 4)) (slice : Nat) (perm : BitVec 4) : Option (List (Nat × Nat × BitVec 4)) :=
  if (shares.any fun s => s.2.1 == slice) then some (shares.map fun s => if s.2.1 = slice then (s.1, slice, perm) else s)
  else match (List.range 8).find? fun k => !(shares.any fun s => s.1 == k) with
    | some k => some ((shares.filter fun s => decide (s.1 < k)) ++ [(k, slice, perm)] ++ (shares.filter fun s => decide (k < s.1)))
    | none => none

/-- SHARE (R99, R100). -/
def Hw.regionShare (h : Hw) (n i : Nat) (walk : BttWalk) (errs : List Nat) : Hw :=
  h.regionStart n i 2 fun h o =>
    let index := o.field 6 0 16
    let s := o.field 22 0 10
    match h.namedRegion index false with
    | .error res => h.regionEnd n i 2 index res
    | .ok r =>
      match withShare r.shares s (BitVec.ofNat 4 (o.field 24 0 4)) with
      | none => h.regionEnd n i 2 index .shareFull
      | some shares =>
        if !(r.shares.any fun x => x.2.1 == s) && decide (256 ≤ h.sliceShares s) then h.regionEnd n i 2 index .windowLimit
        else
          let (h, _, done) := h.tableWrites [.entry index (some { r with shares := shares })] walk errs
          h.regionEnd n i 2 index (if done then .ok else .writeFail)

/-- UNSHARE: the share is removed at once, and the operation ends once the slice's earlier requests are answered (R100, R101). -/
def Hw.regionUnshare (h : Hw) (n i : Nat) (walk : BttWalk) (errs : List Nat) : Hw :=
  match h.regionWaiting n i 3 with
  | some w => if h.regionReady w then h.regionEnd n i 3 w.index .ok else h
  | none =>
    h.regionStart n i 3 fun h o =>
      let index := o.field 6 0 16
      let s := o.field 22 0 10
      match h.namedRegion index false with
      | .error res => h.regionEnd n i 3 index res
      | .ok r =>
        if !(r.shares.any fun x => x.2.1 == s) then h.regionEnd n i 3 index .ok
        else
          let (h, _, done) := h.tableWrites [.entry index (some { r with shares := r.shares.filter fun x => x.2.1 != s })] walk errs
          if !done then h.regionEnd n i 3 index .writeFail
          else h.regionWait n i 3 index (h.regionOpen index r (some s))

/-- SET_FILL: the pattern is replaced at once, and the operation ends once the earlier requests are answered (R100, R101). -/
def Hw.regionSetFill (h : Hw) (n i : Nat) (walk : BttWalk) (errs : List Nat) : Hw :=
  match h.regionWaiting n i 4 with
  | some w => if h.regionReady w then h.regionEnd n i 4 w.index .ok else h
  | none =>
    h.regionStart n i 4 fun h o =>
      let index := o.field 6 0 16
      match h.namedRegion index false with
      | .error res => h.regionEnd n i 4 index res
      | .ok r =>
        let (h, _, done) := h.tableWrites [.entry index (some { r with fill := BitVec.ofNat 32 (o.field 16 0 32) })] walk errs
        if !done then h.regionEnd n i 4 index .writeFail
        else h.regionWait n i 4 index (h.regionOpen index r none)

end Sys2Proof.Machine
end

