-- ==== Sys2Proof/Machine/Fault.lean ====
section
/-! DEFINITION. The Fault Control Unit, injection, the hang detector and the domain resets (R409 to R431, R474). -/

namespace Sys2Proof.Machine

/-- Reset domain of a fault source; none for the sources whose domain is a queue (R409). -/
def domainOf (s : Nat) : Option Domain :=
  if s ≤ 79 then Domain.ofNum (s % 16 / 2)
  else if s ≤ 87 then Domain.ofNum (s - 80)
  else if 96 ≤ s ∧ s ≤ 159 then Domain.ofNum (s % 16 / 2)
  else if s = 201 ∨ s = 206 ∨ s = 260 ∨ (264 ≤ s ∧ s ≤ 267) ∨ s = 284 ∨ s = 285 then some .scu
  else if (226 ≤ s ∧ s ≤ 228) ∨ s = 259 then some .pump
  else if (240 ≤ s ∧ s ≤ 244) ∨ s = 258 ∨ s = 280 ∨ s = 281 then some .bru
  else if s = 248 ∨ s = 257 then none
  else some .block

/-- The queue that a detail word names (R435). -/
def detailQueue (d : Word) : Option Nat := if bit d 17 then some (fld d 11 6) else none

/-- A domain is being reset. -/
def Hw.inReset (h : Hw) (d : Domain) : Bool := h.resets.any fun r => r.dom == d

/-- The checker named by injection stands in a domain (R419). -/
def Hw.injectIn (h : Hw) (d : Domain) : Bool :=
  let kind := fld h.inject.sel 0 4
  let unit := fld h.inject.sel 4 4
  d == .block ||
  match d with
  | .pair k => (kind == 1 || kind == 2 || kind == 3 || kind == 6 || kind == 7) && unit / 2 == k.val
  | .bru => kind == 8 || (kind == 4 && unit == 4) || (kind == 5 && unit == 2)
  | .scu => kind == 9 || (kind == 4 && unit == 6)
  | _ => false

/-- A reset disarms a checker that it covers (R419). -/
def Hw.disarm (h : Hw) (d : Domain) : Hw :=
  if 0 < h.inject.remaining ∧ h.injectIn d = true then
    ({ h with inject := { h.inject with remaining := 0, disarmed := true } } : Hw).setF Reg.INJECT_CTL 0 1 0
  else h

/-- What a block reset does to every queue at its FENCE phase: nothing more is issued, and every FENCE_SIGNAL signals its fence
(R427). -/
def Hw.fenceQueues (h : Hw) : Hw :=
  h.cfe.queues.foldl (fun h q =>
    if q.2.st = .off ∨ q.2.st = .halted then h
    else (h.setQueue q.1 { h.queue q.1 with st := .resetting, idleArmed := false }).abortBuffer q.1) h

/-- FENCE phase (R427): slot operations that need the domain end in error, a queue's signals are given, and a repair of the
pair is given up (R428). -/
def Hw.fenceDomain (h : Hw) (d : Domain) : Hw :=
  match d with
  | .block => h.fenceQueues
  | .pair k => [2 * k.val, 2 * k.val + 1].foldl (fun h n => if h.cluState n = 1 then h.cluGo n 1 0 else h) h
  | _ => h

/-- A reset of a domain other than a queue is requested (R427, R428): by a fault source, or through CMD. The Bool says that a
reset was started. -/
def Hw.startReset (h : Hw) (d : Domain) (source : Option Nat) : Hw × Bool :=
  if h.inReset d || h.inReset Domain.block then (h, false)
  else
    let idle := h.pow.rung == .u0 && h.pow.moving == none
    let run : ResetRun := { dom := d, phase := if idle then .drain else .fence, start := h.clk.now, source := source }
    let h := { h with resets := run :: (if d = Domain.block then [] else h.resets) }
    let h := h.fenceDomain d
    (if h.pow.rung = .u1 ∨ h.pow.rung = .u2 ∨ h.pow.rung = .u3 ∨ h.entering then
        (let h := h.wake (if source.isNone then 5 else 0) 0
         if h.pow.moving = none then h.rungNext else h)
      else h, true)

/-- The reset reaction of a raise (R412, R414, R474): one of QUEUE_GUILTY and HANG_CYCLE joins the reset that its queue has begun. -/
def Hw.resetReaction (h : Hw) (r : Raise) : Hw × Bool :=
  if r.source = 248 ∨ r.source = 249 ∨ r.source = 257 then
    match detailQueue r.detail with
    | some n =>
      let q := (h.queue n).st
      if r.source ≠ 249 ∨ q = .resetting ∨ q = .halted ∨ q = .off then (h, false)
      else
        let i := match (h.queue n).run with | some b => (b.ops.findIdx? fun o => !o.ended).getD 0 | none => 0
        (h.makeGuilty n .fault i, true)
    | none => if r.source = 249 then h.startReset .block (some 249) else (h, false)
  else match domainOf r.source with
    | some d => h.startReset d (some r.source)
    | none => (h, false)

/-- The history entry of a raise (R418). -/
def Hw.histEntry (h : Hw) (r : Raise) (cls : Nat) (reset : Bool) : HistEntry :=
  { w0 := BitVec.ofNat 32 (r.source + 512 * cls + 4096 * b2n r.injected + 8192 * b2n reset), w1 := r.detail
    w2 := BitVec.ofNat 32 (h.clk.now % 2 ^ 32), w3 := BitVec.ofNat 32 (h.clk.now / 2 ^ 32) }

/-- An entry queued, or counted as lost (R418). -/
def Hw.histPut (h : Hw) (e : HistEntry) : Hw :=
  if h.fcu.hist.length < 16 then { h with fcu := { h.fcu with hist := h.fcu.hist ++ [e] } }
  else ({ h with fcu := { h.fcu with lost := min (h.fcu.lost + 1) 255 } } : Hw).setIrq 0x1A 0

/-- CHIP_RST_REQ goes to 1 (R80). -/
def Hw.chipReset (h : Hw) : Hw :=
  if h.fcu.chipRst then h else ({ h with fcu := { h.fcu with chipRst := true } } : Hw).emit .chipReset

/-- An uncorrectable error of the Well's SRAM loses the record that holds it, wherever it lies: a free index (R409, R441). -/
def Hw.wellDamage (h : Hw) (r : Raise) : Hw :=
  if r.source = 287 then ({ h with well := { h.well with bad := (h.freeVal 13).toNat :: h.well.bad } } : Hw).tookFree else h

/-- The FCU takes a raise: every reaction, its count, its history entry and its record (R412 to R418). -/
def Hw.takeRaise (h : Hw) (r : Raise) : Hw :=
  if !sourceExists r.source then h
  else
    let cls := h.classOf r.source
    let mask := h.reactOf cls
    let fresh := !h.pending r.source
    let was := decide (0 < h.errHolders)
    let chip := bit mask 3 && !h.fcu.chipRst
    let h := { h with fcu := { h.fcu with counts := h.fcu.counts.put 0 r.source (min (h.fcu.counts.get 0 r.source + 1) 0xFFFF) } }
    let h := h.setF (Reg.FAULT_PEND (r.source / 32)) (r.source % 32) 1 1
    let h := if h.regBit Reg.FAULT_FIRST 31 then h else h.setReg Reg.FAULT_FIRST (BitVec.ofNat 32 (r.source + 2 ^ 31))
    let h := if bit mask 0 then h.icuAssert r.source else h
    let h := if bit mask 1 then h.icuTrap r.source else h
    let h := if chip then h.chipReset else h
    let h := (h.errUpdate was).wellFault r cls fresh chip
    let (h', reset) := if bit mask 2 then h.resetReaction r else (h, false)
    if fresh then h'.histPut (h.histEntry r cls reset) else h'

/-- A raise as a checker reports it: a memory ECC check that injection inverted is flagged (R419). -/
def Hw.memInject (h : Hw) (r : Raise) : Hw × Raise :=
  if 272 ≤ r.source ∧ r.source ≤ 287 then
    if h.injectHits 4 (some ((r.source - 272) / 2)) (some (r.source % 2)) none then (h.injectUse, { r with injected := true }) else (h, r)
  else (h, r)

/-- The raise that reaches the FCU next: of those detected first, the one of the smallest source (R414). -/
def Fcu.first (f : Fcu) : Option (Nat × Raise) :=
  match f.inflight with
  | [] => none
  | r :: rest => some ((rest.takeWhile fun x => x.1 == r.1).foldl (fun a b => if b.2.source < a.2.source then b else a) r)

/-- FAULT_RAISE: the raise detected first reaches the FCU, or a checker of the block reports one of its own (R413, R414): MEM_UE of a
cache is never one (R409). DEDUCED (log entry 4). -/
def Hw.faultRaise (h : Hw) (r : Option Raise) : Hw :=
  match r with
  | some r =>
    if r.source = 273 ∨ r.source = 275 ∨ r.source = 277 then h
    else
      let (h, r) := h.memInject r
      (h.takeRaise r).wellDamage r
  | none => match h.fcu.first with
    | some r => ({ h with fcu := { h.fcu with inflight := h.fcu.inflight.erase r } } : Hw).takeRaise r.2
    | none => h

/-- FAULT_CLEAR: a W1C write to FAULT.PENDn (R415, R417). -/
def Hw.faultClear (h : Hw) (n : Nat) (value : Word) : Hw :=
  if 12 ≤ n then h
  else
    let was := decide (0 < h.errHolders)
    (h.setReg (Reg.FAULT_PEND n) (h.reg (Reg.FAULT_PEND n) &&& ~~~value)).errUpdate was

/-- HIST_POP: a write to FAULT.HIST_POP (R418). -/
def Hw.histPop (h : Hw) (value : Word) : Hw :=
  if bit value 0 then { h with fcu := { h.fcu with hist := h.fcu.hist.drop 1 } } else h

/-- CLEAR_ALL: a write to FAULT.CLEAR_ALL (R415). -/
def Hw.faultClearAll (h : Hw) (value : Word) : Hw :=
  if bit value 0 then
    let was := decide (0 < h.errHolders)
    let h := (List.range 12).foldl (fun h n => h.setReg (Reg.FAULT_PEND n) 0) h
    (({ h with fcu := { h.fcu with counts := [] } } : Hw).setReg Reg.FAULT_FIRST 0).errUpdate was
  else h

/-- A write of SEVTAB changes the level of ERR_OUT for what is pending (R416). -/
def Hw.sevtabWrite (h : Hw) (addr : Nat) (value : Word) : Hw :=
  let was := decide (0 < h.errHolders)
  (h.setReg addr value).errUpdate was

/-- INJECT.SEL names no checker, or a used field is out of range (R419). -/
def badSelect (sel : Word) : Bool :=
  let unit := fld sel 4 4
  let sub := fld sel 8 8
  let stage := fld sel 16 4
  match fld sel 0 4 with
  | 1 => decide (29 < sub) || decide (13 < stage)
  | 2 => decide (29 < sub) || decide (14 < stage)
  | 3 => decide (3 < sub)
  | 4 => decide (7 < unit) || decide (1 < sub)
  | 5 => decide (3 < unit)
  | 6 | 7 | 8 => false
  | 9 => decide (1 < sub)
  | _ => true

/-- A write to the INJECT page through the Register Port is ignored while the block is joined (R421). -/
def Hw.injectWrite (h : Hw) (mgmt : Bool) (f : Hw → Hw) : Hw :=
  if h.joined && !mgmt then h.pageFault 0x22 .denied else f h

/-- A write of INJECT.SEL (R419). -/
def Hw.injectSel (h : Hw) (value : Word) : Hw :=
    let h := h.setReg Reg.INJECT_SEL (value &&& 0xFFFFF)
    if badSelect (value &&& 0xFFFFF) then h.pageFault 0x22 .badSelect else h

/-- INJECT_ARM: a write of INJECT.CTL (R419). -/
def Hw.injectCtl (h : Hw) (value : Word) : Hw :=
    let h := h.setF Reg.INJECT_CTL 8 8 (fld value 8 8)
    if bit value 0 then
      if badSelect (h.reg Reg.INJECT_SEL) then h
      else
        ({ h with inject := { h.inject with sel := h.reg Reg.INJECT_SEL, remaining := max (fld value 8 8) 1, disarmed := false } } : Hw).setF Reg.INJECT_CTL 0 1 1
    else ({ h with inject := { h.inject with remaining := 0 } } : Hw).setF Reg.INJECT_CTL 0 1 0

/-- INJECT_RAISE: a write of INJECT.RAISE (R420). -/
def Hw.injectRaise (h : Hw) (value : Word) : Hw :=
  if bit value 31 && sourceExists (fld value 0 9) then h.raiseWith ⟨fld value 0 9, 0, 0, 0, 0, true, []⟩
  else h

/-! ### The hang detector -/

/-- An issued FENCE_WAIT that is not satisfied: its queue, its index, and the operation (R422). -/
def Hw.waitsOf (h : Hw) (n : Nat) : List (Nat × QOp) :=
  match (h.queue n).run with
  | some b => (List.range b.ops.length).filterMap fun i => match b.ops[i]? with
    | some o => if o.opcode = 9 ∧ o.st = .issued ∧ o.started = true then some (i, o) else none
    | none => none
  | none => []

/-- Operations of a buffer that its issued waits hold: those that wait for one under after or barrier, and those behind one that
is held (R422). `waits` are the indices of the waits. -/
def heldFrom (b : Buf) (waits : List Nat) : List Nat :=
  let first := (List.range b.ops.length).find? fun i => match b.ops[i]? with
    | some o => o.st == .waiting && (o.deps i).any fun d => decide (d ∈ waits)
    | none => false
  match first with
  | some k => (List.range b.ops.length).filter fun i => decide (k ≤ i) && (match b.ops[i]? with | some o => o.st == .waiting | none => false)
  | none => []

/-- Fences owed by a queue: of each held FENCE_SIGNAL, its fence and its place, as the ring count of its buffer and its index (R422). -/
def Hw.owedBy (h : Hw) (n : Nat) : List (Nat × Nat × Nat) :=
  let waits := (h.waitsOf n).map (·.1)
  if waits = [] then []
  else
    let of := fun (b : Buf) (is : List Nat) => is.filterMap fun i => match b.ops[i]? with
      | some o => if o.opcode = 8 ∧ o.field 16 0 1 = 0 then some (o.field 4 0 12, b.count, i) else none
      | none => none
    (match (h.queue n).run with | some b => of b (heldFrom b waits) | none => []) ++
    (match (h.queue n).pre with | some b => of b (List.range b.ops.length) | none => [])

/-- One step of a path: from a queue, through the fence that one of its waits names, to a queue that owes it. -/
structure HangStep where
  /-- Queue that waits. -/
  queue : Nat
  /-- Place in the order of issue of its wait. -/
  wait : Nat
  /-- Index of its wait. -/
  op : Nat
  /-- Fence. -/
  fence : Nat
  /-- Queue that owes the fence. -/
  next : Nat
  /-- Ring count and index of the signal. -/
  signal : Nat × Nat
  deriving DecidableEq, Repr

/-- Every step of the graph, of the queues that are not OFF (R422). -/
def Hw.hangSteps (h : Hw) : List HangStep :=
  let qs := h.cfe.queues.map (·.1)
  let owed := qs.map fun n => (n, h.owedBy n)
  qs.flatMap fun n => (h.waitsOf n).flatMap fun w =>
    let f := w.2.field 4 0 12
    owed.flatMap fun p => (p.2.filter fun o => o.1 == f).map fun o => ⟨n, w.2.seq, w.1, f, p.1, (o.2.1, o.2.2)⟩

/-- Edges of the graph: waits, and fences owed (R422). -/
def Hw.hangEdges (h : Hw) : Nat :=
  let qs := h.cfe.queues.map (·.1)
  (qs.flatMap fun n => (h.waitsOf n).map fun w => (n, w.2.field 4 0 12)).eraseDups.length +
    (qs.flatMap fun n => (h.owedBy n).map fun o => (n, o.1)).eraseDups.length

/-- Cycles that start at a queue and pass only through queues of greater number, no queue twice (R422). -/
def cyclesFrom (steps : List HangStep) (start : Nat) : Nat → Nat → List HangStep → List (List HangStep)
  | 0, _, _ => []
  | fuel + 1, at_, path =>
    (steps.filter fun s => s.queue == at_ && decide (start ≤ s.next)).flatMap fun s =>
      if s.next = start then [path ++ [s]]
      else if (path ++ [s]).any fun p => p.queue == s.next then []
      else cyclesFrom steps start fuel s.next (path ++ [s])

/-- Every cycle of the graph. -/
def Hw.hangCycles (h : Hw) : List (List HangStep) :=
  let steps := h.hangSteps
  (steps.map (·.queue)).eraseDups.flatMap fun q => cyclesFrom steps q 64 q []

/-- A cycle as the detector counts it. -/
def candidateOf (c : List HangStep) : List Nat × List Nat × List Nat × List (Nat × Nat) :=
  (c.map (·.queue), c.map (·.fence), c.map (·.wait), c.map (·.signal))

/-- A cycle in order from its guilty queue, the one whose wait was issued last (R423). -/
def fromGuilty (c : List HangStep) : List HangStep :=
  let last := c.foldl (fun m s => max m s.wait) 0
  let k := c.findIdx fun s => s.wait == last
  c.drop k ++ c.take k

/-- A number whose fields of `w` bits hold values, the first in the low bits. -/
def packed (w : Nat) (vs : List Nat) : Nat := vs.foldr (fun v acc => acc * 2 ^ w + v % 2 ^ w) 0

/-- A confirmed cycle is named: HANG_CYCLE is raised, the guilty wait completes TIMEOUT and its queue becomes guilty (R424). -/
def Hw.hangName (h : Hw) (c : List HangStep) : Hw :=
  match fromGuilty c with
  | [] => h
  | g :: rest =>
    let qs := rest.map (·.queue)
    let value := match h.op g.queue g.op with | some o => o.field 8 0 32 | none => 0
    let h := (h.incReg Reg.HANG_CYCLE_CNT).setReg Reg.HANG_LAST_CYCLE
      (BitVec.ofNat 32 (g.queue + 64 * c.length + 8192 * g.fence + 2 ^ 31))
    let h := h.raiseWith ⟨257, BitVec.ofNat 32 (detailWord (some (h.queueSlice g.queue)) (some g.queue) 0 0), BitVec.ofNat 32 (packed 6 (qs.take 5)),
      BitVec.ofNat 32 (packed 6 ((qs.drop 5).take 2) + 2 ^ 24 * c.length), BitVec.ofNat 32 value, false, g.fence :: rest.map (·.fence)⟩
    let result := BitVec.ofNat 32 (h.fence g.fence).value.toNat
    (h.opDone g.queue g.op .timeout 0 true result).makeGuilty g.queue .hang g.op

/-- A cycle's count after a pass (R423): its passes in a row, and the time of the third. -/
def Hw.hangCount (h : Hw) (c : List HangStep) : Candidate :=
  match h.hangs.find? fun x => (x.queues, x.fences, x.waits, x.signals) == candidateOf c with
  | some x => { x with passes := x.passes + 1, third := if x.passes = 2 then h.clk.now else x.third }
  | none => { queues := c.map (·.queue), fences := c.map (·.fence), waits := c.map (·.wait), signals := c.map (·.signal), passes := 1, third := h.clk.now }

/-- A cycle is confirmed: a pass beyond the third finds it, the grace after the third (R423). -/
def Hw.hangConfirmed (h : Hw) (x : Candidate) : Bool :=
  decide (3 < x.passes) && decide (x.third + 1000 * h.regF Reg.HANG_CTL 8 8 ≤ h.clk.now)

/-- HANG_PASS: one pass of the detector (R422 to R424). DEDUCED (log entry 34). -/
def Hw.hangPass (h : Hw) : Hw :=
  if !h.regBit Reg.HANG_CTL 0 then { h with hangs := [] }
  else
    let cycles := h.hangCycles
    let counted := cycles.map fun c => (c, h.hangCount c)
    let edges := h.hangEdges
    let named := counted.foldl (fun (acc : List Nat × List (List HangStep)) p =>
      if h.hangConfirmed p.2 then
        (match fromGuilty p.1 with
          | g :: _ => if g.queue ∈ acc.1 then acc else (g.queue :: acc.1, acc.2 ++ [p.1])
          | [] => acc)
      else acc) ([], [])
    let left := (counted.filter fun p => !decide (p.1 ∈ named.2)).map (·.2)
    let h := { h with hangs := left }
    let h := h.setReg Reg.HANG_STAT (BitVec.ofNat 32 (min edges 4095 + 65536 * min left.length 255))
    named.2.foldl (fun h c => h.hangName c) h

/-- A collective waits for nothing that another rule bounds: an answer (T_DEAD, T_GROUP) or a Device Memory Port (R62, R425). -/
def Hw.collOwnWork (h : Hw) (c : Ctx) : Bool :=
  c.first.msgs == [] && (match c.second with | some s => s.msgs == [] | none => true) && !h.opWriting c.queue c.op

/-- A unit of R425 holds work, beside what waits under a bound of its own: 0 BRU, 1 Pump, 2 SCU, 3 Shaper, 4 CFE fetcher. The Pump waits
for its transactions (T_DEAD) and for GKT_ACKs (PUMP.T_ACK). -/
def Hw.unitBusy (h : Hw) (u : Nat) : Bool :=
  match u with
  | 0 => h.bru.ctxs.any h.collOwnWork
  | 1 => h.pump.ranges != [] && h.gkt.rounds == [] && !h.txns.any fun t => t.src == .pump
  | 2 => h.scu.inbox != [] || h.scu.held != [] || h.regBit Reg.ATTEST_MBX_STAT 0 || h.scu.booting ||
      h.cfe.queues.any fun q => match q.2.run with
        | some b => b.ops.any fun o => o.outstanding && (o.opcode == 0x0D || o.opcode == 0x0C)
        | none => false
  | 3 => h.shaper.any fun r => (r.parts.all fun p => p.outs == []) && !h.opWriting r.queue r.op
  | 4 => h.cfe.queues.any fun q => q.2.st == .active && q.2.tail != q.2.fetch
  | _ => false

/-- UNIT_HANG: a unit holds work and has made no progress for HANG.UNIT_LIMIT (R425). -/
def Hw.unitHang (h : Hw) (u : Nat) : Hw :=
  if !h.unitBusy u then h
  else
    ((h.incReg Reg.HANG_UNIT_CNT).setReg Reg.HANG_LAST_UNIT (BitVec.ofNat 32 (u + 2 ^ 31))).raise (258 + u) (detailWord none none 0 0) 0 0 0

/-! ### Domain resets -/

/-- RESET_CMD: a write of RESET.CMD (R426 to R428). -/
def Hw.resetCmd (h : Hw) (value : Word) : Hw :=
  match Domain.ofNum (fld value 0 4) with
  | none => h.pageFault 0x1D .reservedWrite
  | some d => if bit value 31 then (h.startReset d none).1 else h

/-- The run of a domain in one of its phases. -/
def Hw.resetRun (h : Hw) (d : Domain) (p : ResetPhase → Bool) : Option ResetRun := h.resets.find? fun r => r.dom == d && p r.phase

/-- The phase of a domain's run. -/
def Hw.resetGo (h : Hw) (d : Domain) (p : ResetPhase) : Hw :=
  { h with resets := h.resets.map fun (r : ResetRun) => if r.dom = d then { r with phase := p } else r }

/-- An operation of the CFE whose transfer a domain drain squashed: it completes ABORTED, and a FENCE_SIGNAL signals its fence (R427). -/
def Hw.drainOp (h : Hw) (n i : Nat) : Hw :=
  match h.op n i with
  | none => h
  | some o =>
    if o.ended then h
    else
      let h := if o.opcode = 8 then h.signalOf n o (some .aborted) else h
      let h := o.txns.foldl (fun h id => h.closeTxn id) h
      h.opComplete n i .aborted 0 true 0

/-- Transactions that a domain has accepted and not yet answered (R427). -/
def Txn.inDomain (t : Txn) (d : Domain) : Bool :=
  t.stage != .ready && t.stage != .window &&
  match d with
  | .pair k => (match t.port with | some p => p.val / 2 == k.val | none => false)
  | .bru => t.cls == some .blind
  | .block => true
  | _ => false

/-- The squash at the end of a domain's drain (R427). -/
def Hw.drainSquash (h : Hw) (d : Domain) : Hw :=
  let ops := (h.txns.filter fun t => t.inDomain d).filterMap fun t => match t.src with | .cfe n i => some (n, i) | _ => none
  let slots := (h.txns.filter fun t => t.inDomain d).filterMap (·.slot)
  let (h, count) := h.squashPorts fun t => t.inDomain d
  let h := h.addReg Reg.SLICE_SQUASH_CNT count
  let h := if d = .bru ∨ d = .block then (h.collAbort fun _ => true).closingAbort fun _ => true else h
  let h := if d = .block then
      h.cfe.queues.foldl (fun h q => if q.2.st = .off then h else h.squashQueue q.1) h
    else ops.eraseDups.foldl (fun h p => h.drainOp p.1 p.2) h
  let h := h.squashSlots fun op id => d == .block || decide (id ∈ slots) || (d == .bru && decide (op ≤ 2))
  let left := (h.txns.filter fun t => t.inDomain d && (match t.src with | .utp _ => false | .pump => false | _ => true)).map (·.id)
  left.foldl (fun h id => h.closeTxn id) h

/-- RESET_DRAIN_END: the drain ends, what is still open is squashed, and the domain is about to be cleared (R427). -/
def Hw.resetDrainEnd (h : Hw) (d : Domain) : Hw :=
  match h.resetRun d fun p => p == .fence || p == .drain with
  | some _ => if h.pow.rung = .u0 then (h.drainSquash d).resetGo d .clear else h
  | none => h

/-- The reset generation advances (R188, R387). -/
def Hw.advanceGen (h : Hw) : Hw :=
  let g := h.reg Reg.SCU_RESET_GEN
  let h := h.setReg Reg.SCU_RESET_GEN (g + 1)
  { h with bulk := { seq := 0, stop := h.bulk.stop || (h.joined && fld g 0 16 == 0xFFFF) } }

/-- A join in progress fails with PROTOCOL when the SCU is reset (R428). -/
def Hw.joinDropped (h : Hw) : Hw :=
  match h.scu.join with
  | some _ => ({ h with scu := { h.scu with join := none } } : Hw).setF Reg.ATTEST_JOIN_STAT 0 4 8
  | none => h

/-- Phase of an update. -/
def Hw.updPhase (h : Hw) : Nat := h.regF Reg.SCU_UPD_STAT 0 2

/-- A phase of an update entered (R388). -/
def Hw.setPhase (h : Hw) (p : Nat) : Hw :=
  if h.updPhase = p then h else (h.setF Reg.SCU_UPD_STAT 0 2 p).setIrq 0x15 0

/-- The SCU stops and will boot from ROM (R385, R426): a join fails, an update that is switching or on probation is lost (R428). -/
def Hw.scuDown (h : Hw) : Hw :=
  let h := h.joinDropped
  let h := if 2 ≤ h.updPhase then (h.setF Reg.SCU_UPD_STAT 4 3 2).setPhase 0 else h
  h.scuLost

/-- The Pump's granules parked with no fence signalled, as a warm reset does (R429, R430). -/
def Hw.pumpParked (h : Hw) : Hw :=
  let parked := (h.gkt.part.filter fun p => gktUsable p.2 && (gktDecode p.2).moving).map (·.1)
  let h := parked.foldl (fun h g => h.setPstate g 5) h
  { h with
    gkt := { h.gkt with rounds := [] }
    pump := { h.pump with ranges := [], wet := none, aborting := [], budget := 0, rungPause := false } }

/-- CLEAR of one domain other than the block (R426). -/
def Hw.clearDomain (h : Hw) (d : Domain) : Hw :=
  match d with
  | .pair k =>
    [2 * k.val, 2 * k.val + 1].foldl (fun h n =>
      let h := if hn : n < 16 then h.endSession ⟨n, hn⟩ 6 else h
      ((h.cluGo n 1 1).cluServes n false).setClu n { h.clu n with
        keys := [], since := h.clk.now, manual := false, attempts := 1, checkFailed := false }) h
  | .bru =>
    let h := (h.collAbort fun _ => true).closingAbort fun _ => true
    ({ h with sched := { h.sched with ctxs := h.sched.ctxs.filter fun c => !c.blind, waiting := h.sched.waiting.filter fun w => !w.1 } } : Hw).repin
  | .pump => h.pumpReset
  | .scu =>
    let h := h.scuDown.advanceGen
    { h with scu := { h.scu with booting := true }, lcs := { h.lcs with prog := h.lcs.prog.take 1 } }
  | .block => h

end Sys2Proof.Machine
end

