-- ==== Sys2Proof/Machine/Persist.lean ====
section
/-! DEFINITION. The persistent register file: acceptance and refusal of writes, their issue to the NVM
macro, their end, and the settling of every word at priming (R459 to R465). -/

namespace Sys2Proof.Machine

/-- Where a write of a persistent word comes from (R459, R463). -/
inductive PerSource where
  | mval | page | scu
  deriving DecidableEq, Repr

/-- Writes after which a word is worn (R464). -/
abbrev wornLimit : Nat := 1000000

/-- Mirror of a word (R459). -/
def mirrorOf (w : Nat) : Option Nat := if 1 ≤ w ∧ w ≤ 0x0E then some (0x80 + w) else none

/-- A mirror's word. -/
def mirrored (w : Nat) : Option Nat := if 0x81 ≤ w ∧ w ≤ 0x8E then some (w - 0x80) else none

/-- Words that are assigned (R459). -/
def perAssigned (w : Nat) : Bool :=
  decide (w ≤ 0x0E) || decide (0x010 ≤ w ∧ w ≤ 0x014) || decide (0x018 ≤ w ∧ w ≤ 0x01A) || decide (0x020 ≤ w ∧ w ≤ 0x057)
    || decide (0x081 ≤ w ∧ w ≤ 0x08E) || decide (0x100 ≤ w ∧ w ≤ 0x1FF)

/-- Writes of a word accepted and not yet ended. -/
def Hw.perAhead (h : Hw) (w : Nat) : Nat :=
  ((h.per.queue.filter fun x => x.word == w).length) + (match h.per.issued with | some x => b2n (x.word == w) | none => 0)

/-- Write count of a word with every accepted write counted. -/
def Hw.perCount (h : Hw) (w : Nat) : Nat := h.per.counts.get 0 w + h.perAhead w

/-- The word is worn (R464). -/
def Hw.perWorn (h : Hw) (w : Nat) : Bool := decide (wornLimit ≤ h.perCount w)

/-- PERSIST.LAST_ERR written (R463, R465). -/
def Hw.perErr (h : Hw) (word kind : Nat) : Hw :=
  (h.setReg Reg.PERSIST_LAST_ERR (BitVec.ofNat 32 (word + 512 * kind + 2 ^ 31))).setIrq 0x21 1

/-- Kind of refusal of a write, as LAST_ERR records it: 3 WORN, 4 PROTECTED; none when it is accepted (R463). -/
def Hw.perRefusal (h : Hw) (src : PerSource) (w : Nat) (v : Word) : Option Nat :=
  if !perAssigned w then some 4
  else if src == .mval && (w == 0x002 || (mirrored w).isSome) then some 4
  else if src == .mval && w == 0x001 && decide (v.toNat < (h.perVal 1).toNat) then some 4
  else if h.perWorn w then some 3 else none

/-- One write queued (R462). -/
def Hw.perQueue (h : Hw) (w : Nat) (v : Word) (page : Nat) (answer : Option LateAnswer) : Hw :=
  { h with per.queue := h.per.queue ++ [⟨w, v, h.perCount w + 1, answer, page⟩] }

/-- A write of a persistent word: refused, or in force at once and queued with its mirror's (R462, R463). Each copy keeps its own count,
so that a worn mirror refuses alone (R464). The answer is given when the last of them has ended. -/
def Hw.perWrite (h : Hw) (src : PerSource) (w : Nat) (v : Word) (page : Nat) (answer : Option LateAnswer) : Hw :=
  match h.perRefusal src w v with
  | some kind => (h.pageFault page .persist).perErr w kind
  | none =>
    let h := { h with per.vals := h.per.vals.put (persistFactory w) w v }
    match mirrorOf w with
    | some m =>
      let h := h.perQueue w v page answer
      if h.perWorn m then (h.pageFault page .persist).perErr m 3 else h.perQueue m v page answer
    | none => h.perQueue w v page answer

/-- PS_WRITE_ISSUE: the oldest accepted write is issued, one at a time (R72, R462). -/
def Hw.perIssue (h : Hw) : Hw :=
  match h.per.issued, h.per.queue with
  | none, w :: rest =>
    (({ h with per.queue := rest, per.issued := some w }).incReg Reg.PERSIST_WRITE_CNT).emit
      (.persist true w.word (persistWord w.value w.count))
  | _, _ => h

/-- PS_DONE for the issued write: the count, the faults and the flags (R464, R465). -/
def Hw.perDone (h : Hw) (err late : Bool) : Hw :=
  match h.per.issued with
  | none => h
  | some w =>
    let h := { h with
      per.issued := none
      per.counts := h.per.counts.put 0 w.word (min w.count wornLimit)
      per.written := if w.word ∈ h.per.written then h.per.written else w.word :: h.per.written }
    let h := if late then (h.raise 207 (detailWord none none 0 0) 0 0 0).perErr w.word 0 else h
    let h := if err then ((h.raise 208 (detailWord none none 0 0) 0 0 0).perErr w.word 1).pageFault w.page .persist else h
    let h := if w.count = wornLimit then h.raise 210 (detailWord none none 0 0) 0 0 0 else h
    h.setIrq 0x21 0

/-- A stored word that was never written: all 0 or all 1 (R460). -/
def perBlank (w : BitVec 64) : Bool := w == 0 || w == BitVec.allOnes 64

/-- What one word takes at priming: value, count, and whether it is blank or corrupt (R460). `svn` is the
greater svn of the bank headers, for a FW_MIN both of whose copies are corrupt. -/
def perSettled (raw : Nat → BitVec 64) (svn : Nat) (w : Nat) : Word × Nat × Bool × Bool :=
  let own := raw w
  if perBlank own then (persistFactory w, 0, true, false)
  else if persistOk own then (BitVec.ofNat 32 own.toNat, bits own.toNat 32 20, false, false)
  else match mirrorOf w with
    | some m =>
      let other := raw m
      if !perBlank other && persistOk other then (BitVec.ofNat 32 other.toNat, bits other.toNat 32 20, false, true)
      else if perBlank other then (persistFactory w, 0, false, true)
      else if w = 1 then (BitVec.ofNat 32 svn, 0, false, true)
      else if w = 2 then (0, 0, false, true)
      else (BitVec.allOnes 32, 0, false, true)
    | none => match mirrored w with
      | some o =>
        let word := raw o
        if persistOk word && !perBlank word then (BitVec.ofNat 32 word.toNat, 0, false, true) else (persistFactory w, 0, false, true)
      | none => (persistFactory w, 0, false, true)

/-- One word settled (R460). A reserved word takes no value, but a mismatch of its CRC is one of a read as any other (R72). -/
def Hw.perSettle (h : Hw) (raw : Nat → BitVec 64) (svn w : Nat) : Hw :=
  if !perAssigned w then
    if perBlank (raw w) || persistOk (raw w) then h
    else (({ h with per.corrupt := w :: h.per.corrupt } : Hw).raise 209 (detailWord none none 0 0) 0 0 0).perErr w 2
  else
    let (v, c, blank, corrupt) := perSettled raw svn w
    let h := { h with
      per.vals := h.per.vals.put (persistFactory w) w v
      per.counts := h.per.counts.put 0 w c
      per.written := if blank || w ∈ h.per.written then h.per.written else w :: h.per.written
      per.corrupt := if corrupt then w :: h.per.corrupt else h.per.corrupt }
    if corrupt then
      let h := (h.raise 209 (detailWord none none 0 0) 0 0 0).perErr w 2
      let pair := match mirrorOf w with | some m => some m | none => mirrored w
      match pair with
      | some p => if !perBlank (raw p) && persistOk (raw p) then h.perQueue w v 0x21 none else h
      | none => h
    else h

/-- All 512 words settled at priming (R460). -/
def Hw.perSettleAll (h : Hw) (raw : Nat → BitVec 64) (svn : Nat) : Hw :=
  let h := { h with per.vals := [], per.counts := [], per.written := [], per.corrupt := [], per.queue := [], per.issued := none }
  (List.range 512).foldl (fun h w => h.perSettle raw svn w) h

/-- PERSIST.HCNT of a word. -/
def Hw.perState (h : Hw) (w : Nat) : Word :=
  BitVec.ofNat 32 (h.per.counts.get 0 w + 2 ^ 28 * b2n (mirrorOf w).isSome + 2 ^ 29 * b2n (perAssigned w && !decide (w ∈ h.per.written)) +
    2 ^ 30 * b2n (decide (w ∈ h.per.corrupt)) + 2 ^ 31 * b2n (decide (wornLimit ≤ h.per.counts.get 0 w)))

/-- The word behind an RWP register (R466): MGMT.MAC and ETHERTYPE, the WELL trigger settings, and
PERSIST.MVAL's selected word. -/
def Hw.rwpWord (h : Hw) (addr : Nat) : Option (Nat × PerSource) :=
  if addr = Reg.MGMT_MAC_LO then some (0x010, .page)
  else if addr = Reg.MGMT_MAC_HI then some (0x011, .page)
  else if addr = Reg.MGMT_ETHERTYPE then some (0x012, .page)
  else if addr = Reg.WELL_TRIG then some (0x018, .page)
  else if addr = Reg.WELL_TRIG_SRC then some (0x019, .page)
  else if addr = Reg.WELL_TRIG_POST then some (0x01A, .page)
  else if addr = Reg.PERSIST_MVAL then some (h.regF Reg.PERSIST_MSEL 0 9, .mval)
  else none

/-- MVAL: a write to an RWP register over the management path (R462, R463). Bits that the register does not
have are written 0. -/
def Hw.mvalWrite (h : Hw) (addr : Nat) (value : Word) (answer : Option LateAnswer) : Hw :=
  match h.rwpWord addr with
  | some (w, src) =>
    let mask := match rowOf addr with | some r => BitVec.ofNat 32 r.rw | none => 0
    h.perWrite src w (value &&& mask) (pageOf addr) answer
  | none => h

end Sys2Proof.Machine
end

