-- ==== Sys2Proof/Machine/Prime.lean ====
section
/-! DEFINITION. What a reset of the whole block keeps and loses, the end of a domain reset, the reset pins, and priming
(R81, R427 to R431, R467 to R472). -/

namespace Sys2Proof.Machine

/-- The bits of a register that a block or warm reset returns to their reset values: its RW fields that are neither RWL nor RWP (R430). -/
def resetMask (addr : Nat) : Nat :=
  let off := addr % 0x1000
  if off = offCtl then 1 else if off = offIrqEn then irqBits (pageOf addr)
  else if off < 0x40 then 0
  else match rowOf addr with
    | some r => r.rw
    | none => 0

/-- The register bank with every such field at its reset value (R430). -/
def Hw.resetFields (h : Hw) : Hw :=
  (h.regs.map (·.1)).foldl (fun h a =>
    let m := BitVec.ofNat 32 (resetMask a)
    h.setReg a ((h.reg a &&& ~~~m) ||| (resetOf a &&& m))) h

/-- Flits held in a port's ingress buffers of one VC. -/
def LinkPort.heldFlits (p : LinkPort) (v : Nat) : Nat := p.held.get 0 v

/-- One port when the whole block is reset: its session, its queues and the flits of its buffers are gone (R64, R430). A block
reset keeps the credits of both directions; a warm reset does not. -/
def Hw.resetPort (h : Hw) (warm : Bool) (p : Nat) : Hw :=
  let x := h.port p
  let inUse := fun (v : Nat) => x.heldFlits v + ((x.waiting.filter fun y => y.1.vc == v).map (·.2)).foldl (· + ·) 0
  let held := (List.range 4).foldl (fun (t : Tbl Nat) v => t.put 0 v (inUse v)) []
  let dropped := (List.range 4).foldl (fun n v => n + inUse v) 0
  let h := (h.sessionClear p .none).addReg (Reg.LPORT_DROP_CNT p) (if warm then 0 else dropped)
  let y := h.port p
  let vcs := (List.range 4).foldl (fun (t : Tbl EgressVc) v =>
    t.put EgressVc.empty v { EgressVc.empty with credits := if warm then 0 else (x.vc v).credits }) []
  h.setPort p { y with
    vcs := vcs, nextVc := 0, quantum := LinkPort.idle.quantum, waiting := [], ctlUsed := 0
    held := if warm then [] else held, granted := if warm then [] else x.granted }

/-- CLEAR of the whole block: what R430 says is lost by a block reset and by a warm reset. -/
def Hw.clearBlock (h : Hw) (warm : Bool) : Hw :=
  let h := if warm then h.pumpParked else h.pumpReset
  let h := (h.disarm .block).scuDown
  let h := h.resetFields
  let h := (List.range 16).foldl (fun h p => h.resetPort warm p) h
  let h := h.cachesLost.queuesLost
  let h := (List.range 16).foldl (fun h n => h.setReg (Reg.CLU_STAT n) (BitVec.ofNat 32 (if warm && decide (3 ≤ h.cluState n) then h.cluState n else 0))) h
  let h := ((h.setReg Reg.PWR_PROFILE_ACT 0).setReg Reg.PWR_GATED_PIPES 0).setReg Reg.SCHED_STAT 0
  let h := (h.setReg Reg.HANG_STAT 0).setReg Reg.RESET_STAT 0
  { h with
    latch := []
    pow := Hw.reset.pow
    clk := { h.clk with lnkSel := 0 }
    gate := Hw.reset.gate
    regions := { h.regions with running := none }
    txns := []
    rgl := Hw.reset.rgl
    gkt := { h.gkt with cache := [], fills := [], rounds := [], acks := [], closes := [], pinned := [] }
    pump := { h.pump with rungPause := false }
    gw := []
    bru := { h.bru with ctxs := [], closing := [], waiting := [] }
    shaper := []
    sched := Hw.reset.sched
    cfe := { Hw.reset.cfe with nextSeq := h.cfe.nextSeq }
    obj := { h.obj with
      fsel := [], fsigLo := [], esel := [], swLatch := []
      slices := h.obj.slices.map fun (p : Nat × Slice) => if p.2.st = .removing ∨ p.2.st = .tearing then (p.1, { p.2 with step := 0 }) else p }
    clus := []
    hangs := []
    cnt := { h.cnt with exporting := 0, snap := [] }
    icu := { h.icu with since := [], timer := [], ready := 0 }
    dmp := { h.dmp with open_ := [], waiting := [], walks := [] }
    ide := { h.ide with pending := [] }
    lcs := { h.lcs with prog := h.lcs.prog.take 1 } }

/-- The whole block starts to prime; a cold priming that a reset meets begins again as one (R81, R467). -/
def Hw.startPriming (h : Hw) (kind : PrimeKind) : Hw :=
  let kind := match h.prime.phase with | some (.cold, _) => PrimeKind.cold | _ => kind
  { h with prime := { h.prime with phase := some (kind, 1), ready := false, entropyFailed := false } }

/-- RESET_CLEAR_DONE: the domain is cleared, and its test begins (R426, R427); the block, once the completion records of its drain have
been written (R268, R427). -/
def Hw.resetClearDone (h : Hw) (d : Domain) : Hw :=
  match h.resetRun d fun p => p == .clear with
  | none => h
  | some _ =>
    if d = .block ∧ (h.cfe.queues.any fun q => h.statusOpen q.1) = true then h
    else
    let h := (h.disarm d).clearDomain d
    let h := if d = .block then (h.clearBlock false).startPriming .block else h
    h.resetGo d .test

/-- The domain has passed its test (R426, R427): a pair's clusters have ended theirs, the SCU has booted, the block has primed. -/
def Hw.tested (h : Hw) (d : Domain) : Bool :=
  match d with
  | .pair k => h.cluState (2 * k.val) != 1 && h.cluState (2 * k.val + 1) != 1
  | .scu => !h.scu.booting
  | .block => h.prime.phase.isNone
  | _ => true

/-- RESET_RELEASE: the domain is released, and the Gate accepts requests for it again (R427). -/
def Hw.resetRelease (h : Hw) (d : Domain) : Hw :=
  match h.resetRun d fun p => p == .test with
  | none => h
  | some r =>
    if !h.tested d then h
    else
      let us := min ((h.clk.now - r.start) / 1000) 0xFFFF
      let last := BitVec.ofNat 32 (d.num + 16 * r.source.getD 0 + 8192 * b2n r.source.isNone + 65536 * us)
      let h := { h with resets := h.resets.filter fun x => x.dom != d }
      let h := ((h.setReg Reg.RESET_LAST last).incReg Reg.RESET_CNT).setIrq 0x1D 0
      let h := h.wellEvent 0x04 last 0 0 0
      let h := match d with
        | .pair k => if h.cluState (2 * k.val) ≠ 0 ∧ h.cluState (2 * k.val + 1) ≠ 0 then h.fencePair k.val else h
        | _ => h
      h.drainPorts

/-- What a cold reset leaves: the state after reset, with the block's surroundings as they are (R430). -/
def Hw.coldReset (h : Hw) : Hw :=
  { Hw.reset with
    clk := { h.clk with lnkSel := 0 }
    ports := (List.range 16).foldl (fun (t : Tbl LinkPort) p =>
      t.put LinkPort.idle p { LinkPort.idle with linkUp := (h.port p).linkUp, pgen := (h.port p).pgen }) []
    tap := h.tap
    nextTxn := h.nextTxn
    free := h.free
    out := h.out
    prime := { Hw.reset.prime with pinHeld := some .cold, phase := none } }

/-- RST_COLD: RST_COLD_N is asserted (R81, R430). -/
def Hw.rstCold (h : Hw) : Hw := h.coldReset

/-- RST_WARM: RST_WARM_N is asserted, and the reset takes effect at once (R81, R429). A cold reset that is held prevails, and a cold
priming that it meets is the priming that begins again (R467). -/
def Hw.rstWarm (h : Hw) : Hw :=
  if h.prime.pinHeld = some .cold then h
  else
    let cold := match h.prime.phase with | some (.cold, _) => true | _ => false
    let h := h.clearBlock true
    { h with
      fcu := { h.fcu with chipRst := false }
      resets := []
      prime := { h.prime with pinHeld := some (if cold then .cold else .warm), phase := none, ready := false, entropyFailed := false } }

/-- RESET_PIN_RELEASE: the reset pin is released, and priming begins at phase 1 (R81, R467). -/
def Hw.resetPinRelease (h : Hw) : Hw :=
  match h.prime.pinHeld with
  | some k => ({ h with prime := { h.prime with pinHeld := none } } : Hw).startPriming k
  | none => h

/-- Codes of R377. -/
def Lcs.code : Lcs → Word
  | .raw => 0 | .test => 0xA5 | .dev => 0xC3A5 | .prod => 0x96C3A5 | .prodOpen => 0x3C96C3A5 | .rma => 0xFF96C3A5 | .scrap => 0xFFFFFFFF

/-- LCS.STATE.state. -/
def Lcs.num : Lcs → Nat
  | .raw => 0 | .test => 1 | .dev => 2 | .prod => 3 | .prodOpen => 4 | .rma => 5 | .scrap => 6

/-- State of a number; SCRAP for the numbers that are no state. -/
def Lcs.ofNum : Nat → Lcs
  | 0 => .raw | 1 => .test | 2 => .dev | 3 => .prod | 4 => .prodOpen | 5 => .rma | _ => .scrap

/-- State of a codeword (R377). -/
def Lcs.ofCode (w : Word) : Option Lcs := [Lcs.raw, .test, .dev, .prod, .prodOpen, .rma, .scrap].find? fun s => s.code == w

/-- The state that three codewords give, and whether it comes from an invalid code (R378). -/
def lcsSettled (w0 w1 w2 : Word) : Lcs × Bool :=
  let agreed := if w0 = w1 ∨ w0 = w2 then some w0 else if w1 = w2 then some w1 else none
  match agreed.bind Lcs.ofCode with
  | some s => (s, false)
  | none => (.scrap, true)

/-- The life-cycle state in force. -/
def Hw.lcsState (h : Hw) : Lcs := Lcs.ofNum (h.regF Reg.LCS_STATE 0 3)

/-- A fuse word as last read (R73). -/
def Hw.fuse (h : Hw) (w : Nat) : Word := h.lcs.fuses.get 0 w

/-- Phase 1 of a cold priming: the fuses are read and the life-cycle state is settled (R367, R377, R378). -/
def Hw.primeFuses (h : Hw) (n : Nv) : Hw :=
  let h := { h with lcs := { h.lcs with fuses := n.fuses } }
  let (s, bad) := lcsSettled (h.fuse 0) (h.fuse 1) (h.fuse 2)
  let h := h.setReg Reg.LCS_STATE (BitVec.ofNat 32 (s.num + 8 * b2n bad))
  let h := (List.range 3).foldl (fun h k => h.setReg (Reg.LCS_CODE k) (h.fuse k)) h
  let h := (List.range 4).foldl (fun h k => h.setReg (Reg.LCS_SERIAL k) (h.fuse (44 + k))) h
  let h := h.setReg Reg.LCS_REVOKE (h.fuse 48)
  (h.setReg Reg.LCS_NONCE (h.freeVal 32)).tookFree

/-- Accepted writes that have not reached the NVM macro stay in force over what is read (R462). -/
def Hw.keepQueued (h : Hw) (queue : List PsWrite) (issued : Option PsWrite) : Hw :=
  let ws := issued.toList ++ queue
  { h with per := { h.per with
      vals := ws.foldl (fun (t : Tbl Word) w => t.put (persistFactory w.word) w.word w.value) h.per.vals
      queue := queue ++ h.per.queue
      issued := issued } }

/-- SEVTAB loaded from the severity defaults (R411). -/
def Hw.loadSevtab (h : Hw) : Hw :=
  let h := (List.range 48).foldl (fun h k => h.setReg (Reg.SEVTAB_CLASS k) (sevClassBits k (h.perVal (0x020 + k)))) h
  (List.range 8).foldl (fun h k => h.setReg (Reg.SEVTAB_REACT k) (h.perVal (0x050 + k) &&& 0x1F)) h

/-- The FAULT level driven with the polarity in force (R79, R470). -/
def Hw.driveErr (h : Hw) : Hw := h.emit (.errOut true (decide (0 < h.errHolders) == h.fcu.errHigh))

/-- What the reads of the 512 words return, and what they raise: `reads` lists those with PS_ERR and those whose PS_DONE comes late.
The spec does not say what PS_RDATA holds with PS_ERR: a free value (R72). DESIGN CHOICE (log entry 68). -/
def Hw.perReads (h : Hw) (n : Nv) (reads : List (Fin 512 × Bool × Bool)) : Hw × (Nat → BitVec 64) :=
  let at_ := h.free
  let h := reads.foldl (fun h r =>
    let h := if r.2.2 then (h.raise 207 (detailWord none none 0 0) 0 0 0).perErr r.1.val 0 else h
    if r.2.1 then (h.raise 208 (detailWord none none 0 0) 0 0 0).perErr r.1.val 1 else h) h
  ({ h with free := h.free + 512 }, fun w => if reads.any fun r => r.1.val == w && r.2.1 then Config.freeBits 64 (at_ + w) else n.words.get 0 w)

/-- Phase 2: every persistent word is settled, ERR_OUT_VALID is driven, and at a cold priming the classes and masks are loaded
(R411, R460, R467, R470). `svn` is the greater svn of the bank headers. -/
def Hw.primePersist (h : Hw) (n : Nv) (kind : PrimeKind) (svn : Nat) (reads : List (Fin 512 × Bool × Bool)) : Hw :=
  let queue := h.per.queue
  let issued := h.per.issued
  let (h, raw) := h.perReads n reads
  let h := h.perSettleAll raw svn
  let h := if kind = .cold then h else h.keepQueued queue issued
  let high := bit (h.perVal 0) 0
  let change := !h.fcu.errValid || high != h.fcu.errHigh
  let h := { h with fcu := { h.fcu with errValid := true, errHigh := high } }
  let h := if kind = .cold then h.loadSevtab else h
  let h := (h.setF Reg.SCU_FW_STAT 0 1 (fld (h.perVal 2) 0 1))
  if change then h.driveErr else h

/-- Phase 3: the TRNG's start-up test has passed, the DRBG is instantiated and the scramble is drawn; or TRNG_FAIL stopped the
source, and the Cistern is erased (R363, R373, R374, R471). -/
def Hw.primeEntropy (h : Hw) : Hw :=
  if h.regBit Reg.CISTERN_TRNG_STAT 1 then
    let h := h.wipeCistern.joinLost
    { h with prime := { h.prime with entropyFailed := true } }
  else
    let h := (h.setF Reg.CISTERN_TRNG_STAT 0 1 1).setReg Reg.CISTERN_DRBG_STAT 1
    ({ h with cis := { h.cis with scramble := h.freeVal 32, calls := 0 } } : Hw).tookFree

/-- Credits of a port at the end of phase 4 (R64, R467). -/
def Hw.primeCredits (h : Hw) (kind : PrimeKind) (p : Fin 16) : Hw :=
  let x := h.port p.val
  if !x.linkUp then h
  else if kind = .block then
    let h := h.setPort p.val { x with held := [] }
    (List.range 4).foldl (fun h v => if x.heldFlits v = 0 then h else h.returnCredits p v (x.heldFlits v)) h
  else (List.range 4).foldl (fun h v => h.returnCredits p v 32) h

/-- What the known-answer test of a cluster leaves after up to three attempts: the pipelines and units that the last one failed, and the
number of attempts (R255). `tries` are the attempts that failed. -/
def katTries (tries : List (BitVec 30 × BitVec 3)) : (BitVec 30 × BitVec 3) × Nat :=
  let all := (tries ++ [(0, 0)]).take 3
  let k := min (all.findIdx fun t => t.1 == 0 && t.2 == 0) 2
  (all.getD k (0, 0), k + 1)

/-- The known-answer test of a cluster during priming (R254, R255, R467). A cluster that stays FAILED or HELD through a warm reset stays
out. -/
def Hw.primeKat (h : Hw) (n : Nat) (tries : List (BitVec 30 × BitVec 3)) : Hw :=
  let (r, k) := katTries tries
  let pass := r.1 == 0 && r.2 == 0
  let h := h.katRecord n r.1 r.2 k pass
  if pass then h else h.cluFailed n

/-- Phase 4: known-answer tests, the tie-offs, the credits, and the key registers loaded (R48, R64, R254, R430, R467). `kats` names the
clusters that failed an attempt at their test, with the pipelines and units that failed in each. -/
def Hw.primeEngines (h : Hw) (kind : PrimeKind) (used : BitVec 16) (kats : List (Fin 16 × List (BitVec 30 × BitVec 3))) : Hw :=
  let h := (List.range 16).foldl (fun h n => h.primeKat n (((kats.find? fun k => k.1.val == n).map (·.2)).getD [])) h
  let h := ((List.range 16).filter fun n => h.cluState n == 0).foldl (fun h n => h.loadFromCistern n) h
  let h := (List.range 8).foldl (fun h k =>
    let out := fun (n : Nat) => h.cluState n != 0
    if out (2 * k) && out (2 * k + 1) then h.fencePair k
    else if out (2 * k) then h.cluServes (2 * k + 1) true
    else if out (2 * k + 1) then h.cluServes (2 * k) true
    else h) h
  let h := h.setF Reg.CAP_PORTS 0 16 used.toNat
  let h := (List.range 16).foldl (fun h p => h.setPort p { h.port p with used := used.getLsbD p }) h
  (List.finRange 16).foldl (fun h p => h.primeCredits kind p) h

/-- Number of a kind of priming in its record (R434). -/
def PrimeKind.num : PrimeKind → Nat
  | .cold => 0 | .warm => 1 | .block => 2

/-- The end of priming: BLK_READY, the PRIMED record, and the start of the SCU's boot where the partition base is known (R468, R469). -/
def Hw.primeEnd (h : Hw) (kind : PrimeKind) : Hw :=
  let h := { h with
    prime := { h.prime with phase := none, ready := true }
    scu := { h.scu with booting := h.prime.fwBaseSeen, afterPrime := decide (kind ≠ PrimeKind.cold) } }
  (h.emit .ready).wellEvent 0x05 (BitVec.ofNat 32 (kind.num + 16 * h.lcsState.num)) (h.reg Reg.PWR_PROFILE_ACT) 0 0

/-- PRIMING_PHASE_END: a phase of priming ends (R467). -/
def Hw.primingPhaseEnd (h : Hw) (n : Nv) (svn : Nat) (used : BitVec 16) (kats : List (Fin 16 × List (BitVec 30 × BitVec 3)))
    (reads : List (Fin 512 × Bool × Bool)) : Hw :=
  match h.prime.phase with
  | none => h
  | some (kind, phase) =>
    let next := fun (h : Hw) => ({ h with prime := { h.prime with phase := some (kind, phase + 1) } } : Hw)
    if phase = 1 then next (if kind = .cold then h.primeFuses n else h.advanceGen)
    else if phase = 2 then next (h.primePersist n kind svn reads)
    else if phase = 3 then next h.primeEntropy
    else (h.primeEngines kind used kats).primeEnd kind

/-- FW_BASE_WRITE: a write of SCU.FW_BASE_LO; the first after a cold priming starts the boot (R457, R469). -/
def Hw.fwBaseWrite (h : Hw) (value : Word) : Hw :=
  if h.locked 0x15 then h.pageFault 0x15 .lockWrite
  else
    let h := h.setReg Reg.SCU_FW_BASE_LO (value &&& 0xFFF00000)
    if h.prime.fwBaseSeen then h
    else { h with prime := { h.prime with fwBaseSeen := true }, scu := { h.scu with booting := true } }

/-- PS_DONE: the write that was issued has ended, and the macro holds it unless it failed (R72, R465). -/
def Hw.psDone (h : Hw) (n : Nv) (err late : Bool) : Hw × Nv :=
  match h.per.issued with
  | none => (h, n)
  | some w =>
    let stored := persistWord w.value w.count
    let kept := if err then h.freeVal 64 else stored
    ((if err then h.tookFree else h).perDone err late, { n with words := n.words.put 0 w.word kept })

end Sys2Proof.Machine
end

