-- ==== Sys2Proof/Machine/Debug.lean ====
section
/-! DEFINITION. The test access port, the DEBUG controls in effect, and the export of counter snapshots (R82, R377, R408,
R444, R445). -/

namespace Sys2Proof.Machine

/-- LCS.TAP_ALLOW: the test instructions open now (R82, R377). -/
def Hw.tapAllow (h : Hw) : Nat :=
  if h.joined then 0x03
  else match h.lcsState with
    | .prod => 0x0F
    | .scrap => 0x03
    | _ => 0x3F

/-- Bit of LCS.TAP_ALLOW for a test instruction; none for the codes that act as BYPASS whatever the state. -/
def tapBit (code : Nat) : Option Nat :=
  match code with
  | 0x00 => some 3 | 0x01 => some 0 | 0x02 => some 2 | 0x10 => some 4 | 0x11 => some 5
  | _ => none

/-- The instruction that acts when a code is loaded: BYPASS for any other code and for one that the state forbids (R377). -/
def Hw.tapActs (h : Hw) (code : Nat) : Nat :=
  match tapBit code with
  | some k => if h.tapAllow / 2 ^ k % 2 = 1 then code else 0x1F
  | none => 0x1F

/-- IDCODE (R82), with the manufacturer code of fuse word 3 (R367). -/
def Hw.idCode (h : Hw) : Word := BitVec.ofNat 32 (1 + 2 * fld (h.fuse 3) 0 11 + 2 ^ 12 * 0x0C31 + 2 ^ 28 * 3)

/-- What the TAP selects for an instruction. -/
def Hw.tapSelect (h : Hw) (code : Nat) : Hw :=
  let i := h.tapActs code
  h.emit (.tap i (if i = 1 then some h.idCode else none))

/-- The controller's next state, by TMS (R82: IEEE 1149.1). -/
def TapState.next (s : TapState) (tms : Bool) : TapState :=
  match s, tms with
  | .testLogicReset, true => .testLogicReset
  | .testLogicReset, false => .runTestIdle
  | .runTestIdle, true => .selectDr
  | .runTestIdle, false => .runTestIdle
  | .selectDr, true => .selectIr
  | .selectDr, false => .captureDr
  | .captureDr, true => .exit1Dr
  | .captureDr, false => .shiftDr
  | .shiftDr, true => .exit1Dr
  | .shiftDr, false => .shiftDr
  | .exit1Dr, true => .updateDr
  | .exit1Dr, false => .pauseDr
  | .pauseDr, true => .exit2Dr
  | .pauseDr, false => .pauseDr
  | .exit2Dr, true => .updateDr
  | .exit2Dr, false => .shiftDr
  | .updateDr, true => .selectDr
  | .updateDr, false => .runTestIdle
  | .selectIr, true => .testLogicReset
  | .selectIr, false => .captureIr
  | .captureIr, true => .exit1Ir
  | .captureIr, false => .shiftIr
  | .shiftIr, true => .exit1Ir
  | .shiftIr, false => .shiftIr
  | .exit1Ir, true => .updateIr
  | .exit1Ir, false => .pauseIr
  | .pauseIr, true => .exit2Ir
  | .pauseIr, false => .pauseIr
  | .exit2Ir, true => .updateIr
  | .exit2Ir, false => .shiftIr
  | .updateIr, true => .selectDr
  | .updateIr, false => .runTestIdle

/-- What the capture of the selected test data register holds: the IDCODE, the BYPASS bit at 0, or, of a register whose length and
content the spec does not give, one free bit. DESIGN CHOICE (log entry 35). -/
def Hw.tapCapture (h : Hw) : List Bool :=
  match h.tapActs h.tap.instr with
  | 0x01 => (List.range 32).map fun k => h.idCode.getLsbD k
  | 0x1F => [false]
  | _ => [(h.freeVal 1).getLsbD 0]

/-- A register of the TAP shifted by one: the bit that leaves on TDO, and what stays. -/
def tapShift (r : List Bool) (tdi : Bool) : Bool × List Bool :=
  match r ++ [tdi] with
  | b :: rest => (b, rest)
  | [] => (tdi, [])

/-- One rising edge of TCK with TMS and TDI: the work of the state that ends, and the next state (R82: IEEE 1149.1). -/
def Hw.tapClock (h : Hw) (tms tdi : Bool) : Hw :=
  let t := h.tap
  let h := match t.ctrl with
    | .captureDr => ({ h with tap := { t with dr := h.tapCapture } } : Hw).tookFree
    | .shiftDr => let r := tapShift t.dr tdi; ({ h with tap := { t with dr := r.2 } } : Hw).emit (.tdo r.1)
    | .captureIr => { h with tap := { t with ir := 1 } }
    | .shiftIr => ({ h with tap := { t with ir := (t.ir >>> 1) ||| (if tdi then 16 else 0) } } : Hw).emit (.tdo (t.ir.getLsbD 0))
    | .updateIr => ({ h with tap := { t with instr := t.ir.toNat } } : Hw).tapSelect t.ir.toNat
    | .testLogicReset => if t.instr = 1 then h else ({ h with tap := { t with instr := 1 } } : Hw).tapSelect 1
    | _ => h
  { h with tap.ctrl := t.ctrl.next tms }

/-- The clocks, TMS and TDI, that load an instruction from any state and leave the controller in Run-Test/Idle. -/
def loadClocks (code : BitVec 5) : List (Bool × Bool) :=
  List.replicate 5 (true, false) ++ [(false, false), (true, false), (true, false), (false, false), (false, false)] ++
    ((List.range 5).map fun k => (decide (k = 4), code.getLsbD k)) ++ [(true, false), (false, false)]

/-- Clocks of the TAP in their order. -/
def Hw.tapClocks (h : Hw) (cs : List (Bool × Bool)) : Hw := cs.foldl (fun h c => h.tapClock c.1 c.2) h

/-- TAP_INSTRUCTION: an instruction is loaded, and `clocks` follow it (R82, R377). DESIGN CHOICE (log entry 35). -/
def Hw.tapInstruction (h : Hw) (code : BitVec 5) (clocks : List (Bool × Bool)) : Hw := (h.tapClocks (loadClocks code)).tapClocks clocks

/-- TRST_N: the TAP is reset and holds IDCODE; ignored while the block is joined (R82). -/
def Hw.trstN (h : Hw) : Hw := if h.joined then h else ({ h with tap := Tap.fresh } : Hw).tapSelect 1

/-- The state and membership let a DEBUG control take effect: 0 trace, 1 halt, 2 export (R408). -/
def Hw.debugOpen (h : Hw) (k : Nat) : Bool :=
  !h.joined && (match h.lcsState with
    | .raw => true | .test => true | .dev => true | .prodOpen => true | .rma => true
    | .prod => k == 2
    | .scrap => false)

/-- DEBUG.STAT (R408). -/
def Hw.debugStat (h : Hw) : Word :=
  let on := fun (k : Nat) => h.regBit Reg.DEBUG_CTL k && h.debugOpen k
  let set := (List.range 3).any fun k => h.regBit Reg.DEBUG_CTL k && !h.debugOpen k
  BitVec.ofNat 32 (b2n (on 0) + 2 * b2n (on 1) + 4 * b2n (on 2) + 8 * b2n (h.joined || set))

/-- A write of DEBUG.CTL over the management network (R408). -/
def Hw.debugWrite (h : Hw) (value : Word) : Hw :=
  if h.joined then h.pageFault 0x23 .denied else h.setReg Reg.DEBUG_CTL (value &&& 7)

/-- COUNTER_EXPORT: an export period comes due (R445). -/
def Hw.counterExport (h : Hw) : Hw :=
  if !h.regBit Reg.CNT_EXP_CTL 0 || !bit h.debugStat 2 || h.regBit Reg.CNT_EXP_STAT 1 then h
  else if 0 < h.cnt.exporting then h.incReg Reg.CNT_EXP_MISS
  else h.exportStart

end Sys2Proof.Machine
end

