-- ==== Sys2Proof/Machine/RegView.lean ====
section
/-! DEFINITION. What each register reads: the stored value, or, for a register that shows the state of a unit, that state
(R8, R443, R444, R455, R456, R460). -/

namespace Sys2Proof.Machine

/-- Reset domains that contain a page's unit (R426, R456). -/
def pageDomains (page : Nat) : List Domain :=
  .block :: (match page with
    | 0x08 => [.pump]
    | 0x0B => [.bru]
    | 0x15 => [.scu]
    | 0x18 => [.scu]
    | _ => if h : 0x30 ≤ page ∧ page ≤ 0x4F then [.pair ⟨page % 16 / 2, by omega⟩] else [])

/-- PAGE_STAT (R385, R456). -/
def Hw.pageStat (h : Hw) (page : Nat) : Word :=
  BitVec.ofNat 32 (fld (h.reg (page * 0x1000 + offStat)) 0 31 + 2 ^ 31 * b2n ((pageDomains page).any fun d => h.inReset d))

/-- A mask with the bits for which a test holds. -/
def maskOf (n : Nat) (p : Nat → Bool) : Nat := (List.range n).foldl (fun acc k => acc + (if p k then 2 ^ k else 0)) 0

/-- The low or the high word of a 64-bit number. -/
def halfOf (v : Nat) (high : Bool) : Word := BitVec.ofNat 32 (if high then v / 2 ^ 32 else v)

/-- Views of the GATE page. -/
def Hw.viewGate (h : Hw) (off : Nat) : Option Word :=
  match off with
  | 0x04C => some h.wcacheStat
  | 0x054 => some (setBits (h.reg Reg.GATE_RESOLVE_STAT) 0 5 h.gate.resolutions.length)
  | 0x080 => some (BitVec.ofNat 32 (maskOf 8 (fun k => decide (k ∈ h.gate.aged)) + 256 * b2n (decide (9 ∈ h.gate.aged))))
  | _ => none

/-- Views of the REGION page. -/
def Hw.viewRegion (h : Hw) (off : Nat) : Option Word :=
  match off with
  | 0x05C => some (BitVec.ofNat 32 (h.regions.table.filter fun p => p.2.isSome).length)
  | 0x060 => some (BitVec.ofNat 32 h.mapsUsed.length)
  | 0x064 => some (BitVec.ofNat 32 h.gate.rtc.length)
  | _ => none

/-- Views of the GKT page. -/
def Hw.viewGkt (h : Hw) (off : Nat) : Option Word :=
  match off with
  | 0x048 => some (BitVec.ofNat 32 (if h.joined then h.homes.length else 0))
  | 0x04C => some (BitVec.ofNat 32 (h.gkt.part.filter fun p => gktValid p.2).length)
  | 0x050 => some (BitVec.ofNat 32 h.gkt.cache.length)
  | _ => none

/-- Views of the PUMP page. -/
def Hw.viewPump (h : Hw) (off : Nat) : Option Word :=
  match off with
  | 0x044 => some h.pumpStat
  | 0x048 => some (match h.pump.wet with | some w => BitVec.ofNat 32 (w.granule + 2 ^ 31) | none => 0)
  | 0x04C => some (match h.pump.wet with | some w => BitVec.ofNat 32 w.cursor | none => 0)
  | 0x068 => some (BitVec.ofNat 32 h.granLeft)
  | _ => none

/-- QRING.Qn_STAT (R262). -/
def Hw.queueStat (h : Hw) (n : Nat) : Word :=
  let q := h.queue n
  let out := match q.run with | some b => (b.ops.filter QOp.outstanding).length | none => 0
  BitVec.ofNat 32 (q.st.num + 8 * b2n q.pending + 16 * b2n q.pre.isSome + 256 * min out 31 + 2 ^ 13 * q.foreign + 2 ^ 17 * q.backward + 2 ^ 21 * q.winSkip)

/-- Views of the QRING page. -/
def Hw.viewQring (h : Hw) (off : Nat) : Option Word :=
  if off = 0x040 then some (BitVec.ofNat 32 (maskOf 32 fun k => (h.queue k).st == .active))
  else if off = 0x044 then some (BitVec.ofNat 32 (maskOf 32 fun k => (h.queue (32 + k)).st == .active))
  else if 0x100 ≤ off ∧ off < 0x900 then
    let n := (off - 0x100) / 32
    match (off - 0x100) % 32 with
    | 0x0C => some (BitVec.ofNat 32 (h.queue n).tail)
    | 0x10 => some (BitVec.ofNat 32 (h.queue n).head)
    | 0x14 => some (h.queueStat n)
    | _ => none
  else none

/-- Views of the SLICE page, of the selected slice (R315 to R334). -/
def Hw.viewSlice (h : Hw) (off : Nat) : Option Word :=
  let s := h.regF Reg.SLICE_SEL 0 10
  match off with
  | 0x044 => some (BitVec.ofNat 32 (h.slice s).pasid)
  | 0x04C => some (h.sliceStat s)
  | 0x050 => some (halfOf (h.slice s).jobs false)
  | 0x054 => some (halfOf (h.slice s).jobs true)
  | 0x058 => some (BitVec.ofNat 32 (h.sliceSlots s))
  | 0x05C => some (BitVec.ofNat 32 (h.sliceShares s))
  | 0x060 => some (BitVec.ofNat 32 (h.sliceGkt s))
  | 0x064 => some (BitVec.ofNat 32 (h.sliceRing s))
  | 0x06C => some (BitVec.ofNat 32 h.sliceBound)
  | 0x070 => some (h.barrierOf s)
  | _ => none

/-- Views of the FENCE page, of the selected fence (R322). -/
def Hw.viewFence (h : Hw) (off : Nat) : Option Word :=
  let f := h.regF Reg.FENCE_SEL 0 12
  match off with
  | 0x044 => some (h.fence f).cfg
  | 0x048 => some (halfOf (h.fence f).init.toNat false)
  | 0x04C => some (halfOf (h.fence f).init.toNat true)
  | 0x054 => some (h.fenceStat f)
  | 0x058 => some (halfOf (h.fence f).value.toNat false)
  | 0x05C => some (halfOf (h.fence f).value.toNat true)
  | _ => none

/-- Views of the EVENT page (R330, R331). -/
def Hw.viewEvent (h : Hw) (off : Nat) : Option Word :=
  let e := h.regF Reg.EVENT_SEL 0 10
  if off = 0x044 then some (h.event e).cfg
  else if off = 0x04C then some (h.eventStat e)
  else if 0x100 ≤ off ∧ off < 0x180 then some (BitVec.ofNat 32 (maskOf 32 fun k => (h.event (32 * ((off - 0x100) / 4) + k)).set))
  else none

/-- Views of the REG page (R342 to R351). -/
def Hw.viewReg (h : Hw) (off : Nat) : Option Word :=
  let own := fun (a : Nat) => some ((h.pendingValue a).getD (h.reg a))
  if off = 0x040 then own Reg.REG_WINDOW
  else if off = 0x050 then some (h.rgl.weights.get 0x1010 (h.regF Reg.REG_SSEL 0 10))
  else if off = 0x054 then some (BitVec.ofNat 32 (h.floorSumWith 99 0))
  else if off = 0x058 then some (BitVec.ofNat 32 (h.floorMax (max (h.regF Reg.REG_WINDOW 0 8) 1)))
  else if off = 0x05C then some (BitVec.ofNat 32 (b2n (h.regBit Reg.REG_STAT 0) + 2 * b2n (h.rgl.pendingWrites != [])))
  else if 0x100 ≤ off ∧ off < 0x1D0 then
    (if off % 16 = 12 then some (BitVec.ofNat 32 (min (h.chargedTo ((off - 0x100) / 16) / 256) 0xFFFFFF)) else own (0x13000 + off))
  else none

/-- Views of the EGRESS page (R353). -/
def Hw.viewEgress (h : Hw) (off : Nat) : Option Word :=
  if 0x100 ≤ off ∧ off < 0x200 then
    match off % 16 with
    | 4 => some (h.perVc ((off - 0x100) / 16) fun v => v.deficit)
    | 8 => some (h.perVc ((off - 0x100) / 16) fun v => v.queue.length)
    | _ => none
  else none

/-- Views of the CISTERN page (R361, R366). -/
def Hw.viewCistern (h : Hw) (off : Nat) : Option Word :=
  match off with
  | 0x040 => some (BitVec.ofNat 32 (h.liveSlots + 65536 * h.sliceFree + 2 ^ 31 * b2n (h.regBit Reg.CISTERN_STAT 31 && h.liveSlots == 0)))
  | 0x048 => some (h.slot (h.regF Reg.CISTERN_SLOT_SEL 0 13)).metaWord
  | 0x04C => some (h.slot (h.regF Reg.CISTERN_SLOT_SEL 0 13)).metaHi
  | _ => none

/-- MGMT.MAC_LO and MAC_HI in force: while both words are blank, 0x02 and bytes 0 to 4 of the serial, the first byte in
[47:40] (R460). PRESUMED (log entry 42). -/
def Hw.macWord (h : Hw) (high : Bool) : Word :=
  if 0x010 ∈ h.per.written ∨ 0x011 ∈ h.per.written then h.perVal (if high then 0x011 else 0x010)
  else
    let byte := fun (k : Nat) => fld (h.fuse (44 + k / 4)) (8 * (k % 4)) 8
    BitVec.ofNat 32 (if high then 0x0200 + byte 0 else byte 1 * 2 ^ 24 + byte 2 * 2 ^ 16 + byte 3 * 2 ^ 8 + byte 4)

/-- Views of the FAULT page (R415 to R418). -/
def Hw.viewFault (h : Hw) (off : Nat) : Option Word :=
  let word := fun (f : HistEntry → Word) => some (match h.fcu.hist with | e :: _ => f e | [] => 0)
  match off with
  | 0x074 => some (BitVec.ofNat 32 (b2n (decide (0 < h.errHolders)) + 65536 * h.errHolders))
  | 0x078 => some (BitVec.ofNat 32 (h.fcu.hist.length + 256 * h.fcu.lost))
  | 0x080 => word HistEntry.w0
  | 0x084 => word HistEntry.w1
  | 0x088 => word HistEntry.w2
  | 0x08C => word HistEntry.w3
  | 0x098 => some (BitVec.ofNat 32 (h.fcu.counts.get 0 (h.regF Reg.FAULT_CNT_SEL 0 9)))
  | _ => none

/-- Number of a reset phase in RESET.STAT. -/
def ResetPhase.num : ResetPhase → Nat
  | .fence => 1 | .drain => 2 | .clear => 3 | .test => 4

/-- RESET.STAT (R427). -/
def Hw.resetStat (h : Hw) : Word :=
  BitVec.ofNat 32 (maskOf 12 (fun k => match Domain.ofNum k with | some d => h.inReset d | none => false) +
    4096 * (match h.resets with | r :: _ => r.phase.num | [] => 0))

/-- Views of the WELL page (R432 to R440). -/
def Hw.viewWell (h : Hw) (off : Nat) : Option Word :=
  match off with
  | 0x040 => some (BitVec.ofNat 32 (h.well.seq % 8192 + 65536 * b2n (decide (8192 ≤ h.well.seq)) + 2 ^ 17 * b2n h.well.triggered + 2 ^ 18 * b2n h.well.frozen))
  | 0x044 => some (BitVec.ofNat 32 h.well.seq)
  | 0x048 => some (BitVec.ofNat 32 h.well.lost)
  | 0x04C => some (h.perVal 0x018)
  | 0x050 => some (h.perVal 0x019)
  | 0x054 => some (h.perVal 0x01A)
  | _ => if 0x084 ≤ off ∧ off < 0x0A4 then some ((h.wellRead (h.regF Reg.WELL_RD_IDX 0 13)).word ((off - 0x084) / 4)) else none

/-- Views of the CNT page; over the Register Port the counters read 0 while the block is joined (R443, R444). -/
def Hw.viewCnt (h : Hw) (off : Nat) (mgmt : Bool) : Option Word :=
  let v := if h.joined && !mgmt then 0 else h.cntSelected
  match off with
  | 0x048 => some (halfOf v false)
  | 0x04C => some (halfOf v true)
  | 0x05C => some (BitVec.ofNat 32 (b2n (decide (0 < h.cnt.exporting)) + 2 * b2n (h.regBit Reg.CNT_EXP_STAT 1) + 256 * h.exportSlot))
  | _ => none

/-- Views of the PERSIST page (R459 to R465). -/
def Hw.viewPersist (h : Hw) (off : Nat) : Option Word :=
  match off with
  | 0x044 => some (h.perVal (h.regF Reg.PERSIST_HSEL 0 9))
  | 0x048 => some (h.perState (h.regF Reg.PERSIST_HSEL 0 9))
  | 0x050 => some (h.perVal (h.regF Reg.PERSIST_MSEL 0 9))
  | 0x054 => some (BitVec.ofNat 32 (b2n h.per.issued.isSome + 2 * min (h.per.queue.length + b2n h.per.issued.isSome) 255))
  | 0x058 => some (BitVec.ofNat 32 (h.per.counts.filter fun p => decide (wornLimit ≤ p.2)).length)
  | _ => none

/-- Views of an LPORTn page (R160 to R168). -/
def Hw.viewLport (h : Hw) (p off : Nat) : Option Word :=
  match off with
  | 0x040 => some (h.lportStat p)
  | 0x044 => some (h.lportGen p)
  | 0x048 => some (h.perVc p fun v => v.credits)
  | _ => none

/-- Requests that a firmware in PROBATION holds: messages and KEY_OPs (R389). -/
def Hw.heldCount (h : Hw) : Nat :=
  if h.updPhase < 2 then 0
  else h.scu.held.length + (h.cfe.queues.foldl (fun n q => n + (match q.2.run with
    | some b => (b.ops.filter fun o => o.outstanding && o.opcode == 0x0D).length
    | none => 0)) 0)

/-- The register shows the state of a unit, and what it shows. -/
def Hw.unitView (h : Hw) (page off : Nat) (mgmt : Bool) : Option Word :=
  match page with
  | 0x01 => some (h.capWord off)
  | 0x02 => if off = 0x04C then some h.rungStat else none
  | 0x04 => h.viewGate off
  | 0x05 => h.viewRegion off
  | 0x07 => h.viewGkt off
  | 0x08 => h.viewPump off
  | 0x09 => if off = 0x054 then some (BitVec.ofNat 32 (maskOf 16 fun p => (h.port p).sess == .up)) else none
  | 0x0B => if off = 0x04C then some (BitVec.ofNat 32 (h.bru.ctxs.length + h.bru.closing.length + 65536 * (h.bru.waiting.filter fun w =>
      !h.sched.waiting.any fun x => x.2.2.1 == w.1 && x.2.2.2 == w.2.1).length)) else none
  | 0x0D => if off = 0x050 then some (BitVec.ofNat 32 (b2n h.cfe.bttInv)) else none
  | 0x0E => h.viewQring off
  | 0x0F => if off = 0x058 then some (BitVec.ofNat 32 (h.slotWorking + 64 * h.slotPending.length + 65536 * h.sched.ctxs.length +
      2 ^ 30 * h.regF Reg.SCHED_STAT 30 2)) else none
  | 0x10 => h.viewSlice off
  | 0x11 => h.viewFence off
  | 0x12 => h.viewEvent off
  | 0x13 => h.viewReg off
  | 0x14 => h.viewEgress off
  | 0x15 => if off = 0x050 then some (setBits (h.reg Reg.SCU_UPD_STAT) 16 16 (min h.heldCount 0xFFFF)) else none
  | 0x16 => h.viewCistern off
  | 0x17 => if off = 0x068 then some (BitVec.ofNat 32 h.tapAllow) else none
  | 0x18 => if off = 0x070 then some (BitVec.ofNat 32 ((h.scu.sessions.filter Session.up).length +
      16 * (h.scu.sessions.filter fun s => s.auth).length)) else none
  | 0x19 => if off = 0x040 then some (h.macWord false) else if off = 0x044 then some (h.macWord true)
      else if off = 0x048 then some (h.perVal 0x012) else none
  | 0x1A => h.viewFault off
  | 0x1D => if off = 0x044 then some h.resetStat else none
  | 0x1E => h.viewWell off
  | 0x1F => h.viewCnt off mgmt
  | 0x20 => if off = 0x054 then some (halfOf h.icu.ready.toNat false) else if off = 0x058 then some (halfOf h.icu.ready.toNat true) else none
  | 0x21 => h.viewPersist off
  | 0x22 => if off = 0x048 then some (BitVec.ofNat 32 (h.inject.remaining + 256 * b2n h.inject.disarmed)) else none
  | 0x23 => if off = 0x044 then some h.debugStat else none
  | _ => if 0x30 ≤ page ∧ page ≤ 0x3F then h.viewLport (page % 16) off else none

/-- Bits of a register that are not read as 0 (R8, R453). -/
def readMask (page off : Nat) : Nat :=
  if off < 0x040 then
    match off with
    | 0x00 => 0xFFFFFFFF | 0x04 => 0xFFFFFFFF | 0x08 => 0xFFFFFFFF
    | 0x0C => if page = 0x20 then 0 else 1
    | 0x10 => 0xFFFFFFFF | 0x14 => 0x3F
    | 0x18 => irqBits page | 0x1C => irqBits page
    | 0x24 => 1
    | _ => 0
  else match rowOf (page * 0x1000 + off) with
    | some r => r.rw ||| r.rwl ||| r.w1c ||| r.ro
    | none => 0

/-- The value of a register on a path, without the latches of R455. DESIGN CHOICE (log entry 7). -/
def Hw.regValue (h : Hw) (a : Nat) (mgmt : Bool) : Word :=
  let page := pageOf a
  let off := a % 0x1000
  let v := if off = offStat then h.pageStat page else (h.unitView page off mgmt).getD (h.reg a)
  v &&& BitVec.ofNat 32 (readMask page off)

/-- The RO pairs whose low word latches the high one, by the address of the low word (R455). -/
def latchedPairs : List Nat :=
  [Reg.GATE_LAST_ADDR_LO, Reg.SEAL_LAST_ADDR_LO, Reg.LINK_LAST_DEAD_ADDR_LO, Reg.QRING_ACTIVE_LO, Reg.SLICE_JOBS_LO, Reg.FENCE_VAL_LO,
   Reg.ATTEST_REPORT_CNT_LO, Reg.CNT_VAL_LO, Reg.ICU_VREADY_LO]

/-- Where a latched high word is kept. -/
def latchKey (a : Nat) (mgmt : Bool) : Nat := a + (if mgmt then 0x80000 else 0)

/-- A read of the register window by a path, with its latches (R455). -/
def Hw.regRead (h : Hw) (a : Nat) (mgmt : Bool) : Hw × Word :=
  let a := a / 4 * 4
  if a ∈ latchedPairs then
    ({ h with latch := h.latch.put 0 (latchKey (a + 4) mgmt) ((h.regValue (a + 4) mgmt).toNat + 1) }, h.regValue a mgmt)
  else if a = Reg.CNT_VAL_HI ∧ h.joined = true ∧ mgmt = false then (h, 0)
  else if 4 ≤ a ∧ a - 4 ∈ latchedPairs ∧ h.latch.get 0 (latchKey a mgmt) ≠ 0 then
    (h, BitVec.ofNat 32 (h.latch.get 0 (latchKey a mgmt) - 1))
  else (h, h.regValue a mgmt)

end Sys2Proof.Machine
end

