-- ==== Sys2Proof/Machine/RegPort.lean ====
section
/-! DEFINITION. Writes of the register window by either path, the header's registers, and the accesses of the Register Port
(R451 to R458). -/

namespace Sys2Proof.Machine

/-- IRQ_SET: a write sets IRQ_STAT bits that the page defines (R456). -/
def Hw.irqSetWrite (h : Hw) (page : Nat) (value : Word) : Hw :=
  let a := page * 0x1000 + offIrqStat
  (h.setReg a (h.reg a ||| (value &&& BitVec.ofNat 32 (irqBits page)))).icuLevel page

/-- A W1C write of IRQ_STAT (R8, R456); a level that still holds sets its pending bit again (R447). -/
def Hw.irqStatWrite (h : Hw) (page : Nat) (value : Word) : Hw :=
  let a := page * 0x1000 + offIrqStat
  (h.setReg a (h.reg a &&& ~~~value)).icuLevel page

/-- A write of IRQ_EN (R446, R456). -/
def Hw.irqEnWrite (h : Hw) (page : Nat) (value : Word) : Hw :=
  (h.setReg (page * 0x1000 + offIrqEn) (value &&& BitVec.ofNat 32 (irqBits page))).icuLevel page

/-- A write of PAGE_CTL: fault_irq, and fault_clr, which clears PAGE_FAULT (R456). -/
def Hw.pageCtlWrite (h : Hw) (page : Nat) (value : Word) : Hw :=
  let h := h.setReg (page * 0x1000 + offCtl) (if page = 0x20 then 0 else value &&& 1)
  if bit value 1 then h.setReg (page * 0x1000 + offFault) 0 else h

/-- PAGE_LOCK: a write of 1 locks a page that has RWL fields (R457). -/
def Hw.pageLockWrite (h : Hw) (page : Nat) (value : Word) : Hw :=
  if bit value 0 && pageLockable page then h.setReg (page * 0x1000 + offLock) 1 else h

/-- Counter registers of a page that CNT_CLR zeroes, by offset (each page's chapter). -/
def counterRegs (page : Nat) : List Nat :=
  match page with
  | 0x00 => [0x05C, 0x060]
  | 0x04 => [0x058, 0x05C, 0x060, 0x064, 0x068, 0x06C, 0x070, 0x074, 0x078, 0x07C]
  | 0x06 => [0x044, 0x048, 0x04C, 0x050, 0x068]
  | 0x07 => [0x054, 0x058, 0x05C, 0x060]
  | 0x08 => [0x054, 0x058, 0x05C, 0x060, 0x064]
  | 0x09 => [0x058, 0x05C, 0x060, 0x064]
  | 0x0A => [0x040, 0x044, 0x048, 0x04C, 0x050, 0x058, 0x05C]
  | 0x0B => [0x050, 0x054, 0x058, 0x05C, 0x060, 0x064, 0x068]
  | 0x0C => [0x040, 0x044, 0x048, 0x04C, 0x050]
  | 0x0D => [0x060, 0x064, 0x068]
  | 0x0F => [0x05C, 0x060, 0x064]
  | 0x13 => [0x060, 0x068, 0x06C, 0x074]
  | 0x14 => 0x04C :: (List.range 16).map fun n => 0x10C + 16 * n
  | 0x16 => [0x050, 0x054]
  | _ =>
    if 0x30 ≤ page ∧ page ≤ 0x3F then [0x04C, 0x050, 0x054, 0x058, 0x05C]
    else if 0x40 ≤ page ∧ page ≤ 0x4F then [0x058, 0x05C] else []

/-- CNT_CLR: a write of 1 zeroes every counter of the page; on the CISTERN page the failure and reseed counts too. -/
def Hw.cntClrWrite (h : Hw) (page : Nat) (value : Word) : Hw :=
  if bit value 0 then
    let h := (counterRegs page).foldl (fun h off => h.setReg (page * 0x1000 + off) 0) h
    if page = 0x16 then (h.setF Reg.CISTERN_TRNG_STAT 8 16 0).setF Reg.CISTERN_DRBG_STAT 8 24 0 else h
  else h

/-- Offset of a page's CNT_CLR. -/
def cntClrOff (page : Nat) : Option Nat :=
  match page with
  | 0x00 => some 0x064 | 0x04 => some 0x090 | 0x06 => some 0x06C | 0x07 => some 0x068 | 0x08 => some 0x070 | 0x09 => some 0x07C
  | 0x0A => some 0x064 | 0x0B => some 0x078 | 0x0C => some 0x05C | 0x0D => some 0x06C | 0x0F => some 0x06C | 0x13 => some 0x078
  | 0x14 => some 0x050 | 0x16 => some 0x064
  | _ => if 0x30 ≤ page ∧ page ≤ 0x3F then some 0x068 else if 0x40 ≤ page ∧ page ≤ 0x4F then some 0x064 else none

/-- Fields whose value is taken as the nearest permitted one: first bit, width, least and greatest (each page's chapter). -/
def takenAs (a : Nat) : List (Nat × Nat × Nat × Nat) :=
  let page := pageOf a
  let off := a % 0x1000
  match page, off with
  | 0x05, 0x058 => [(0, 17, 0, 65536)]
  | 0x08, 0x050 => [(0, 8, 10, 255)]
  | 0x09, 0x040 => [(0, 7, 1, 64)]
  | 0x09, 0x044 => [(0, 8, 1, 255)]
  | 0x0B, 0x040 => [(0, 16, 10, 65535)]
  | 0x0D, 0x04C => [(0, 26, 1, 0x3FFFFFF)]
  | 0x0F, 0x04C => [(0, 8, 1, 255)]
  | 0x0F, 0x050 => [(0, 12, 32, 4095)]
  | 0x10, 0x068 => [(0, 16, 1, 65535)]
  | 0x13, 0x044 => [(0, 8, 1, 255)]
  | 0x13, 0x048 => [(0, 16, 10, 65535)]
  | 0x15, 0x054 => [(0, 14, 100, 10000)]
  | 0x1C, 0x044 => [(0, 16, 10, 65535)]
  | 0x1D, 0x048 => [(0, 8, 1, 255)]
  | 0x1F, 0x058 => [(8, 4, 0, 8), (16, 16, 1, 65535)]
  | 0x20, 0x048 => [(2, 14, 1, 0x3FFF)]
  | _, _ =>
    if page = 0x14 ∧ 0x100 ≤ off ∧ off < 0x200 ∧ off % 16 = 0 then [(0, 8, 1, 255), (8, 8, 1, 255), (16, 8, 1, 255), (24, 8, 1, 255)]
    else if page = 0x20 ∧ 0x400 ≤ off ∧ off < 0x600 ∧ off % 8 = 0 then [(0, 16, 1, 65535)]
    else []

/-- A written value with such fields as they are taken. -/
def clampWord (a : Nat) (v : Word) : Word :=
  (takenAs a).foldl (fun v f => setBits v f.1 f.2.1 (min (max (fld v f.1 f.2.1) f.2.2.1) f.2.2.2)) v

/-- A write under the access codes alone: RW and, unless the page is locked, RWL bits take the value, W1C bits clear; a locked
RWL field sets lock_write (R8, R453, R457). -/
def Hw.plainWrite (h : Hw) (a : Nat) (value : Word) : Hw :=
  match rowOf a with
  | none => h
  | some r =>
    let lock := h.locked (pageOf a)
    let set := BitVec.ofNat 32 (if lock then r.rw else r.rw ||| r.rwl)
    let old := h.reg a
    let h := if set ≠ 0 ∨ r.w1c ≠ 0 then h.setReg a (((old &&& ~~~set) ||| (clampWord a value &&& set)) &&& ~~~(value &&& BitVec.ofNat 32 r.w1c)) else h
    if lock ∧ r.rwl ≠ 0 then h.pageFault (pageOf a) .lockWrite else h

/-- A write of SEVTAB: reserved sources keep class 0, and ERR_OUT follows (R411, R416). -/
def Hw.sevtabPlain (h : Hw) (a : Nat) (value : Word) : Hw :=
  if h.locked 0x1B then h.pageFault 0x1B .lockWrite
  else if 0x1B100 ≤ a then h.sevtabWrite a (value &&& 0x1F)
  else
    h.sevtabWrite a (sevClassBits ((a - 0x1B040) / 4) value)

/-- A write of FENCE.CMD (R322, R328, R329). -/
def Hw.fenceCmd (h : Hw) (value : Word) : Hw :=
  match fld value 0 2 with
  | 1 => h.fenceAlloc value
  | 2 => h.fenceFree
  | 3 => h.fenceReset
  | _ => h

/-- A write of EVENT.CMD (R330). -/
def Hw.eventCmd (h : Hw) (value : Word) : Hw :=
  match fld value 0 2 with
  | 1 => h.eventAlloc
  | 2 => h.eventFree
  | 3 => h.pageFault 0x12 .reservedWrite
  | _ => h

/-- A write of SLICE.CMD (R316, R335). -/
def Hw.sliceCmd (h : Hw) (value : Word) : Hw :=
  match fld value 0 2 with
  | 1 => h.bindSlice
  | 2 => h.removeSlice
  | 3 => h.teardownSlice
  | _ => h

/-- A write of CNT.CTL (R443). -/
def Hw.cntCtl (h : Hw) (value : Word) : Hw :=
  let h := if bit value 0 then h.cntSnap else h
  let h := if bit value 2 then h.cntClear else h
  h.setReg Reg.CNT_CTL (value &&& 2)

/-- A write of CNT.EXP_CTL: enable written 1 clears the fault (R445). -/
def Hw.expCtl (h : Hw) (value : Word) : Hw :=
  let h := h.plainWrite Reg.CNT_EXP_CTL value
  if bit value 0 then h.setF Reg.CNT_EXP_STAT 1 1 0 else h

/-- A write of CAP.HOME_SEL: an index that is not below N wraps to 0 (R332). -/
def Hw.homeSel (h : Hw) (value : Word) : Hw :=
  let i := fld value 0 16
  h.setReg Reg.CAP_HOME_SEL (BitVec.ofNat 32 (if h.joined ∧ i < h.homes.length then i else 0))

/-- MBX_DOORBELL: a request is to be handled; a doorbell while one is handled is ignored and counted (R399). -/
def Hw.mbxDoorbell (h : Hw) (value : Word) : Hw :=
  if !bit value 0 then h
  else if h.regBit Reg.ATTEST_MBX_STAT 0 then h.setF Reg.ATTEST_MBX_STAT 8 8 (min (h.regF Reg.ATTEST_MBX_STAT 8 8 + 1) 255)
  else h.setF Reg.ATTEST_MBX_STAT 0 1 1

/-- A write of GATE.WCACHE_INV (R98). -/
def Hw.wcacheInv (h : Hw) (value : Word) : Hw :=
  let h := if bit value 0 then h.wcacheInvAll else h
  if bit value 1 then h.wcacheInvSlice (fld value 16 10) else h

/-- A write of QRING by offset. -/
def Hw.qringWrite (h : Hw) (off : Nat) (value : Word) : Hw :=
  if off = 0x050 then h.qreset value
  else if 0x100 ≤ off ∧ off < 0x900 then
    let n := (off - 0x100) / 32
    match (off - 0x100) % 32 with
    | 0x00 => h.ringBaseWrite n false value
    | 0x04 => h.ringBaseWrite n true value
    | 0x08 => h.ctlWrite n value
    | 0x0C => h.doorbell n .host value.toNat
    | _ => h.plainWrite (0x0E000 + off) value
  else h.plainWrite (0x0E000 + off) value

/-- A write of the SLICE, FENCE or EVENT page by offset. -/
def Hw.objectWrite (h : Hw) (page off : Nat) (value : Word) : Hw :=
  let f := h.regF Reg.FENCE_SEL 0 12
  let e := h.regF Reg.EVENT_SEL 0 10
  let half := fun (v : BitVec 64) (high : Bool) =>
    if high then BitVec.ofNat 64 (v.toNat % 2 ^ 32 + value.toNat * 2 ^ 32) else BitVec.ofNat 64 (v.toNat / 2 ^ 32 * 2 ^ 32 + value.toNat)
  match page, off with
  | 0x10, 0x044 => h.sliceCfgWrite value
  | 0x10, 0x048 => h.sliceCmd value
  | 0x11, 0x044 => h.setFence f { h.fence f with cfg := value &&& 0x1FFFFFF }
  | 0x11, 0x048 => h.setFence f { h.fence f with init := half (h.fence f).init false }
  | 0x11, 0x04C => h.setFence f { h.fence f with init := half (h.fence f).init true }
  | 0x11, 0x050 => h.fenceCmd value
  | 0x12, 0x044 => h.setEvent e { h.event e with cfg := value &&& 0x3F07FF }
  | 0x12, 0x048 => h.eventCmd value
  | _, _ =>
    if page = 0x12 ∧ 0x100 ≤ off ∧ off < 0x180 then h.eventClearMask ((off - 0x100) / 4) value
    else h.plainWrite (page * 0x1000 + off) value

/-- A write of a page of the always-on and management units by offset. -/
def Hw.aonWrite (h : Hw) (page off : Nat) (value : Word) : Hw :=
  let a := page * 0x1000 + off
  match page, off with
  | 0x15, 0x040 => h.fwBaseWrite value
  | 0x18, 0x04C => h.mbxDoorbell value
  | 0x1A, 0x090 => h.histPop value
  | 0x1A, 0x09C => h.faultClearAll value
  | 0x1D, 0x040 => h.resetCmd value
  | 0x1E, 0x058 => h.trigNow value
  | 0x1E, 0x05C => h.wellRearm value
  | 0x1E, 0x078 => h.markGo value
  | 0x1F, 0x040 => h.cntCtl value
  | 0x1F, 0x058 => h.expCtl value
  | 0x22, 0x040 => h.injectSel value
  | 0x22, 0x044 => h.injectCtl value
  | 0x22, 0x04C => h.injectRaise value
  | 0x23, 0x040 => h.debugWrite value
  | _, _ =>
    if page = 0x1A ∧ 0x040 ≤ off ∧ off < 0x070 then h.faultClear ((off - 0x040) / 4) value
    else if page = 0x1B then (if 0x040 ≤ off ∧ off < 0x120 then h.sevtabPlain a value else h)
    else if page = 0x20 ∧ 0x080 ≤ off ∧ off < 0x0C0 then h.icuPendWrite ((off - 0x080) / 4) value
    else if page = 0x20 ∧ 0x0C0 ≤ off ∧ off < 0x100 then h.icuMaskWrite ((off - 0x0C0) / 4) value
    else h.plainWrite a value

/-- A write of a page of the data path by offset. -/
def Hw.dataWrite (h : Hw) (page off : Nat) (value : Word) : Hw :=
  let a := page * 0x1000 + off
  match page, off with
  | 0x01, 0x060 => h.homeSel value
  | 0x02, 0x040 => h.profileWrite value
  | 0x02, 0x048 => h.rungReq value
  | 0x04, 0x050 => h.wcacheInv value
  | 0x06, 0x064 => h.quarRel value
  | 0x08, 0x040 => h.pumpPause (some value)
  | 0x0D, 0x048 => h.bttInvalidate value
  | 0x0F, 0x040 => if h.sched.ctxs = [] then h.plainWrite a value else h.pageFault 0x0F .busyWrite
  | 0x13, 0x040 => h.budgetWrite a value
  | 0x13, 0x050 => h.budgetWrite a value
  | _, _ =>
    if page = 0x0E then h.qringWrite off value
    else if page = 0x10 ∨ page = 0x11 ∨ page = 0x12 then h.objectWrite page off value
    else if page = 0x13 ∧ 0x100 ≤ off ∧ off < 0x1D0 then h.budgetWrite a value
    else if 0x30 ≤ page ∧ page ≤ 0x3F ∧ off = 0x064 then h.sessCtlRestart ⟨page % 16, Nat.mod_lt _ (by decide)⟩ value
    else if 0x40 ≤ page ∧ page ≤ 0x4F ∧ off = 0x040 then h.cluCtl (page % 16) value
    else h.plainWrite a value

/-- A write of the header of a page by offset (R456). -/
def Hw.headerWrite (h : Hw) (page off : Nat) (value : Word) : Hw :=
  match off with
  | 0x00C => h.pageCtlWrite page value
  | 0x018 => h.irqStatWrite page value
  | 0x01C => h.irqEnWrite page value
  | 0x020 => h.irqSetWrite page value
  | 0x024 => h.pageLockWrite page value
  | _ => h

/-- A write of a present page of the register window by a path. A management request that writes a persistent word is
answered when its write has ended (R462). -/
def Hw.regWrite (h : Hw) (a : Nat) (value : Word) (mgmt : Bool) (answer : Option LateAnswer) : Hw :=
  let page := pageOf a
  let off := a % 0x1000 / 4 * 4
  if page = 0x22 ∧ h.joined = true ∧ mgmt = false then h.injectWrite mgmt fun h => h
  else if off < 0x040 then h.headerWrite page off value
  else if (h.rwpWord (page * 0x1000 + off)).isSome then h.mvalWrite (page * 0x1000 + off) value answer
  else if cntClrOff page = some off then h.cntClrWrite page value
  else if page < 0x15 ∨ 0x30 ≤ page then h.dataWrite page off value
  else h.aonWrite page off value

/-- The register is MGMT_ONLY (R466). -/
def mgmtOnly (a : Nat) : Bool := match rowOf (a / 4 * 4) with | some r => r.mgmt | none => false

/-- An access of the Register Port to the register window: OK, DENIED or UNMAPPED (R67, R452). -/
def Hw.regAccess (h : Hw) (a : Nat) (write : Option Word) : Hw :=
  if !pagePresent (pageOf a) then h.unmapped
  else if mgmtOnly a then (h.pageFault (pageOf a) .denied).denied a write.isSome false 0 0
  else match write with
    | some v => (h.regWrite a v false none).emit (.regAnswer 0 0)
    | none =>
      let (h, v) := h.regRead a false
      h.emit (.regAnswer 0 v)

/-- REGISTER_WRITE: an access of the Register Port that has no command of its own: to the register window, or to the slice
window page of a PASID (R67, R452). -/
def Hw.portAccess (h : Hw) (pasid : Option (BitVec 20)) (addr : Nat) (write : Option Word) : Hw :=
  match pasid with
  | some p => h.swAccess p.toNat (addr / 4 * 4) write
  | none => h.regAccess addr write

/-- A write of a register of the header, or of CNT_CLR, of the page named (R452, R456). -/
def Hw.pageWrite (h : Hw) (page : Nat) (f : Hw → Hw) : Hw :=
  if !pagePresent page then h.unmapped
  else (if page = 0x22 then h.injectWrite false f else f h).emit (.regAnswer 0 0)

end Sys2Proof.Machine
end

