-- ==== Sys2Proof/Machine/ScuCore.lean ====
section
/-! DEFINITION. How the SCU answers: the mailbox and management frames, results that wait for their operation's end, secured
sessions, and the SCU_EVENT records (R391, R397 to R399, R405, R407, R434). -/

namespace Sys2Proof.Machine

/-- Path of a message for the SCU (R399). -/
def ScuReq.path : ScuReq → Path
  | .spdm p _ => p
  | .app p _ _ => p
  | .rom .. => .mgmt

/-- Type of the management frames that carry a message (R405). -/
def ScuReq.frameType : ScuReq → Nat
  | .spdm .. => 1
  | .app .. => 2
  | .rom .. => 4

/-- The response of the mailbox written, with its length, and the request no longer in hand (R399). -/
def Hw.mbxReply (h : Hw) (bytes : List Byte) : Hw :=
  let base := (h.reg Reg.ATTEST_MBX_BASE_LO).toNat + 2 ^ 32 * h.regF Reg.ATTEST_MBX_BASE_HI 0 10
  let h := h.dmWrite .mailbox none 0 (base + 0x10000) bytes
  ((h.setReg Reg.ATTEST_MBX_RSP_LEN (BitVec.ofNat 32 (min bytes.length 65536))).setF Reg.ATTEST_MBX_STAT 0 1 0).setIrq 0x18 0

/-- A message sent on the Management Port in frames of up to 1,492 bytes (R405). -/
def Hw.mgmtReply (h : Hw) (type msg : Nat) (bytes : List Byte) : Hw :=
  let n := max 1 ((bytes.length + 1491) / 1492)
  (List.range n).foldl (fun h k => h.emit (.mgmtFrame type msg k n ((bytes.drop (1492 * k)).take 1492))) h

/-- An answer on a path, under a session or none (R399, R405). -/
def Hw.scuReply (h : Hw) (path : Path) (session : Option Nat) (type msg : Nat) (r : Reply) : Hw :=
  let h := h.emit (.reply path session r)
  let bytes := Config.replyBytes session r
  match path with
  | .host => h.mbxReply bytes
  | .mgmt => h.mgmtReply type msg bytes

/-- An answer to a request in hand. -/
def Hw.scuAnswer (h : Hw) (x : Held) (session : Option Nat) (r : Reply) : Hw :=
  h.scuReply x.req.path session x.req.frameType x.msg r

/-- SPDM ERROR (R397). -/
def Hw.scuError (h : Hw) (x : Held) (e : SpdmErr) : Hw := h.scuReply x.req.path none 1 x.msg (.error e)

/-- A secured session of a path (R397). -/
def Hw.secured (h : Hw) (path : Path) (id : Nat) : Option Session :=
  h.scu.sessions.find? fun s => s.id == id && s.path == path && s.up

/-- The operator's credentials stand on the Management Port: a secured session of its path in which MGMT_AUTH has succeeded (R9, R406). -/
def Hw.operatorIn (h : Hw) : Bool := h.scu.sessions.any fun s => s.path == .mgmt && s.up && s.auth

/-- A write of a MGMT_ONLY register over the Management Port: it has no effect without the operator's credentials (R9, R407). -/
def Hw.mgmtWrite (h : Hw) (f : Hw → Hw) : Hw := h.whenReady fun h => if h.operatorIn then f h else h

/-- A session used: it becomes the one used last (R397). -/
def Hw.touchSession (h : Hw) (id : Nat) : Hw :=
  { h with scu := { h.scu with
      sessions := (h.scu.sessions.filter fun s => s.id != id) ++ h.scu.sessions.filter fun s => s.id == id } }

/-- A session changed. -/
def Hw.modSession (h : Hw) (id : Nat) (f : Session → Session) : Hw :=
  { h with scu := { h.scu with sessions := h.scu.sessions.map fun s => if s.id = id then f s else s } }

/-- Every SPDM session ends, and with them a join in progress (R391). -/
def Hw.endSessions (h : Hw) : Hw := { h with scu := { h.scu with sessions := [], join := none } }

/-- Who is answered when an operation ends. -/
def Held.late (x : Held) (session : Option Nat) (op : Nat) : LateAnswer := ⟨x.req.path, session, x.msg, op, 0⟩

/-- A late answer: InvalidSession where its session has ended meanwhile (R391). -/
def Hw.scuLate (h : Hw) (a : LateAnswer) (r : Reply) : Hw :=
  match a.session with
  | none => h.scuReply a.path none 4 a.msg r
  | some id =>
    if (h.secured a.path id).isSome then h.scuReply a.path (some id) 2 a.msg r
    else h.scuReply a.path none 1 a.msg (.error .invalidSession)

/-- The operation code of MGMT_RESULTs that answer a message that is no MGMT_OP: 0x100 and the message's type (R398). -/
def appOp (type : Nat) : Nat := 0x100 + type

/-- MGMT_RESULT, recorded in MGMT.LAST_OP where it ends a management operation (R407). -/
def Hw.opResult (h : Hw) (a : LateAnswer) (code detail : Nat) (body : List Word) : Hw :=
  let h := if 0x100 ≤ a.op then h
    else (h.setReg Reg.MGMT_LAST_OP (BitVec.ofNat 32 (a.op + 256 * code + 2 ^ 31))).setIrq 0x19 0
  h.scuLate a (.result (a.op % 256) code detail body)

/-- Word of eight digest bytes in an SCU_EVENT record (R434). -/
def digestWord (d : BitVec 384) (k : Nat) : Word := BitVec.ofNat 32 (ofBytes (((beBytes d.toNat 48).drop (4 * k)).take 4))

/-- An SCU_EVENT record (R434). -/
def Hw.scuEvent (h : Hw) (kind result about : Nat) : Hw :=
  let d := match h.scu.running with | some f => f.digest | none => 0
  h.wellEvent 0x06 (BitVec.ofNat 32 (kind + 256 * result)) (BitVec.ofNat 32 about) (digestWord d 0) (digestWord d 1)

/-- SCU firmware serves requests (R385). -/
def Hw.scuUp (h : Hw) : Bool := h.regBit 0x15010 0

/-- The ROM, or firmware without keys, serves only what R385 allows a ROM-only block (R385, R471). -/
def Hw.romServes (h : Hw) : Bool := h.regBit 0x15010 1 || (h.scu.running.isSome && h.prime.entropyFailed)

/-- Result of the last update (R388). -/
def Hw.setUpdLast (h : Hw) (v : Nat) : Hw := h.setF Reg.SCU_UPD_STAT 4 3 v

/-- Block address of the firmware partition (R383). -/
def Hw.fwBase (h : Hw) : Nat := (h.reg Reg.SCU_FW_BASE_LO).toNat + 2 ^ 32 * h.regF Reg.SCU_FW_BASE_HI 0 10

/-- A write of the firmware partition at an offset (R383). -/
def Hw.partitionWrite (h : Hw) (offset : Nat) (data : List Byte) : Hw := h.dmWrite .scuImage none 6 (h.fwBase + offset) data

/-- The read of a bank's image, of which a command has what the read returns (R292, R383). DESIGN CHOICE (log entry 24). -/
def Hw.bankRead (h : Hw) (bank : Nat) (img : FwImage) : Hw := h.dmRead .scuImage none 6 (h.fwBase + 0x40000 * bank) img.length

/-- The read of the mailbox's request (R399). DESIGN CHOICE (log entry 24). -/
def Hw.mbxRead (h : Hw) : Hw :=
  h.dmRead .mailbox none 0 ((h.reg Reg.ATTEST_MBX_BASE_LO).toNat + 2 ^ 32 * h.regF Reg.ATTEST_MBX_BASE_HI 0 10) (h.regF Reg.ATTEST_MBX_REQ_LEN 0 17)

end Sys2Proof.Machine
end

