-- ==== Sys2Proof/Machine/Identity.lean ====
section
/-! DEFINITION. SCU firmware images and the keys that follow from them: the checks of the ROM, the derivation of the identity
seeds, and the certificates the block serves (R368 to R370, R383, R384, R391, R398). -/

namespace Sys2Proof.Machine

/-- A little-endian field of an image header (R383). -/
def imgField (img : FwImage) (off n : Nat) : Nat := ofBytes ((img.drop off).take n)

/-- The code of an image (R383). -/
def imgCode (img : FwImage) : List Byte := (img.drop 0x1400).take (imgField img 0x010 4)

/-- The state has root seeds: first fuse word of its seed (R367, R377). -/
def seedWord : Lcs → Option Nat
  | .test => some 4 | .dev => some 12 | .prod => some 20 | .prodOpen => some 28 | .rma => some 36
  | .raw => none | .scrap => none

/-- Class of the code that a state may run; none where signatures are not read (R377, R384). -/
def codeClass : Lcs → Option Nat
  | .dev => some 0 | .prod => some 1 | .prodOpen => some 1 | .rma => some 2 | _ => none

/-- A ROM key is revoked (R367). -/
def Hw.keyRevoked (h : Hw) (cls key : Nat) : Bool := bit (h.fuse 48) (4 * cls + key)

/-- The signature of an image verifies under a ROM key that is not revoked (R384). -/
def Hw.imageSigned (h : Hw) (img : FwImage) (cls : Nat) : Bool :=
  let key := imgField img 0x00F 1
  imgField img 0x00E 1 == cls && decide (key < 4) && !h.keyRevoked cls key &&
    Config.verifyRom cls key (img.take 0x48) ((img.drop 0x48).take 4723)

/-- The ROM accepts an image (R384). -/
def Hw.imageOk (h : Hw) (img : FwImage) : Bool :=
  let size := imgField img 0x010 4
  imgField img 0x000 4 == 0x57564E55 && imgField img 0x004 4 == 1 && decide (1 ≤ size ∧ size ≤ 196608) &&
    decide (imgField img 0x014 4 < size) && (img.drop 0x018).take 48 == beBytes (Config.sha384 (imgCode img)).toNat 48 &&
    decide ((h.perVal 1).toNat ≤ imgField img 0x00C 2) &&
    match h.lcsState with
    | .raw | .test => imgField img 0x00E 1 == 0xFF
    | .scrap => false
    | s => match codeClass s with
      | some c => h.imageSigned img c
      | none => false

/-- What reports name of an image (R401). -/
def fwInfo (bank : Nat) (img : FwImage) : FwInfo :=
  ⟨bank, Config.sha384 (imgCode img), BitVec.ofNat 32 (imgField img 0x008 4), imgField img 0x00C 2⟩

/-- The device serial, 16 bytes (R367). -/
def Hw.serial (h : Hw) : BitVec 128 := BitVec.ofNat 128 (ofBytes ((List.range 4).flatMap fun k => leBytes (h.fuse (44 + k)).toNat 4))

/-- The seed of the state in force; the other seed words cannot be read (R368). -/
def Hw.rootSeed (h : Hw) : Option (List Byte) :=
  (seedWord h.lcsState).map fun w => (List.range 8).flatMap fun k => leBytes (h.fuse (w + k)).toNat 4

/-- Metadata of a slot that the SCU derives for the block (R361). The usages of the block's own slots are the model's own.
PRESUMED (log entry 43). -/
def derivedSlot (kind usage : Nat) : Slot := { Slot.free with kind := kind, origin := 2, system := true, usage := usage }

/-- 384 bits placed in two slots (R361, R366). -/
def Hw.placeWide (h : Hw) (k : Nat) (s : Slot) (b : List Byte) : Hw :=
  (h.placeKey k s (BitVec.ofNat 256 (ofBytes (b.take 32)))).placeKey (k + 1) s (BitVec.ofNat 256 (ofBytes (b.drop 32)))

/-- 384 bits that two slots hold. -/
def Hw.wideKey (h : Hw) (k : Nat) : List Byte := keyBytes (h.slot k).key ++ (keyBytes (h.slot (k + 1)).key).take 16

/-- The seeds of a pair of signing keys (R369). -/
def Hw.placeSeeds (h : Hw) (k : Nat) (key : List Byte) (label : String) (usage : Nat) : Hw :=
  (h.placeKey k (derivedSlot 2 usage) (kdfKey key label [1])).placeKey (k + 1) (derivedSlot 2 usage) (kdfKey key label [2])

/-- CDI and the alias seeds of the firmware that runs (R369, R391). -/
def Hw.deriveAlias (h : Hw) : Hw :=
  match h.scu.running with
  | some f =>
    if !(h.slot 0).live then h
    else
      let cdi := kdf (h.wideKey 0) "UNVIN CDI" (beBytes f.digest.toNat 48) 384
      (h.placeWide 2 (derivedSlot 1 0x40) cdi).placeSeeds 6 cdi "UNVIN ALIAS" 0xA0
  | none => h

/-- SR, CDI and the identity seeds (R369, R370); a state without a seed derives none (R377). -/
def Hw.deriveIdentity (h : Hw) : Hw :=
  match h.rootSeed with
  | none => h.eraseSlots ((List.range 10))
  | some seed =>
    let sr := kdf seed "UNVIN ROOT" (leBytes h.serial.toNat 16) 384
    let h := (h.placeWide 0 (derivedSlot 1 0x40) sr).placeSeeds 4 sr "UNVIN DEVICEID" 0xA0
    (h.placeSeeds 8 sr "UNVIN MGMT" 0x20).deriveAlias

/-- The order of the base point of P-384 (FIPS 186-5). -/
def p384Order : Nat :=
  0xFFFFFFFFFFFFFFFFFFFFFFFFFFFFFFFFFFFFFFFFFFFFFFFFC7634D81F4372DDF581A0DB248B0A77AECEC196ACCC52973

/-- An ECDSA P-384 private key from its seed (R369). -/
def ecdsaPrivate (seed : List Byte) : List Byte :=
  beBytes (ofBytes (kdf seed "UNVIN ECDSA" [] 448).reverse % (p384Order - 1) + 1) 48

/-- The seed in a slot. -/
def Hw.seedIn (h : Hw) (k : Nat) : List Byte := keyBytes (h.slot k).key

/-- Signature by the ECDSA key whose seed a slot holds; empty where the slot holds none. -/
def Hw.signEc (h : Hw) (k : Nat) (msg : List Byte) : List Byte :=
  if (h.slot k).live then Config.sign (ecdsaPrivate (h.seedIn k)) msg else []

/-- Signature by the alias ML-DSA key. -/
def Hw.signMl (h : Hw) (msg : List Byte) : List Byte := if (h.slot 7).live then Config.sign (h.seedIn 7) msg else []

/-- The block holds the alias keys of the firmware that runs (R403). -/
def Hw.hasAlias (h : Hw) : Bool := (h.slot 6).live && (h.slot 7).live

/-- The DeviceID certificate taken from the store, where its key is DeviceID's (R398). -/
def Hw.takeCert (h : Hw) (store : List Byte) : Hw :=
  let ok := (h.slot 4).live && Config.certKey store == Config.publicOf (ecdsaPrivate (h.seedIn 4))
  ({ h with scu := { h.scu with cert := if ok then some store else none } } : Hw).setF Reg.SCU_FW_STAT 2 1 (b2n (!ok))

/-- Slot of the leaf key's seed of a certificate slot (R398). -/
def leafSlot : Nat → Nat
  | 0 => 6 | 1 => 8 | _ => 4

/-- The chain of a certificate slot; none where it is empty (R398). -/
def Hw.certChain (h : Hw) (slot : Nat) : Option (List Byte) :=
  match h.scu.cert with
  | none => none
  | some c =>
    if slot = 2 then some c
    else if slot < 2 then some (c ++ Config.issue (ecdsaPrivate (h.seedIn 4)) (Config.publicOf (ecdsaPrivate (h.seedIn (leafSlot slot)))))
    else none

/-- SCU registers that show the firmware that runs (R385). -/
def Hw.showFirmware (h : Hw) : Hw :=
  match h.scu.running with
  | some f => ((h.setF Reg.SCU_FW_STAT 1 1 f.bank).setF Reg.SCU_FW_STAT 16 16 f.svn).setReg Reg.SCU_FW_VERSION f.version
  | none => h

end Sys2Proof.Machine
end

