-- ==== Sys2Proof/Machine/Ide.lean ====
section
/-! DEFINITION. Keys of host links: what is delivered over the Key Delivery Port, when, and who is answered (R22, R74, R75,
R189 to R191). -/

namespace Sys2Proof.Machine

/-- The delivery at the head driven on the Key Delivery Port (R74); the fixed part of the initial IV is open. -/
def Hw.ideDrive (h : Hw) : Hw :=
  match h.ide.pending with
  | d :: _ => (h.emit (.keyDelivery d.stream d.sub d.dir d.kset d.share0 d.share1 (h.freeVal 32))).tookFree
  | [] => h

/-- A delivery queued; it is driven at once when the port is free (R74). -/
def Hw.idePush (h : Hw) (d : KeyDelivery) : Hw :=
  let idle := h.ide.pending == []
  let h := { h with ide := { h.ide with pending := h.ide.pending ++ [d] } }
  if idle then h.ideDrive else h

/-- A fresh key for one sub-stream and direction, as two fresh shares, held in a transient slot while one is free (R74, R366, R369). -/
def Hw.ideKey (h : Hw) (stream sub : Nat) (dir kset : Bool) : Hw :=
  let key : BitVec 256 := h.freeVal 256
  let h := h.tookFree
  let mask : BitVec 256 := h.freeVal 256
  let h := h.tookFree
  let slot := h.freeTransient
  let h := match slot with
    | some k => h.placeKey k { Slot.free with kind := 0, origin := 1, system := true, usage := 0x10 } key
    | none => h
  h.idePush ⟨stream, sub, dir, kset, false, mask, mask ^^^ key, slot⟩

/-- A zero key: two equal random shares (R190). -/
def Hw.ideZero (h : Hw) (stream sub : Nat) (dir kset : Bool) : Hw :=
  let mask : BitVec 256 := h.freeVal 256
  h.tookFree.idePush ⟨stream, sub, dir, kset, true, mask, mask, none⟩

/-- The six keys of a key set: three sub-streams, both directions (R189, R190). -/
def ideSix : List (Nat × Bool) := [(0, false), (0, true), (1, false), (1, true), (2, false), (2, true)]

/-- The key set into which the next keys of a stream go: the other one once a set has been delivered whole (R190). -/
def Hw.ideNextSet (h : Hw) (s : Nat) : Bool := decide (s ∈ h.ide.open_) && !(h.ide.kset.get 0 s / 4 % 2 == 1)

/-- A delivery to the stream is in progress (R191). -/
def Hw.ideBusy (h : Hw) (s : Nat) : Bool := h.ide.pending.any fun d => d.stream == s

/-- Six fresh keys for a stream (R190). -/
def Hw.ideDeliver (h : Hw) (s : Nat) : Hw :=
  let set := h.ideNextSet s
  if h.ideBusy s then h else ideSix.foldl (fun h x => h.ideKey s x.1 x.2 set) h

/-- IDE streams of the hosts that the policy trusts (R22, R190). -/
def Hw.ideStreams (h : Hw) : List Nat :=
  match h.dom.policy with
  | some p => if h.joined then p.hosts.filter fun s => decide (s < 256) else []
  | none => []

/-- Fresh keys for every stream of a trusted host (R190). -/
def Hw.ideAll (h : Hw) : Hw := h.ideStreams.foldl (fun h s => h.ideDeliver s) h

/-- Zero keys for everything that has been delivered, the key on the port among it; what still waits behind it is not delivered,
and who asked for it is told NOT_TRUSTED (R190, R191). -/
def Hw.ideZeroAll (h : Hw) : Hw :=
  let late := h.ide.pending.drop 1
  let h := late.foldl (fun h x => h.eraseSlots x.slot.toList) h
  let head := h.ide.pending.take 1
  let kset := head.foldl (fun (t : Tbl Nat) d =>
    let old := t.get 0 d.stream
    let set := if d.kset then 2 else 1
    t.put 0 d.stream (if d.zero || old / set % 2 = 1 then old else old + set)) h.ide.kset
  let asked := h.ide.asked
  let h := { h with ide := { h.ide with pending := head, kset := kset, asked := [] } }
  let h := asked.foldl (fun h p => h.scuLate p.2 (.ideDone p.1 1)) h
  h.ide.kset.foldl (fun h p =>
    [false, true].foldl (fun h set =>
      if p.2 / (if set then 2 else 1) % 2 = 1 then ideSix.foldl (fun h x => h.ideZero p.1 x.1 x.2 set) h else h) h) h

/-- IDE_REFRESH_TIMER: LINK.IDE_REFRESH has passed since the last delivery (R190). -/
def Hw.ideTimer (h : Hw) : Hw :=
  if h.regF Reg.LINK_IDE_REFRESH 0 16 = 0 ∨ h.joined = false ∨ h.drbgReady = false ∨ h.dom.leaving ≠ [] then h else h.ideAll

/-- IDE_REFRESH_DONE to those who asked for a stream (R191). -/
def Hw.ideAnswer (h : Hw) (s status : Nat) : Hw :=
  let mine := h.ide.asked.filter fun p => p.1 == s
  let h := { h with ide := { h.ide with asked := h.ide.asked.filter fun p => p.1 != s } }
  mine.foldl (fun h p => h.scuLate p.2 (.ideDone s status)) h

/-- IDE_REFRESH_REQ of a session of the host path (R191). -/
def Hw.ideRequest (h : Hw) (a : LateAnswer) (s : Nat) : Hw :=
  if !decide (s ∈ h.ideStreams) || h.dom.leaving != [] then h.scuLate a (.ideDone s 1)
  else if h.ideBusy s then h.scuLate a (.ideDone s 2)
  else ({ h with ide := { h.ide with asked := h.ide.asked ++ [(s, a)] } } : Hw).ideDeliver s

/-- The slot of a delivery that has ended is erased, and the shares are driven to 0 (R74, R365). -/
def Hw.ideTaken (h : Hw) (d : KeyDelivery) : Hw := (h.eraseSlots d.slot.toList).emit .keyClear

/-- A key has been taken (R74, R190). -/
def Hw.ideAccepted (h : Hw) (d : KeyDelivery) : Hw :=
  let h := h.ideTaken d
  let rest := h.ide.pending.drop 1
  let zero := d.zero
  let old := h.ide.kset.get 0 d.stream
  let set := if d.kset then 2 else 1
  let last := !(rest.any fun x => x.stream == d.stream)
  let seen := if old / set % 2 = 1 then old else old + set
  let more := rest.any fun x => x.stream == d.stream && x.kset == d.kset
  let now := if zero then (if more || old / set % 2 = 0 then old else old - set) else if last then seen % 4 + 4 * b2n d.kset else seen
  let h : Hw := { h with ide := { h.ide with
      pending := rest
      kset := h.ide.kset.put 0 d.stream now
      open_ := if zero then h.ide.open_.filter (· != d.stream)
        else if last && !decide (d.stream ∈ h.ide.open_) then h.ide.open_ ++ [d.stream] else h.ide.open_ } }
  let h := h.ideDrive
  if last && !zero then h.ideAnswer d.stream 0 else h

/-- A delivery fails: KEY_DELIVERY_FAIL, and the stream's other keys of this delivery are not sent (R75, R191). A zero key that
fails leaves the others to be delivered. -/
def Hw.ideFailed (h : Hw) (d : KeyDelivery) : Hw :=
  let zero := d.zero
  let rest := h.ide.pending.drop 1
  let gone := if zero then [] else rest.filter fun x => x.stream == d.stream
  let h := (gone.foldl (fun h x => h.eraseSlots x.slot.toList) h).ideTaken d
  let h := { h with ide := { h.ide with pending := if zero then rest else rest.filter fun x => x.stream != d.stream } }
  let h := (h.raise 201 (detailWord none none 0 0) 0 0 0).ideDrive
  h.ideAnswer d.stream 3

end Sys2Proof.Machine
end

