-- ==== Sys2Proof/Machine/Lifecycle.lean ====
section
/-! DEFINITION. Life-cycle transitions: the checks of an attempt, what is erased before it, the programming of seeds and
codewords, and its end (R73, R379 to R382, R428, R441). -/

namespace Sys2Proof.Machine

/-- The transition is permitted, and its token's class; none for one that needs no token (R379). -/
def lcsPermitted : Lcs → Lcs → Option (Option Nat)
  | .raw, .test => some none
  | .test, .dev => some (some 0)
  | .dev, .prod => some (some 1)
  | .prod, .prodOpen => some (some 1)
  | .prod, .rma => some (some 2)
  | .prodOpen, .rma => some (some 2)
  | .scrap, .scrap => none
  | _, .scrap => some none
  | _, _ => none

/-- A token authorises the transition (R379). -/
def Hw.tokenOk (h : Hw) (cls : Nat) (target : Lcs) (t : Token) : Bool :=
  t.cls == cls && decide (t.key < 4) && !h.keyRevoked cls t.key && t.serial == h.serial && t.source == h.lcsState.code &&
    t.target == target.code && t.nonce == h.reg Reg.LCS_NONCE && Config.verifyRom cls t.key (Config.tokenBytes t) t.signature

/-- Result with which an attempt is refused; none when it starts (R379). DEDUCED (log entry 13). -/
def Hw.lcsRefusal (h : Hw) (target : Lcs) (token : Option Token) : Option Nat :=
  match lcsPermitted h.lcsState target with
  | none => some 6
  | some cls =>
    if target ≠ .scrap ∧ h.joined = true then some 3
    else if target ≠ .scrap ∧ (match h.lcs.railAt with | some t => decide (h.clk.now ≤ t + 1000000) | none => false) = true then some 4
    else match cls, token with
      | none, _ => none
      | some c, some t => if h.tokenOk c target t then none else some 2
      | some _, none => some 2

/-- An attempt ends with a result: the nonce is drawn anew, and the request is answered (R379, R407). -/
def Hw.lcsEnd (h : Hw) (target : Lcs) (result : Nat) : Hw :=
  let answer := h.lcs.answer
  let h := (h.setReg Reg.LCS_TRANS_STAT (BitVec.ofNat 32 (target.num + 16 * result))).setIrq 0x17 0
  let h := ((h.setReg Reg.LCS_NONCE (h.freeVal 32)).tookFree).scuEvent 6 result target.num
  let h := { h with lcs := { h.lcs with target := none, answer := none } }
  match answer with
  | some a => h.opResult a (if result = 1 then 0 else 3) result []
  | none => h

/-- Words 4 to 7 of every Well record zeroed; the headers stay (R441). -/
def Hw.wellBlank (h : Hw) : Hw :=
  let blank := fun (r : WellRec) => { r with w4 := 0, w5 := 0, w6 := 0, w7 := 0 }
  { h with well := { h.well with
      ring := h.well.ring.map fun p => (p.1, blank p.2)
      staging := h.well.staging.map fun s => match s with
        | .record r => .record (blank r)
        | .trigger r => .trigger (blank r)
        | .lostTrigger => .lostTrigger } }

/-- The whole Well cleared (R382). -/
def Hw.wellClear (h : Hw) : Hw := { h with well := { h.well with ring := [], bad := [], staging := [] } }

/-- The freshness table zero-filled (R198, R381). -/
def Hw.zeroFresh (h : Hw) : Hw :=
  let base := (h.reg Reg.BRU_FRESH_BASE_LO).toNat + 2 ^ 32 * h.regF Reg.BRU_FRESH_BASE_HI 0 20
  ({ h with bru := { h.bru with fresh := [] } } : Hw).dmWrite .freshZero none 4 base (List.replicate 524288 0)

/-- Every slot erased, without the flag that STAT.wiped shows (R379). -/
def Hw.eraseAll (h : Hw) : Hw :=
  let h := h.eraseSlots (h.cis.slots.map (·.1))
  { h with cis := { h.cis with sets := [], transient := [] } }

/-- The domain ends with its keys: every link session is gone (R382). -/
def Hw.domainGone (h : Hw) : Hw :=
  (List.range 16).foldl (fun h p => (h.sessionOver p 5).sessionClear p .none) (h.joinLost.tapSelect h.tap.instr)

/-- What is erased before a transition programs a fuse (R379, R381, R382). -/
def Hw.lcsErase (h : Hw) (target : Lcs) : Hw :=
  match target with
  | .prod => h.eraseAll
  | .prodOpen => h.wipeCistern.zeroFresh.wellBlank
  | .rma => h.eraseAll.wellBlank
  | .scrap => (if h.joined then h.domainGone else h).wipeCistern.wellClear
  | _ => h

/-- Bits of a codeword's programming in its two passes: those of no intermediate code first (R380). -/
def codePasses (source target : Lcs) : List Word :=
  let between := [Lcs.test, .dev, .prod, .prodOpen, .rma].filter fun c =>
    c != source && c != target && source.code &&& c.code == source.code && c.code &&& target.code == c.code
  let mid := between.foldl (fun (w : Word) c => w ||| c.code) 0
  let fresh := target.code &&& ~~~source.code
  [fresh &&& ~~~mid, fresh &&& mid].filter fun w => w != 0

/-- Programming of one codeword (R380). -/
def codeOps (source target : Lcs) (word : Nat) : List FuseOp := (codePasses source target).map fun d => ⟨word, d⟩

/-- Programming of a seed: eight words drawn from the TRNG, or every bit of words 3 to 63 on entry to SCRAP (R368, R379, R382). -/
def Hw.seedOps (h : Hw) (target : Lcs) : List FuseOp :=
  match target, seedWord target with
  | .scrap, _ => (List.range 61).map fun k => ⟨3 + k, 0xFFFFFFFF⟩
  | _, some w => (List.range 8).map fun k => ⟨w + k, BitVec.ofNat 32 (bits (h.freeVal 256).toNat (32 * k) 32)⟩
  | _, none => []

/-- The operation at the head is driven on the Fuse Port (R73). -/
def Hw.fuseDrive (h : Hw) : Hw :=
  match h.lcs.prog with
  | o :: _ => h.emit (.fuse o.word o.data)
  | [] => h

/-- Erasures before a debug reopen that are not confirmed: writes of the freshness table that have not ended (R381). -/
def Hw.eraseOpen (h : Hw) : Bool :=
  h.lcs.target == some .prodOpen && ((h.dmp.open_.any fun t => t.use == .freshZero) || h.dmp.waiting.any fun a => a.use == .freshZero)

/-- A write of the freshness table has ended: with the last of them the programming of a debug reopen begins (R381). A write that
fails has ended too. DESIGN CHOICE (log entry 36). -/
def Hw.eraseConfirmed (h : Hw) : Hw := if h.lcs.target = some .prodOpen ∧ h.eraseOpen = false then h.fuseDrive else h

/-- A transition starts: the erasures, then the seed, then words 0, 1 and 2 (R379, R380). -/
def Hw.lcsStart (h : Hw) (target : Lcs) (a : LateAnswer) : Hw :=
  let h := h.lcsErase target
  let ops := h.seedOps target ++ (List.range 3).flatMap fun w => codeOps h.lcsState target w
  let h := (h.setReg Reg.LCS_TRANS_STAT (BitVec.ofNat 32 (target.num + 128))).tookFree
  let idle := h.lcs.prog == []
  let h := { h with lcs := { h.lcs with prog := h.lcs.prog ++ ops, target := some target, answer := some a } }
  if idle && !h.eraseOpen then h.fuseDrive else h

/-- LCS_TRANSITION (R379): BUSY during an update, during a transition, and once one has been programmed. -/
def Hw.lcsRequest (h : Hw) (a : LateAnswer) (target : Nat) (token : Option Token) : Hw :=
  let t := Lcs.ofNum target
  if 2 ≤ h.updPhase ∨ h.lcs.target.isSome = true ∨ h.regBit Reg.LCS_STATE 4 = true then h.opResult a 2 0 []
  else if 6 < target then h.opResult a 4 0 []
  else match h.lcsRefusal t token with
    | some r => ({ h with lcs := { h.lcs with answer := some a } } : Hw).lcsEnd t r
    | none => h.lcsStart t a

/-- The codewords are programmed: the new state is pending, and a chip reset is requested (R380, R438). -/
def Hw.lcsDone (h : Hw) (target : Lcs) : Hw :=
  let was := h.fcu.chipRst
  let h := ((h.setF Reg.LCS_STATE 4 1 1).chipReset).lcsEnd target 1
  if was then h else h.wellChip

/-- What follows the end of a programming operation: the next one, or the end of the transition (R380). -/
def Hw.fuseNext (h : Hw) : Hw :=
  match h.lcs.target with
  | none => h.fuseDrive
  | some t => if !h.scuUp && !h.romServes then h else if h.lcs.prog = [] then h.lcsDone t else h.fuseDrive

/-- FUSE_FAIL ends a transition (R73, R380). DEDUCED (log entry 36). -/
def Hw.fuseFail (h : Hw) : Hw :=
  let h := h.raise 206 (detailWord none none 0 0) 0 0 0
  match h.lcs.target with
  | some t => h.lcsEnd t 5
  | none => h

/-- FUSE_PROGRAM_DONE: FU_BUSY has fallen, with or without FU_ERR, and the array is read again (R73). Bits of a failed operation
are open. -/
def Hw.fuseProgramDone (h : Hw) (n : Nv) (err : Bool) : Hw × Nv :=
  match h.eraseOpen, h.lcs.prog with
  | true, _ => (h, n)
  | _, [] => (h, n)
  | _, o :: rest =>
    let data := if err then o.data &&& h.freeVal 32 else o.data
    let fuses := n.fuses.put 0 o.word (n.fuses.get 0 o.word ||| data)
    let h := if err then h.tookFree else h
    let h := { h with lcs := { h.lcs with fuses := fuses, stalled := false, prog := if err then [] else rest } }
    (if err then h.fuseFail else h.fuseNext, { n with fuses := fuses })

/-- FU_BUSY_STALL: FU_BUSY has been 1 for more than 1 ms (R73). The operation that runs is not taken back. -/
def Hw.fuBusyStall (h : Hw) : Hw :=
  if h.lcs.prog = [] ∨ h.lcs.stalled = true ∨ h.eraseOpen = true then h
  else ({ h with lcs := { h.lcs with stalled := true, prog := h.lcs.prog.take 1 } } : Hw).fuseFail

/-- A transition that an SCU reset cut off (R428). -/
def Hw.lcsResume (h : Hw) : Hw :=
  match h.lcs.target with
  | none => h
  | some t =>
    let left := (List.range 3).filter fun w => h.fuse w != t.code
    if left.length = 0 then h.lcsDone t
    else if left.length = 1 then
      let idle := h.lcs.prog == []
      let h := { h with lcs := { h.lcs with prog := h.lcs.prog ++ left.map fun w => ⟨w, t.code &&& ~~~h.fuse w⟩ } }
      if idle then h.fuseDrive else h
    else h.lcsEnd t 5

end Sys2Proof.Machine
end

