-- ==== Sys2Proof/Machine/Report.lean ====
section
/-! DEFINITION. Attestation reports and measurements, MEASURE, and key certificates (R280, R375, R376, R400 to R404). -/

namespace Sys2Proof.Machine

/-- The next value of the report counter (R401). -/
def Hw.reportTick (h : Hw) : Hw × Nat :=
  let n := (h.reg Reg.ATTEST_REPORT_CNT_LO).toNat + 2 ^ 32 * (h.reg Reg.ATTEST_REPORT_CNT_HI).toNat + 1
  ((h.setReg Reg.ATTEST_REPORT_CNT_LO (BitVec.ofNat 32 n)).setReg Reg.ATTEST_REPORT_CNT_HI (BitVec.ofNat 32 (n / 2 ^ 32)), n % 2 ^ 64)

/-- A region record (R401 key 15). -/
def regionRec (p : Nat × Region) : RegionRec := ⟨p.1, p.2.base, p.2.size, p.2.cls, p.2.lqFull, p.2.lanes2, p.2.probeOk⟩

/-- The valid regions in index order (R401). -/
def Hw.regionRecs (h : Hw) : List RegionRec := h.regions.table.filterMap fun p => p.2.map fun e => regionRec (p.1, e)

/-- Health of an engine domain (R401 key 17): 0 OK, 1 FENCED, 2 RESETTING. -/
def Hw.domainHealth (h : Hw) (ds : List Domain) : Nat :=
  match h.resets.find? fun r => decide (r.dom ∈ ds) with
  | none => 0
  | some r => match r.phase with
    | .fence | .drain => 1
    | .clear | .test => 2

/-- Health of the clusters and engines (R401 key 17, R402). -/
def Hw.health (h : Hw) : List Nat × Nat × Nat × Nat × Nat :=
  ((List.range 16).map fun n => h.cluState n, h.domainHealth [.bru, .block], h.domainHealth [.pump, .block], h.domainHealth [.block],
    h.domainHealth [.scu, .block])

/-- The digest of a measurement register: SHA-384 finalised on a copy of its state (R404). -/
def MeasReg.digest (m : MeasReg) : BitVec 384 := Config.sha384 m.data

/-- Measurement registers in use (R401 key 19). -/
def Hw.measEntries (h : Hw) : List MeasEntry :=
  (h.scu.meas.filter fun p => p.2.used).map fun p => ⟨p.1, p.2.kind, p.2.owner, p.2.data.length, p.2.digest⟩

/-- A report or, with `part`, a region part of one (R401); `counter` is its report counter. -/
def Hw.report (h : Hw) (kind counter : Nat) (nonce : List Byte) (part : Option Nat) : Report :=
  let recs := h.regionRecs
  let parts := max 1 ((recs.length + 1023) / 1024)
  let k := part.getD 0
  let whole := part.isNone
  { kind := kind, counter := counter, resetGen := (h.reg Reg.SCU_RESET_GEN).toNat, time := h.clk.now, nonce := nonce
    serial := h.serial
    member := if h.joined then some h.memberId else none
    lcs := if whole then h.lcsState.num else 0
    debug := if whole then (h.tapAllow, bit h.debugStat 0, bit h.debugStat 2) else (0, false, false)
    fw := if whole then h.scu.running.map fun f => (f, (h.perVal 1).toNat, Config.romDigest) else none
    staged := if kind = 2 then h.scu.staged else none
    policy := if whole && h.joined then h.dom.policy.map fun p => (h.scu.policyDigest, p.domainId, p.homeMap.length) else none
    trusted := match h.dom.policy with
      | some p => if whole && h.joined then (p.switches, p.trays, p.hosts) else ([], [], [])
      | none => ([], [], [])
    slices := if whole then (h.obj.slices.filter fun p => p.2.st != .free).map fun p => (p.1, p.2.pasid, p.2.st.num, p.2.quar) else []
    regions := (recs.length, Config.sha384 (recs.flatMap Config.regionBytes), (recs.drop (1024 * k)).take 1024)
    part := some (k, parts)
    health := if whole then h.health else ([], 0, 0, 0, 0)
    profile := if whole then h.reg Reg.PWR_PROFILE_ACT else 0
    meas := if whole && kind != 0 then h.measEntries else [] }

/-- A report counted and signed by both alias keys (R401). -/
def Hw.signReport (h : Hw) (kind : Nat) (nonce : List Byte) (part : Option Nat) : Hw × Reply :=
  let (h, n) := h.reportTick
  let r := h.report kind n nonce part
  let bytes := Config.reportBytes r
  (h, .report r (h.signEc 6 bytes) (h.signMl bytes))

/-- Content of a measurement index; none where it is absent (R400). -/
def Hw.measIndex (h : Hw) (i : Nat) : Option (List Byte) :=
  let digest := fun (d : BitVec 384) => beBytes d.toNat 48
  if i = 1 then some (digest Config.romDigest)
  else if i = 2 then h.scu.running.map fun f => digest f.digest
  else if i = 3 then (if h.updPhase = 3 then h.scu.staged.map fun f => digest f.digest else none)
  else if i = 4 then (if h.joined then some (digest h.scu.policyDigest) else none)
  else if i = 5 then some ([0, 1, 2, 48].flatMap fun w => leBytes (h.fuse w).toNat 4)
  else if 0x10 ≤ i ∧ i ≤ 0x1F then
    let m := h.scu.meas.get MeasReg.empty (i - 0x10)
    if m.used then some (digest m.digest) else none
  else none

/-- Indices that a GET_MEASUREMENTS covers (R400). -/
def measIndices (i : Nat) : List Nat := if i = 0xFF then [1, 2, 3, 4, 5] ++ (List.range 16).map (· + 0x10) else [i]

/-- GET_MEASUREMENTS answered (R400 to R403): ERROR Unspecified without alias keys, InvalidRequest for an index that is absent. DEDUCED (log entry 46). -/
def Hw.getMeasurements (h : Hw) (x : Held) (i : Nat) (nonce : List Byte) : Hw :=
  if !h.hasAlias then h.scuError x .unspecified
  else
    let send := fun (p : Hw × Reply) => p.1.scuAnswer x none p.2
    if i = 0xF0 then send (h.signReport 1 nonce none)
    else if i = 0xFD then send (h.signReport 0 nonce none)
    else if 0x81 ≤ i ∧ i ≤ 0xBF then send (h.signReport 1 nonce (some (i - 0x80)))
    else
      let blocks := (measIndices i).filterMap fun k => (h.measIndex k).map fun c => (k, c)
      if blocks = [] then h.scuError x .invalidRequest
      else h.scuAnswer x none (.measurements blocks (h.signEc 6 (nonce ++ blocks.flatMap fun b => beBytes b.1 1 ++ b.2)))

/-- The MEASURE that a queue has outstanding at an index (R280). -/
def Hw.measureOp (h : Hw) (n i : Nat) : Option QOp :=
  match h.op n i with
  | some o => if o.st = .issued ∧ o.opcode = 0x0C then some o else none
  | none => none

/-- A MEASURE of the queue that was issued before extends the register first (R404). -/
def Hw.measureBehind (h : Hw) (n i reg : Nat) : Bool :=
  (List.range i).any fun j => match h.measureOp n j with | some o => o.field 4 0 4 == reg | none => false

/-- MEASURE: device memory extends a measurement register (R280, R404). `data` is what the range holds. -/
def Hw.measure (h : Hw) (n i : Nat) (data : List Byte) (walk : BttWalk) : Hw :=
  match h.measureOp n i with
  | none => h
  | some o =>
    if !h.scuUp || h.measureBehind n i (o.field 4 0 4) then h
    else if !h.joined then h.opEnd n i .stateRefused .none
    else
      let reg := o.field 4 0 4
      let m := h.scu.meas.get MeasReg.empty reg
      let slice := h.queueSlice n
      let kind := o.field 5 0 1
      let len := o.field 16 0 40
      if m.used ∧ (m.owner ≠ slice ∨ m.kind ≠ kind) ∨ 2 ^ 64 - 1 ≤ m.data.length then h.opEnd n i .stateRefused .none
      else match h.opAccess n i (o.field 8 0 52) len false walk with
        | (h, false) => h
        | (h, true) =>
          let bytes := (data ++ List.replicate (len - data.length) 0).take len
          let h : Hw := { h with scu := { h.scu with meas := h.scu.meas.put MeasReg.empty reg ⟨true, kind, slice, m.data ++ bytes⟩ } }
          h.opComplete n i .ok 0 true (BitVec.ofNat 32 (min len 0xFFFFFFFF))

/-- The payload of a key certificate (R376): member, slot, origin, usage, owner, family, check value, time, report counter and
reset generation. -/
def Hw.certFields (h : Hw) (k : Nat) : List Nat :=
  let s := h.slot k
  [h.memberId, k, s.origin, s.usage, 0, s.owner, s.family, (Config.hmac384 (keyBytes s.key) (ascii "UNVIN KCV")).toNat / 2 ^ 320,
    h.clk.now, (h.reg Reg.ATTEST_REPORT_CNT_LO).toNat + 2 ^ 32 * (h.reg Reg.ATTEST_REPORT_CNT_HI).toNat, (h.reg Reg.SCU_RESET_GEN).toNat]

/-- CERTIFY: writes the key certificate of a bound slot (R375, R376). -/
def Hw.certify (h : Hw) (n i : Nat) (walk : BttWalk) : Hw :=
  match h.keyOp n i 3 with
  | none => h
  | some o =>
    if !h.scuReady then h
    else match h.bound n o with
      | none => h.opEnd n i .stateRefused .unbound
      | some k =>
        if !h.ownsSlot (h.queueSlice n) k then h.keyOpEnd n i 3 4 0
        else
          let fields := h.certFields k
          let payload := fields.flatMap fun v => beBytes v 8
          let bytes := Config.keyCert fields (h.signEc 6 payload) (h.signMl payload)
          let addr := o.field 8 0 52
          if o.field 16 0 16 < bytes.length then h.keyOpEnd n i 3 7 0
          else match h.opAccess n i addr bytes.length true walk with
            | (h, false) => h
            | (h, true) => (h.dmWrite (.op n i) (some n) 0 addr bytes).keyOpEnd n i 3 0 bytes.length

end Sys2Proof.Machine
end

