-- ==== Sys2Proof/Machine/Join.lean ====
section
/-! DEFINITION. Leaving and joining a domain (R18, R370, R392 to R396, R428). -/

namespace Sys2Proof.Machine

/-! ### Leaving -/

/-- The leave is complete: the erasures, and the answer (R370, R395). -/
def Hw.leaveEnd (h : Hw) : Hw :=
  let who := h.scu.leaver
  let member := h.memberId
  let h := (h.eraseDomainKeys.joinLost).setIrq 0x18 2
  let h := h.scuEvent 1 0 member
  match who with
  | some a => if a.op = appOp 0x45 then h.scuLate a .leaveDone else h.opResult a 0 0 []
  | none => h

/-- Link sessions still to end (R395). -/
def Hw.sessionsLeft (h : Hw) : Bool := (List.range 16).any fun p => (h.port p).sess != .none

/-- Teardowns still to complete (R395). -/
def Hw.teardownsLeft (h : Hw) : Bool :=
  h.obj.slices.any fun p => p.2.st == .active || p.2.st == .tearing || p.2.st == .removing

/-- The next step of R395, when the one before it has ended. -/
def Hw.leaveStep (h : Hw) : Hw :=
  match h.dom.leaving with
  | 2 :: rest =>
    if h.teardownsLeft then h
    else (List.finRange 16).foldl (fun h p => h.endSession p 5) { h with dom := { h.dom with leaving := rest } }
  | 3 :: rest => if h.sessionsLeft then h else ({ h with dom := { h.dom with leaving := rest } } : Hw).ideZeroAll
  | 4 :: _ => if h.ide.pending = [] then h.leaveEnd else h
  | _ => h

/-- The leave goes on as far as it can (R395); it waits while the SCU boots (R428). -/
def Hw.leaveAdvance (h : Hw) : Hw := if h.scuUp then h.leaveStep.leaveStep.leaveStep else h

/-- The leave goes on after a boot at its first step not yet completed (R428). -/
def Hw.leaveResume (h : Hw) : Hw :=
  match h.dom.leaving with
  | 4 :: _ => (if h.ide.pending = [] then h.ideZeroAll else h).leaveAdvance
  | _ => h.leaveAdvance

/-- A leave starts: pooled requests are refused, and every slice is torn down (R395). -/
def Hw.leaveStart (h : Hw) (a : LateAnswer) : Hw :=
  let h := h.setF Reg.ATTEST_JOIN_STAT 5 1 1
  let h := { h with dom := { h.dom with leaving := [2, 3, 4, 5] }, scu := { h.scu with leaver := some a } }
  let active := (h.obj.slices.filter fun p => p.2.st == .active).map (·.1)
  (active.foldl (fun h s => h.closeSlice s true) h).leaveAdvance

/-- A leave that is asked for: BUSY during an update or another leave, REFUSED while not joined (R388, R395). -/
def Hw.leaveRequest (h : Hw) (a : LateAnswer) : Hw :=
  if 2 ≤ h.updPhase ∨ h.dom.leaving ≠ [] then h.opResult a 2 0 []
  else if !h.joined then h.opResult a 3 0 []
  else h.leaveStart a

/-- LEAVE of a sponsor, signed as JOIN_REQ is (R395). -/
def Hw.leaveMessage (h : Hw) (x : Held) (s : Session) (signature : List Byte) : Hw :=
  let a := x.late (some s.id) (appOp 0x45)
  let keys := match h.dom.policy with | some p => p.sponsors | none => []
  let signed := (0x45 : Byte) :: beBytes s.th2.toNat 48
  if h.joined && !(keys.any fun k => Config.verify k signed signature) then h.opResult a 1 0 [] else h.leaveRequest a

/-! ### Joining -/

/-- A base register pair of the first configuration is set. -/
def Hw.baseSet (h : Hw) (lo hi : Nat) : Bool := h.reg lo != 0 || h.reg hi != 0

/-- The configuration that a join needs is set (R394 code 2). -/
def Hw.configSet (h : Hw) : Bool :=
  h.regBit Reg.GATE_APERTURE 31 && h.baseSet Reg.REGION_TABLE_BASE_LO Reg.REGION_TABLE_BASE_HI &&
    h.baseSet Reg.REGION_DIR_BASE_LO Reg.REGION_DIR_BASE_HI && h.baseSet Reg.REGION_MAP_BASE_LO Reg.REGION_MAP_BASE_HI &&
    h.reg Reg.REGION_MAP_COUNT != 0 && h.baseSet Reg.GKT_PART_BASE_LO Reg.GKT_PART_BASE_HI &&
    h.baseSet Reg.BRU_FRESH_BASE_LO Reg.BRU_FRESH_BASE_HI && h.baseSet Reg.CFE_BTT_BASE_LO Reg.CFE_BTT_BASE_HI

/-- The state forbids a join (R377, R380, R388, R394 code 1). -/
def Hw.joinBarred (h : Hw) : Bool :=
  h.joined || !(h.lcsState == .dev || h.lcsState == .prod) || h.pow.rung != .u0 || h.pow.moving.isSome || h.updPhase != 0 ||
    h.lcs.target.isSome || h.regBit Reg.LCS_STATE 4 || h.dom.leaving != []

/-- JOIN_REQ's code (R394), the first that applies; 0 is OK. `fields` are the message's fields before the signature. -/
def Hw.joinReqCode (h : Hw) (s : Session) (digest : BitVec 384) (fields signature image : List Byte) : Nat :=
  if h.joinBarred then 1
  else if !h.configSet then 2
  else match Config.policyOf image with
    | none => 3
    | some (p, _) =>
      if Config.sha384 image ≠ digest then 4
      else if !(p.sponsors.any fun k => Config.verify k (fields ++ beBytes s.th2.toNat 48) signature) then 5
      else if (match h.scu.running with | some f => decide (f.svn < p.minSvn) | none => true) then 6
      else if s.slot ≠ 0 then 8 else 0

/-- A join ends without effect: its code is kept, and the join in progress is over (R394). -/
def Hw.joinFailed (h : Hw) (code : Nat) : Hw :=
  (({ h with scu := { h.scu with join := none } } : Hw).setF Reg.ATTEST_JOIN_STAT 0 4 code).scuEvent 0 code 0

/-- JOIN_REQ (R393, R394). -/
def Hw.joinRequest (h : Hw) (x : Held) (s : Session) (digest : BitVec 384) (ecdh kem signature image : List Byte) : Hw :=
  let fields := beBytes digest.toNat 48 ++ ecdh ++ kem
  let h := h.dmRead .mailbox none 0 ((h.reg Reg.ATTEST_POLICY_BASE_LO).toNat + 2 ^ 32 * h.regF Reg.ATTEST_POLICY_BASE_HI 0 10) image.length
  let code := h.joinReqCode s digest fields signature image
  match code, Config.policyOf image with
  | 0, some (p, _) =>
    let own := leBytes (h.freeVal 384).toNat 48
    let h := h.tookFree
    let (text, shared) := Config.kemEncap kem (h.freeVal 256)
    let h := h.tookFree
    let share := Config.publicOf own
    let all := fields ++ signature ++ share ++ text
    let key := kdfKey (Config.agree own ecdh ++ shared) "SIRVIS JOIN" (beBytes (Config.sha384 all).toNat 48)
    let h := { h with scu := { h.scu with join := some ⟨s.id, s.path, p, digest, key⟩ } }
    h.scuAnswer x (some s.id) (.joinResp 0 share text (h.signEc 6 all) (h.signMl all))
  | c, _ => (h.joinFailed c).scuAnswer x (some s.id) (.joinResp c [] [] [] [])

/-- The policy with the operator's floors (R461). -/
def Hw.withFloor (h : Hw) (p : Policy) : Policy :=
  let f := h.perVal 0x014
  { p with
    laneFloor := if bit f 0 then max p.laneFloor 4 else p.laneFloor
    noneLq := p.noneLq && !bit f 1
    probe := p.probe && !bit f 2 }

/-- DMS and the member id that JOIN_KEY carries: 32 bytes and 2 bytes; none where the tag fails (R393). PRESUMED (log entry 44). -/
def joinKeyOpen (key : BitVec 256) (text : List Byte) (tag : BitVec 128) : Option (List Byte × Nat) :=
  let plain := gcmCrypt key 0 text
  if gcmTag key 0 [] text == tag then some (plain.take 32, ofBytes ((plain.drop 32).take 2)) else none

/-- JOIN_KEY's code (R394), the first that applies, with what the message carries. -/
def Hw.joinKeyCode (h : Hw) (s : Session) (text : List Byte) (tag : BitVec 128) : Nat :=
  if h.joinBarred then 1
  else if !h.configSet then 2
  else match h.scu.join with
    | none => 8
    | some j =>
      if j.session ≠ s.id ∨ j.path ≠ s.path then 8
      else match joinKeyOpen j.key text tag with
        | none => 7
        | some (_, m) => if !decide (m ∈ j.policy.homeMap) then 7 else if text.length ≠ 34 then 8 else 0

/-- Pages whose RWL fields a join locks (R393): GATE, REGION, SEAL, GKT, LINK, BRU, CFE and SCHED. -/
def lockedPages : List Nat := [0x04, 0x05, 0x06, 0x07, 0x09, 0x0B, 0x0D, 0x0F]

/-- DMS installed, and the class keys derived from it (R369, R393). -/
def Hw.placeDomainKeys (h : Hw) (dms : List Byte) : Hw :=
  let h := h.placeKey 10 { Slot.free with kind := 1, origin := 3, system := true, usage := 0x40 } (BitVec.ofNat 256 (ofBytes dms))
  let h := h.placeKey 11 (derivedSlot 1 0x48) (kdfKey dms "SIRVIS BLIND CLASS" [])
  h.placeBusKey (fun _ => true) 12 (derivedSlot 0 0x04) (kdfKey dms "SIRVIS BULK" [])

/-- The block is a member (R11, R393, R408). -/
def Hw.joinInstall (h : Hw) (j : Join) (dms : List Byte) (member : Nat) : Hw :=
  let h := ({ h with cnt := { h.cnt with exporting := 0 } } : Hw).setReg Reg.DEBUG_CTL 0
  let h := (h.placeDomainKeys dms).zeroFresh
  let h : Hw := { h with
    dom := { policy := some (h.withFloor j.policy), leaving := [] }
    cis := { h.cis with floors := [], retired := [] }
    bulk := { h.bulk with stop := false }
    scu := { h.scu with join := none, policyDigest := j.digest, meas := [] } }
  let h := lockedPages.foldl (fun h p => h.setReg (p * 0x1000 + offLock) 1) h
  let h := h.setReg Reg.CAP_MEMBER (BitVec.ofNat 32 (member % 65536 + 65536 * h.regF Reg.GATE_RACKS 0 4 + 2 ^ 31))
  let h := h.tapSelect h.tap.instr
  (((h.setF Reg.ATTEST_JOIN_STAT 0 4 0).setF Reg.ATTEST_JOIN_STAT 4 1 1).setIrq 0x18 1).scuEvent 0 0 member

/-- Handshakes begin on every port whose link is up and that has no session (R161, R472). -/
def Hw.startSessions (h : Hw) : Hw :=
  (List.range 16).foldl (fun h p => if (h.port p).sess = .none then h.setPort p { h.port p with sess := h.afterSession p } else h) h

/-- JOIN_KEY (R393, R394). -/
def Hw.joinKeyMessage (h : Hw) (x : Held) (s : Session) (text : List Byte) (tag : BitVec 128) : Hw :=
  match h.joinKeyCode s text tag, h.scu.join with
  | 0, some j =>
    (match joinKeyOpen j.key text tag with
      | some (dms, m) =>
        let h := h.joinInstall j dms m
        let (h, r) := h.signReport 0 [] none
        let h := match r with
          | .report r ec ml => h.scuAnswer x (some s.id) (.joinDone 0 (some r) ec ml)
          | r => h.scuAnswer x (some s.id) r
        h.startSessions.ideAll
      | none => h)
  | c, _ => (h.joinFailed c).scuAnswer x (some s.id) (.joinDone c none [] [])

end Sys2Proof.Machine
end

