-- ==== Sys2Proof/Machine/Firmware.lean ====
section
/-! DEFINITION. SCU firmware in service: boot, staging, activation, commit and rollback, and the operations of a ROM-only block
(R385 to R391, R469, R471, R472). -/

namespace Sys2Proof.Machine

/-- Bank that FW_BANK names (R459). -/
def Hw.activeBank (h : Hw) : Nat := fld (h.perVal 2) 0 1

/-- What follows the boot of a joined block after a warm or block priming (R341, R472). -/
def Hw.rejoin (h : Hw) : Hw :=
  let slices := h.obj.slices.map fun (p : Nat × Slice) =>
    if (p.2.st = .removing ∨ p.2.st = .tearing) ∧ p.2.step = 0 then (p.1, { p.2 with step := 3, since := h.clk.now }) else p
  let after := h.scu.afterPrime
  let h := { h with obj := { h.obj with slices := slices }, scu := { h.scu with afterPrime := false } }
  let h := h.startSessions
  if after && h.dom.leaving == [] then h.ideAll else h

/-- SCU firmware starts with its keys derived, or without any where TRNG_FAIL stopped the source (R385, R471). -/
def Hw.startFirmware (h : Hw) (f : FwInfo) (store : List Byte) : Hw :=
  let h := ({ h with scu := { h.scu with running := some f, booting := false } } : Hw).showFirmware
  if h.prime.entropyFailed then h
  else
    let h := (h.deriveIdentity.takeCert store).setReg 0x15010 1
    h.rejoin.lcsResume.leaveResume

/-- Boot of the first image that passes, or SCU_BOOT_FAIL (R385). -/
def Hw.bootBanks (h : Hw) (b0 b1 : FwImage) (store : List Byte) : Hw :=
  let a := h.activeBank
  let first := if a = 0 then b0 else b1
  let second := if a = 0 then b1 else b0
  let storeRead := fun (h : Hw) => h.dmRead .scuImage none 6 (h.fwBase + 0x90000) store.length
  let h := h.bankRead a first
  if h.imageOk first then (storeRead h).startFirmware (fwInfo a first) store
  else
  let h := h.bankRead (1 - a) second
  if h.imageOk second then (storeRead h).startFirmware (fwInfo (1 - a) second) store
  else
    let h := { h with scu := { h.scu with booting := false, running := none } }
    (h.setReg 0x15010 2).raise 264 (detailWord none none 0 0) 0 0 0

/-- SCU_EXCEPTION: an illegal instruction, bus error or stack overflow of the SCU (R409). -/
def Hw.scuException (h : Hw) : Hw :=
  if h.scu.running.isNone then h else h.raise 265 (detailWord none none 0 0) 0 0 0

/-- FW_STAGE: a chunk goes into a bank (R388, R407). -/
def Hw.fwStage (h : Hw) (a : LateAnswer) (offset : Nat) (data : List Byte) (rom : Bool) : Hw :=
  if 61440 < data.length ∨ 0x40000 < offset + data.length then h.opResult a 4 0 []
  else
    let h := h.partitionWrite (0x40000 * (1 - h.activeBank) + offset) data
    (if rom then h else h.setPhase 1).opResult a 0 0 []

/-- FW_ACTIVATE: the staged image is checked, and the switch begins (R388, R391). DEDUCED (log entry 45). -/
def Hw.fwActivate (h : Hw) (a : LateAnswer) (image : FwImage) : Hw :=
  if h.scu.join.isSome ∨ h.dom.leaving ≠ [] ∨ h.lcs.target.isSome = true ∨ 2 ≤ h.updPhase then h.opResult a 2 0 []
  else
  let h := h.bankRead (1 - h.activeBank) image
  if !h.imageOk image then ((((h.setUpdLast 4).setPhase 0).scuEvent 2 4 (1 - h.activeBank))).opResult a 5 4 []
  else
    let h := (h.opResult a 0 0 []).endSessions.setPhase 2
    let h := (h.partitionWrite 0x80000 (Config.handOff h.free)).tookFree.setReg 0x15010 0
    { h with scu := { h.scu with staged := some (fwInfo (1 - h.activeBank) image) } }

/-- FW_SWITCH_DONE: the staged image runs on probation, or the old one runs on (R387, R388, R391). -/
def Hw.fwSwitchDone (h : Hw) (image : FwImage) : Hw :=
  if h.updPhase ≠ 2 then h
  else match h.scu.staged with
    | some f =>
      let h := h.bankRead f.bank image
      if h.imageOk image && fwInfo f.bank image == f then
        let h := { h with scu := { h.scu with old := h.scu.running, running := some f, late := false } }
        (((h.advanceGen.showFirmware.deriveAlias).setReg 0x15010 1).setPhase 3).scuEvent 2 (h.regF Reg.SCU_UPD_STAT 4 3) f.bank
      else
        let h := { h with scu := { h.scu with staged := none } }
        (((h.setUpdLast 4).setPhase 0).setReg 0x15010 1).scuEvent 2 4 f.bank
    | none => h

/-- The old image runs again (R390, R391). `last` is UPD_STAT.last, and `kind` the kind of the record. -/
def Hw.fwReturn (h : Hw) (last kind : Nat) : Hw :=
  let h := { h with scu := { h.scu with running := h.scu.old, old := none, staged := none, late := false } }
  let h := (h.endSessions.showFirmware.deriveAlias.setUpdLast last).setPhase 0
  h.scuEvent kind last (match h.scu.running with | some f => f.bank | none => 0)

/-- FW_ROLLBACK (R390). -/
def Hw.fwRollback (h : Hw) (a : LateAnswer) : Hw :=
  if h.updPhase ≠ 3 then h.opResult a 3 (h.regF Reg.SCU_UPD_STAT 4 3) [] else (h.opResult a 0 0 []).fwReturn 2 4

/-- PROBATION_EXPIRY: SCU.PROBATION has passed without a commit (R390). -/
def Hw.probationExpiry (h : Hw) : Hw := if h.updPhase = 3 then h.fwReturn 3 5 else h

/-- FW_COMMIT: the running bank becomes the active one, and its svn the minimum where that is asked for (R390, R462, R464). -/
def Hw.fwCommit (h : Hw) (a : LateAnswer) (raise : Bool) : Hw :=
  match h.updPhase, h.scu.running with
  | 3, some f =>
    let bank := BitVec.ofNat 32 f.bank
    match h.perRefusal .scu 2 bank with
    | some kind => (h.perErr 2 kind).opResult a (if kind = 3 then 6 else 3) 0 []
    | none =>
      let more := raise && decide ((h.perVal 1).toNat < f.svn)
      let minOk := (h.perRefusal .scu 1 (BitVec.ofNat 32 f.svn)).isNone
      let a := { a with code := if more && !minOk then 6 else 0 }
      let h := h.perWrite .scu 2 bank 0x15 (some a)
      let h := if more then h.perWrite .scu 1 (BitVec.ofNat 32 f.svn) 0x15 (some a) else h
      let h := h.setF Reg.SCU_FW_STAT 0 1 f.bank
      let h := { h with scu := { h.scu with old := none, staged := none, late := false } }
      ((h.setUpdLast 1).setPhase 0).scuEvent 3 1 f.bank
  | _, _ => h.opResult a 3 (h.regF Reg.SCU_UPD_STAT 4 3) []

/-- PS_DONE, and the MGMT_RESULT of the request whose last write has ended (R462, R465). -/
def Hw.psEnd (h : Hw) (n : Nv) (err late : Bool) : Hw × Nv :=
  let who := match h.per.issued with | some w => w.answer | none => none
  let (h, n) := h.psDone n err late
  match who with
  | none => (h, n)
  | some a =>
    let a' := if err then { a with code := 3 } else a
    let same := fun (w : PsWrite) => match w.answer with | some b => b == a | none => false
    if h.per.queue.any same then
      ({ h with per := { h.per with queue := h.per.queue.map fun w => if same w then { w with answer := some a' } else w } }, n)
    else (h.opResult a' a'.code 0 [], n)

/-! ### A ROM-only block -/

/-- FW_ACTIVATE in a ROM-only block: FW_BANK takes the bank, and it boots (R386). -/
def Hw.romActivate (h : Hw) (a : LateAnswer) (image : FwImage) (store : List Byte) : Hw :=
  let bank := 1 - h.activeBank
  let h := h.bankRead bank image
  if !h.imageOk image then h.opResult a 5 0 []
  else match h.perRefusal .scu 2 (BitVec.ofNat 32 bank) with
    | some kind => (h.perErr 2 kind).opResult a (if kind = 3 then 6 else 3) 0 []
    | none =>
      let h := (h.perWrite .scu 2 (BitVec.ofNat 32 bank) 0x15 (some a)).setF Reg.SCU_FW_STAT 0 1 bank
      (h.advanceGen.setReg 0x15010 0).startFirmware (fwInfo bank image) store

/-- FW_COMMIT in a ROM-only block: FW_BANK takes a bank whose image passes, the staged one first (R386). -/
def Hw.romCommit (h : Hw) (a : LateAnswer) (staged other : FwImage) : Hw :=
  let h := h.bankRead (1 - h.activeBank) staged
  let h := if h.imageOk staged then h else h.bankRead h.activeBank other
  let bank := if h.imageOk staged then some (1 - h.activeBank) else if h.imageOk other then some h.activeBank else none
  match bank with
  | none => h.opResult a 5 0 []
  | some b =>
    match h.perRefusal .scu 2 (BitVec.ofNat 32 b) with
    | some kind => (h.perErr 2 kind).opResult a (if kind = 3 then 6 else 3) 0 []
    | none => (h.perWrite .scu 2 (BitVec.ofNat 32 b) 0x15 (some a)).setF Reg.SCU_FW_STAT 0 1 b

end Sys2Proof.Machine
end

