-- ==== Sys2Proof/Machine/Scu.lean ====
section
/-! DEFINITION. How the SCU takes, holds and serves messages: management frames, SPDM requests, application messages and
management operations (R70, R385, R386, R389, R397 to R399, R405 to R407, R440, R451). -/

namespace Sys2Proof.Machine

/-! ### SPDM requests -/

/-- The certificate slots that hold a chain, with the chain's digest (R398). -/
def Hw.certDigests (h : Hw) : List (Nat × BitVec 384) :=
  (List.range 3).filterMap fun k => (h.certChain k).map fun c => (k, Config.sha384 c)

/-- Capabilities of R397. -/
def spdmCaps : List String := ["CERT_CAP", "CHAL_CAP", "MEAS_CAP", "KEY_EX_CAP", "ENCRYPT_CAP", "MAC_CAP"]

/-- Algorithms of R397. -/
def spdmAlgs : List String := ["ECDSA_P384", "SHA_384", "secp384r1", "AES_256_GCM", "SPDM", "DMTF"]

/-- CHALLENGE of a certificate slot (R397). -/
def Hw.challenge (h : Hw) (x : Held) (slot : Nat) (nonce : List Byte) : Hw :=
  match h.certChain slot with
  | some c => h.scuAnswer x none (.challengeAuth slot nonce (h.signEc (leafSlot slot) (nonce ++ c)))
  | none => h.scuError x .invalidRequest

/-- KEY_EXCHANGE: a secured session opens; a fifth ends the one idle longest (R397). -/
def Hw.keyExchange (h : Hw) (x : Held) (slot : Nat) (share : List Byte) : Hw :=
  if 2 < slot then h.scuError x .invalidRequest
  else
    let gone := if h.scu.sessions.length < 4 then none else h.scu.sessions.head?
    let keep := if h.scu.sessions.length < 4 then h.scu.sessions else h.scu.sessions.drop 1
    let join := match h.scu.join, gone with
      | some j, some s => if j.session = s.id then none else some j
      | j, _ => j
    let own := leBytes (h.freeVal 384).toNat 48
    let h := h.tookFree
    let id := h.scu.nextSession
    let th2 := Config.th2 share own slot
    let s : Session := { id := id, path := x.req.path, up := false, auth := false, slot := slot, th2 := th2 }
    let h := { h with scu := { h.scu with sessions := keep ++ [s], nextSession := id + 1, join := join } }
    h.scuAnswer x none (.keyExchange id (Config.publicOf own) (h.signEc (leafSlot slot) (beBytes th2.toNat 48)))

/-- FINISH completes a session that KEY_EXCHANGE has opened on its path (R397). -/
def Hw.finishSession (h : Hw) (x : Held) (id : Nat) (proof : List Byte) : Hw :=
  match h.scu.sessions.find? fun s => s.id == id && s.path == x.req.path && !s.up with
  | some s =>
    if Config.finishOk s.th2 proof then
      ((h.modSession id fun s => { s with up := true }).touchSession id).scuAnswer x none (.finish id)
    else h.scuError x .invalidRequest
  | none => h.scuError x .invalidRequest

/-- An SPDM request served (R397, R398, R400). -/
def Hw.serveSpdm (h : Hw) (x : Held) (r : SpdmReq) : Hw :=
  match r with
  | .getVersion => h.scuAnswer x none (.version [0x12, 0x13])
  | .getCapabilities => h.scuAnswer x none (.capabilities spdmCaps 65536 65536)
  | .negotiateAlgorithms => h.scuAnswer x none (.algorithms spdmAlgs)
  | .getDigests => h.scuAnswer x none (.digests h.certDigests)
  | .getCertificate slot => (match h.certChain slot with
    | some c => h.scuAnswer x none (.certificate slot c)
    | none => h.scuError x .invalidRequest)
  | .challenge slot nonce => h.challenge x slot nonce
  | .getMeasurements i nonce => h.getMeasurements x i nonce
  | .keyExchange slot share => h.keyExchange x slot share
  | .finish id proof => h.finishSession x id proof
  | .unsupported => h.scuError x .unsupportedRequest

/-! ### Management operations -/

/-- Codes of the management operations (R407). -/
def MgmtOp.code : MgmtOp → Nat
  | .state => 0 | .fwStage .. => 1 | .fwActivate .. => 2 | .fwCommit .. => 3 | .fwRollback => 4 | .lcsTransition .. => 5
  | .wellRead .. => 6 | .regRead .. => 7 | .regWrite .. => 8 | .certStore .. => 9 | .domainLeave => 10 | .reserved c => c

/-- STATE (R407). -/
def Hw.stateOp (h : Hw) (a : LateAnswer) : Hw :=
  h.opResult a 0 0 [h.regValue Reg.LCS_STATE true, h.regValue Reg.SCU_FW_STAT true, h.regValue Reg.SCU_UPD_STAT true,
    h.regValue Reg.CAP_MEMBER true]

/-- WELL_READ: the header of R440 and the records, in index order (R440). -/
def Hw.wellReadOp (h : Hw) (a : LateAnswer) (first count : Nat) : Hw :=
  if 8191 < first ∨ count = 0 ∨ 1024 < count then h.opResult a 4 0 []
  else
    let seq := BitVec.ofNat 32 h.well.seq
    let info := BitVec.ofNat 32 (h.well.seq % 8192 + 65536 * (b2n (decide (8192 ≤ h.well.seq)) + 2 * b2n h.well.triggered + 4 * b2n h.well.frozen))
    let recs := (List.range count).flatMap fun k => (List.range 8).map fun j => (h.wellRead ((first + k) % 8192)).word j
    h.opResult a 0 0 ([seq, seq, info, BitVec.ofNat 32 h.well.lost] ++ recs)

/-- REG_READ (R9, R407, R451). -/
def Hw.regReadOp (h : Hw) (a : LateAnswer) (addr : Nat) : Hw :=
  if !pagePresent (pageOf addr) then h.opResult a 4 0 []
  else
    let (h, v) := h.regRead addr true
    h.opResult a 0 0 [v]

/-- REG_WRITE (R407, R451, R462 to R464): a write of a persistent word is answered when it has ended. -/
def Hw.regWriteOp (h : Hw) (a : LateAnswer) (addr : Nat) (value : Word) : Hw :=
  let at_ := addr / 4 * 4
  if !pagePresent (pageOf addr) then h.opResult a 4 0 []
  else match h.rwpWord at_ with
    | none => (h.regWrite addr value true none).opResult a 0 0 []
    | some (w, src) =>
      let mask := match rowOf at_ with | some r => BitVec.ofNat 32 r.rw | none => 0
      match h.perRefusal src w (value &&& mask) with
      | some kind => (h.regWrite addr value true none).opResult a (if kind = 3 then 6 else 3) 0 []
      | none => h.regWrite addr value true (some a)

/-- CERT_STORE (R407); a certificate whose key is DeviceID's is served from then on (R398). -/
def Hw.certStoreOp (h : Hw) (a : LateAnswer) (offset : Nat) (data store : List Byte) : Hw :=
  if 61440 < data.length ∨ 0x10000 < offset + data.length then h.opResult a 4 0 []
  else ((h.partitionWrite (0x90000 + offset) data).takeCert store).opResult a 0 0 []

/-- A management operation served in an authenticated session, or STATE in any (R407). -/
def Hw.serveOp (h : Hw) (a : LateAnswer) (o : MgmtOp) : Hw :=
  match o with
  | .state => h.stateOp a
  | .fwStage offset data => h.fwStage a offset data false
  | .fwActivate image => h.fwActivate a image
  | .fwCommit raise _ _ => h.fwCommit a raise
  | .fwRollback => h.fwRollback a
  | .lcsTransition target token => h.lcsRequest a target token
  | .wellRead first count => h.wellReadOp a first count
  | .regRead addr => h.regReadOp a addr
  | .regWrite addr value => h.regWriteOp a addr value
  | .certStore offset data store => h.certStoreOp a offset data store
  | .domainLeave => h.leaveRequest a
  | .reserved _ => h.opResult a 4 0 []

/-- MGMT_OP in a session (R407). -/
def Hw.mgmtOp (h : Hw) (x : Held) (s : Session) (o : MgmtOp) : Hw :=
  let a := x.late (some s.id) o.code
  if o = .state ∨ (s.auth && s.path == .mgmt) = true then h.serveOp a o else h.opResult a 1 0 []

/-- The operator chain hash in force (R459). -/
def Hw.opHash (h : Hw) : BitVec 384 :=
  BitVec.ofNat 384 (ofBytes ((List.range 12).flatMap fun k => leBytes (h.perVal (3 + k)).toNat 4).reverse)

/-- The operator chain and signature of a MGMT_AUTH are accepted (R406, R460). -/
def Hw.operatorOk (h : Hw) (s : Session) (chain signature : List Byte) : Bool :=
  let hash := h.opHash
  let open_ := h.lcsState == .raw || h.lcsState == .test || h.lcsState == .dev
  let root := if hash = 0 then (if open_ then some (Config.chainRoot chain) else none)
    else if hash = BitVec.allOnes 384 then none else some hash
  match root with
  | none => false
  | some r => match Config.chainSubject r chain with
    | some (key, _) => Config.verify key (beBytes s.th2.toNat 48 ++ ascii "UNVIN MGMT") signature
    | none => false

/-- MGMT_AUTH (R406): on a session of the host path it is dropped. -/
def Hw.mgmtAuth (h : Hw) (x : Held) (s : Session) (chain signature : List Byte) : Hw :=
  let a := x.late (some s.id) (appOp 0x50)
  if s.path = .host then h.setF Reg.ATTEST_MBX_STAT 0 1 0
  else if h.operatorOk s chain signature then (h.modSession s.id fun s => { s with auth := true }).opResult a 0 0 []
  else ((h.incReg Reg.MGMT_AUTH_FAIL_CNT).setIrq 0x19 1).opResult a 1 0 []

/-- An application message of a secured session served (R391, R398). -/
def Hw.serveApp (h : Hw) (x : Held) (path : Path) (id : Nat) (m : AppMsg) : Hw :=
  match h.secured path id with
  | none => h.scuError x .invalidSession
  | some s =>
    let h := h.touchSession id
    match m with
    | .joinReq digest ecdh kem signature image => h.joinRequest x s digest ecdh kem signature image
    | .joinKey text tag => h.joinKeyMessage x s text tag
    | .leave signature => h.leaveMessage x s signature
    | .mgmtAuth chain signature => h.mgmtAuth x s chain signature
    | .op o => h.mgmtOp x s o
    | .ideRefresh stream =>
      if path = .host then h.ideRequest (x.late (some id) 0x47) stream else h.opResult (x.late (some id) (appOp 0x47)) 4 0 []
    | .other type => h.opResult (x.late (some id) (appOp type)) 4 0 []

/-- A ROM recovery frame served by a ROM-only block (R386). -/
def Hw.serveRom (h : Hw) (x : Held) (o : MgmtOp) (store : List Byte) : Hw :=
  let a := x.late none o.code
  match o with
  | .state => h.stateOp a
  | .fwStage offset data => h.fwStage a offset data true
  | .fwActivate image => h.romActivate a image store
  | .fwCommit _ staged other => h.romCommit a staged other
  | _ => h.opResult a 3 0 []

/-! ### Holding and taking -/

/-- The request establishes a session (R389). -/
def SpdmReq.opensSession : SpdmReq → Bool
  | .getVersion | .getCapabilities | .negotiateAlgorithms | .getDigests | .getCertificate _ | .keyExchange .. | .finish .. => true
  | _ => false

/-- The request is held during PROBATION (R389). -/
def ScuReq.heldInProbation : ScuReq → Bool
  | .spdm .host _ => true
  | .spdm .mgmt r => !r.opensSession
  | .app _ _ (.op o) => !(match o with
    | .state | .fwCommit .. | .fwRollback | .lcsTransition .. | .domainLeave => true
    | _ => false)
  | _ => false

/-- The request asks for attestation (R389). -/
def ScuReq.attests : ScuReq → Option (List Byte)
  | .spdm _ (.getMeasurements _ nonce) => some nonce
  | _ => none

/-- The request needs DRBG output, and waits with the DRBG (R369, R374). -/
def ScuReq.needsDrbg : ScuReq → Bool
  | .spdm _ (.keyExchange ..) => true
  | .app _ _ (.joinReq ..) => true
  | .app _ _ (.op (.lcsTransition ..)) => true
  | _ => false

/-- An attestation request answered with an IN_TRANSITION report (R389, R402). -/
def Hw.inTransition (h : Hw) (x : Held) (nonce : List Byte) : Hw :=
  if !h.hasAlias then h.scuError x .unspecified
  else
    let (h, r) := h.signReport 2 nonce none
    h.scuAnswer x none r

/-- A request that waits (R385, R389). -/
def Hw.scuHold (h : Hw) (x : Held) : Hw := { h with scu := { h.scu with held := h.scu.held ++ [x] } }

/-- A request in hand: served, refused, or held (R385, R386, R389). -/
def Hw.scuHandle (h : Hw) (x : Held) : Hw :=
  if h.romServes then
    match x.req with
    | .rom o store => h.serveRom x o store
    | _ => h.scuError x .unspecified
  else if !h.scuUp then h.scuHold x
  else if h.updPhase = 3 ∧ x.req.heldInProbation = true then
    match x.req.attests with
    | some nonce => if h.scu.late then h.inTransition x nonce else h.scuHold x
    | none => h.scuHold x
  else match x.req with
    | .spdm _ r => h.serveSpdm x r
    | .app path id m => h.serveApp x path id m
    | .rom .. => h.incReg Reg.MGMT_DROP_CNT

/-- Every message that waits is handled anew, in arrival order (R385, R389, R390). -/
def Hw.scuRehandle (h : Hw) : Hw :=
  let xs := h.scu.held
  xs.foldl (fun h x => h.scuHandle x) { h with scu := { h.scu with held := [] } }

/-- What waits is served once the SCU serves again, outside PROBATION (R385, R390). -/
def Hw.scuSettle (h : Hw) : Hw :=
  if h.scuClocked && ((h.scuUp && decide (h.updPhase < 2)) || h.romServes) then h.scuRehandle else h

/-- A message of the host path is in the mailbox, and the SCU has not taken it yet (R399). -/
def Hw.mbxWaits (h : Hw) : Bool :=
  h.regBit Reg.ATTEST_MBX_STAT 0 && !(h.scu.held.any fun x => decide (x.req.path = .host)) &&
    !(match h.scu.leaver with | some a => decide (a.path = .host) | none => false) &&
    !(h.ide.asked.any fun p => decide (p.2.path = .host))

/-! ### Management frames -/

/-- A partial message discarded and counted (R405). -/
def Hw.fragDrop (h : Hw) : Hw :=
  match h.scu.frag with
  | some _ => ({ h with scu := { h.scu with frag := none } } : Hw).incReg Reg.MGMT_DROP_CNT
  | none => h

/-- A fragment taken in order of its index (R405). -/
def Hw.fragTake (h : Hw) (type msg frag nfrag : Nat) (data : List Byte) : Hw :=
  let part := match h.scu.frag with
    | some f => if f.msg = msg then some f else none
    | none => none
  let h := match h.scu.frag with
    | some f => if f.msg = msg then h else h.fragDrop
    | none => h
  let have_ := match part with | some f => (f.taken, f.data, f.nfrag, f.type) | none => (0, [], nfrag, type)
  if frag ≠ have_.1 ∨ nfrag ≠ have_.2.2.1 ∨ type ≠ have_.2.2.2 then
    ({ h with scu := { h.scu with frag := none } } : Hw).incReg Reg.MGMT_DROP_CNT
  else if frag + 1 = nfrag then { h with scu := { h.scu with frag := none, inbox := h.scu.inbox ++ [(type, msg, have_.2.1 ++ data)] } }
  else { h with scu := { h.scu with frag := some ⟨type, msg, nfrag, frag + 1, have_.2.1 ++ data⟩ } }

/-- A frame passes the filter of R70. -/
def Hw.frameOk (h : Hw) (f : MgmtFrame) : Bool :=
  let mac := (h.macWord false).toNat + 2 ^ 32 * fld (h.macWord true) 0 16
  !f.err && decide (f.tags ≤ 1) && decide (60 ≤ f.length ∧ f.length ≤ 1514 + 4 * f.tags) && f.dst.toNat == mac &&
    f.ethertype.toNat == fld (h.perVal 0x012) 0 16

/-- A frame finds room in the 16 KiB of the receive buffer (R70). -/
def Hw.frameFits (h : Hw) (f : MgmtFrame) : Bool := decide ((h.scu.frames.map (·.length)).foldl (· + ·) 0 + f.length ≤ 16384)

/-- A frame of the receive buffer taken (R386, R405). -/
def Hw.frameTake (h : Hw) (f : MgmtFrame) : Hw :=
  let type := imgField f.body 1 1
  let msg := imgField f.body 2 2
  let nfrag := imgField f.body 6 2
  if h.lcsState = .scrap then h.mgmtReply 3 msg (leBytes (h.reg Reg.LCS_STATE).toNat 4)
  else if f.body.length < 8 ∨ 1500 < f.body.length ∨ imgField f.body 0 1 ≠ 1 ∨ !(type == 1 || type == 2 || type == 4) ∨
      (type = 4 ∧ h.romServes = false ∧ h.scuUp = true) ∨ nfrag = 0 ∨ 44 < nfrag then
    h.incReg Reg.MGMT_DROP_CNT
  else h.fragTake type msg (imgField f.body 4 2) nfrag (f.body.drop 8)

/-- The SCU takes the frames that wait in the receive buffer, unless it is halted (R38, R70). -/
def Hw.framesTaken (h : Hw) : Hw :=
  if h.scuClocked then h.scu.frames.foldl (fun h f => h.frameTake f) { h with scu := { h.scu with frames := [] } } else h

/-- MGMT_FRAME: a frame is filtered, buffered, and taken by the SCU while it runs (R70, R386, R405, R468). -/
def Hw.mgmtFrame (h : Hw) (f : MgmtFrame) : Hw :=
  if !h.prime.ready then h
  else if !h.frameOk f || !h.frameFits f then h.incReg Reg.MGMT_DROP_CNT
  else
    let h := h.incReg Reg.MGMT_RX_CNT
    ({ h with scu := { h.scu with frames := h.scu.frames ++ [f] } } : Hw).framesTaken

/-! ### Messages taken -/

/-- The SCU takes the message that waits on its path: the one in the mailbox, or the oldest that the Management Port has
reassembled (R399, R405). Without one nothing happens; and in U2 and below, where the SCU is halted, it waits (R38, R44). -/
def Hw.scuTake (h : Hw) (r : ScuReq) : Hw :=
  let h := h.framesTaken
  if !h.scuClocked || (r.needsDrbg && !h.drbgReady) then h
  else match r.path with
    | .host => if h.mbxWaits then (h.mbxRead.scuHandle ⟨0, r⟩).scuSettle else h
    | .mgmt => match h.scu.inbox with
      | (type, msg, _) :: rest =>
        if type = r.frameType then (({ h with scu := { h.scu with inbox := rest } } : Hw).scuHandle ⟨msg, r⟩).scuSettle else h
      | [] => h

/-- An SPDM request taken. -/
def Hw.takeSpdm (h : Hw) (path : Path) (r : SpdmReq) : Hw := h.scuTake (.spdm path r)

/-- An application message of a session taken. -/
def Hw.takeApp (h : Hw) (path : Path) (session : Nat) (m : AppMsg) : Hw := h.scuTake (.app path session m)

/-- A management operation taken. -/
def Hw.takeOp (h : Hw) (path : Path) (session : Nat) (o : MgmtOp) : Hw := h.takeApp path session (.op o)

/-- SPDM_UNSUPPORTED: an SPDM request that is not served, or an application message or management operation of another code
(R397, R398, R407). -/
def Hw.takeOther (h : Hw) (path : Path) (app : Option (Nat × Nat × Option Nat)) : Hw :=
  match app with
  | none => h.takeSpdm path .unsupported
  | some (id, _, some op) => h.takeOp path id (.reserved op)
  | some (id, type, none) => h.takeApp path id (.other type)

/-- PROBATION_HOLD_TIMEOUT: an attestation request has been held for 50 ms (R389). -/
def Hw.holdTimeout (h : Hw) : Hw :=
  if h.updPhase ≠ 3 ∨ h.scuClocked = false then h
  else
    let mine := h.scu.held.filter fun x => x.req.attests.isSome
    match mine with
    | [] => h
    | x :: _ =>
      let h := { h with scu := { h.scu with held := h.scu.held.erase x, late := true } }
      h.inTransition x (x.req.attests.getD [])

/-- SCU_BOOT: the ROM boots a bank (R385, R469). `b0` and `b1` are the banks, `store` the certificate store. -/
def Hw.scuBoot (h : Hw) (b0 b1 : FwImage) (store : List Byte) : Hw :=
  if h.scu.booting && h.scuClocked then (h.bootBanks b0 b1 store).scuSettle else h

/-- FW_SWITCH_DONE: the staged image has started, or has been turned away (R388, R389). -/
def Hw.switchDone (h : Hw) (image : FwImage) : Hw := if h.updPhase = 2 ∧ h.scuClocked = true then (h.fwSwitchDone image).scuRehandle else h

/-- PROBATION_EXPIRY, after which what was held is served (R390). -/
def Hw.probationEnd (h : Hw) : Hw := if h.scuClocked then h.probationExpiry.scuSettle else h

end Sys2Proof.Machine
end

