-- ==== Sys2Proof/Machine/Session.lean ====
section
/-! DEFINITION. The handshake of a link session (R160 to R162, R165). -/

namespace Sys2Proof.Machine

/-- A handshake message sent as SESS fragments of 208 bytes (R161, R169). -/
def Hw.sendHandshake (h : Hw) (p : Fin 16) (bytes : List Byte) : Hw :=
  (List.range ((bytes.length + 207) / 208)).foldl (fun h k =>
    h.sendOnPort p (h.controlMsg .sess (some 0) 0 0 (BitVec.ofNat 1664 (ofBytes ((bytes.drop (208 * k)).take 208))))) h

/-- The ephemeral private part of the ECDH exchange (1) or of the KEM (2), from the seed in the handshake's transient slot. -/
def Hw.ephemeral (h : Hw) (slot : Nat) (k : Byte) : List Byte := h.seedIn slot ++ [k]

/-- A handshake is under way on the port, and the SCU serves it (R160, R161). -/
def Hw.handshaking (h : Hw) (p : Nat) : Bool := (h.port p).sess == .setup && (h.port p).linkUp && h.joined && h.scuUp && h.scuClocked

/-- SESS_INIT: the SCU starts a handshake (R161, R369, R374). -/
def Hw.sessInit (h : Hw) (p : Fin 16) : Hw :=
  if !h.handshaking p.val || (h.port p.val).eph.isSome || !h.drbgReady then h
  else match h.freeTransient with
    | none => h
    | some k =>
      let seed := h.freeVal 256
      let h := h.tookFree.placeKey k { Slot.free with kind := 1, origin := 1, system := true, usage := 0x02 } seed
      let bytes := Config.publicOf (h.ephemeral k 1) ++ Config.publicOf (h.ephemeral k 2) ++ leBytes h.memberId 2
      (h.setPort p.val { h.port p.val with eph := some k, talk := bytes }).sendHandshake p bytes

/-- An attempt that fails: LINK_SESS_FAIL, and the next one starts in its time (R161). -/
def Hw.sessFail (h : Hw) (p : Fin 16) : Hw :=
  (h.raise (112 + p.val) (detailWord none none p.val 0) 0 0 0).sessionClear p.val .setup

/-- SESS_RESP: the peer is verified, and SESS_FIN answers it (R161). `ecdh`, `text`, `chain` and `signature` are what the peer's
message carries. -/
def Hw.sessResp (h : Hw) (p : Fin 16) (ecdh text chain signature : List Byte) : Hw :=
  let x := h.port p.val
  match h.handshaking p.val, x.eph with
  | true, some k =>
    if x.finSent then h
    else
      let said := x.talk ++ ecdh ++ text ++ chain
      let root := match h.dom.policy with | some q => q.fabricRoot | none => 0
      (match Config.chainSubject root chain with
        | some (key, id) =>
          if Config.verify key (beBytes (Config.sha384 said).toNat 48) signature then
            let secret := Config.agree (h.ephemeral k 1) ecdh ++ Config.kemDecap (h.ephemeral k 2) text
            let own := (h.certChain 0).getD []
            let said := said ++ signature
            let fin := own ++ h.signEc 6 (beBytes (Config.sha384 (said ++ own)).toNat 48)
            (h.setPort p.val { x with
              finSent := true, secret := secret, talk := said ++ fin, peer := BitVec.ofNat 16 (ofBytes id) }).sendHandshake p fin
          else h.sessFail p
        | none => h.sessFail p)
  | _, _ => h

/-- SESS_DONE: the HMAC is checked, and the session's keys are installed (R161, R162, R366). -/
def Hw.sessDone (h : Hw) (p : Fin 16) (mac : List Byte) : Hw :=
  let x := h.port p.val
  if !h.handshaking p.val || !x.finSent then h
  else if beBytes (Config.hmac384 (finishKey x.secret x.talk) x.talk).toNat 48 = mac then
    let h := (h.eraseSlots x.eph.toList).setPort p.val { x with eph := none, sess := .up, lastUpdate := h.clk.now }
    let h := (h.loadLinkKeys p.val false 0).loadLinkKeys p.val true 0
    (h.incReg (Reg.LPORT_SESS_CNT p.val)).setIrq (0x30 + p.val) 0
  else h.sessFail p

/-- SESS_HANDSHAKE_TIMEOUT: a handshake has not completed within 5 ms (R161). -/
def Hw.sessTimeout (h : Hw) (p : Fin 16) : Hw := if h.handshaking p.val then h.sessFail p else h

/-- KEY_DELIVERY_ACCEPT: the IDE engine takes the key on the port, or rejects it with KD_ERR (R74, R75). -/
def Hw.keyTaken (h : Hw) (err : Bool) : Hw :=
  match h.ide.pending with
  | d :: _ => (if err then h.ideFailed d else h.ideAccepted d).leaveAdvance
  | [] => h

/-- KEY_DELIVERY_FAIL: the delivery on the port is not accepted within 100 us (R75). -/
def Hw.keyLate (h : Hw) : Hw := h.keyTaken true

end Sys2Proof.Machine
end

