-- ==== Sys2Proof/Machine/ExecCluster.lean ====
section
/-! DEFINITION. The meaning of each command of the family: cipher clusters, random sources and keys (R245 to R258, R362 to R374). -/

namespace Sys2Proof.Machine

/-- A cluster check fails, and the partner takes over both ports of the pair. R252. -/
def execClusterCheckFail (cluster : Fin 16) (check : CluCheck) (blocks : Nat) (s : State) : Host.Outcome State Fault Refusal :=
  s.onHw fun h => h.clusterCheckFail cluster check blocks

/-- An isolated cluster finishes zeroising its keys and starts the known-answer test. R253. -/
def execZeroiseDone (cluster : Fin 16) (s : State) : Host.Outcome State Fault Refusal :=
  s.onHw fun h => h.zeroiseDone cluster

/-- A known-answer test ends and passes, retries, or sends the cluster to FAILED. R255. -/
def execKatDone (cluster : Fin 16) (pipes : BitVec 30) (units : BitVec 3) (s : State) : Host.Outcome State Fault Refusal :=
  s.onHw fun h => h.katDone cluster pipes units

/-- An isolated cluster's key registers are reloaded, and readmission starts. R253. -/
def execReloadDone (cluster : Fin 16) (s : State) : Host.Outcome State Fault Refusal :=
  s.onHw fun h => h.reloadDone cluster

/-- A port returns to its own cluster at its next message boundary. R253. -/
def execReadmit (cluster : Fin 16) (s : State) : Host.Outcome State Fault Refusal :=
  s.onHw fun h => h.readmit cluster

/-- A write of CLU.CTL.isolate takes a cluster out manually, or brings it back when 0 is written. R258. -/
def execIsolate (cluster : Fin 16) (value : Word) (s : State) : Host.Outcome State Fault Refusal :=
  s.onHw fun h => h.access fun h => h.cluCtl cluster.val value

/-- A write of CLU.CTL.retest starts a new repair of a FAILED or HELD cluster. R255. -/
def execRetest (cluster : Fin 16) (value : Word) (s : State) : Host.Outcome State Fault Refusal :=
  s.onHw fun h => h.access fun h => h.cluCtl cluster.val value

/-- A TRNG health test fails, the entropy is discarded and the source restarts, or it stops after three failures. R373. -/
def execTrngHealth (rct : Bool) (s : State) : Host.Outcome State Fault Refusal :=
  s.onHw fun h => h.trngHealth rct

/-- A DRBG reseed falls due after 2^20 calls or 1 s. R374. -/
def execDrbgReseed (s : State) : Host.Outcome State Fault Refusal :=
  s.onHw fun h => h.drbgReseed

/-- A CFE operation waits more than 1 ms for the DRBG and completes STATE_REFUSED. R374. -/
def execDrbgWaitTimeout (queue : Fin 64) (op : Nat) (s : State) : Host.Outcome State Fault Refusal :=
  s.onHw fun h => h.drbgWaitTimeout queue op

/-- Every 1 ms the Cistern XORs a fresh mask into both shares of every LIVE slot. R362. -/
def execShareRefresh (s : State) : Host.Outcome State Fault Refusal :=
  s.onHw fun h => h.shareRefresh

/-- A missing SEAL key set is derived from its family key within 20 µs. R371. -/
def execKeySetDerive (family : BitVec 16) (epoch : BitVec 16) (txn : BitVec 32) (s : State) : Host.Outcome State Fault Refusal :=
  s.onHw fun h => h.keySetDerive family.toNat epoch.toNat txn.toNat

end Sys2Proof.Machine
end

