-- ==== Sys2Proof/Machine/ExecFault.lean ====
section
/-! DEFINITION. The meaning of each command of the family: faults, hangs and resets (R409 to R431). -/

namespace Sys2Proof.Machine

/-- A fault reaches the FCU, which takes its reactions, records it and queues its history entry. R413. -/
def execFaultRaise (raise : Option Raise) (s : State) : Host.Outcome State Fault Refusal :=
  s.onHw fun h => h.faultRaise raise

/-- A W1C write to FAULT.PENDn clears pending sources. R415. -/
def execFaultClear (index : Fin 12) (value : Word) (s : State) : Host.Outcome State Fault Refusal :=
  s.onHw fun h => h.access fun h => h.faultClear index.val value

/-- A write to FAULT.HIST_POP removes the oldest history entry. R418. -/
def execHistPop (value : Word) (s : State) : Host.Outcome State Fault Refusal :=
  s.onHw fun h => h.access fun h => h.histPop value

/-- A write to FAULT.CLEAR_ALL clears every pending bit and count, and FIRST. R415. -/
def execClearAll (value : Word) (s : State) : Host.Outcome State Fault Refusal :=
  s.onHw fun h => h.access fun h => h.faultClearAll value

/-- A write to INJECT.CTL.arm arms the selected checker, or disarms it when 0 is written. R419. -/
def execInjectArm (value : Word) (s : State) : Host.Outcome State Fault Refusal :=
  s.onHw fun h => h.access fun h => h.injectWrite false fun h => h.injectCtl value

/-- A write to INJECT.RAISE raises a source with the injected flag set. R420. -/
def execInjectRaise (value : Word) (s : State) : Host.Outcome State Fault Refusal :=
  s.onHw fun h => h.access fun h => h.injectWrite false fun h => h.injectRaise value

/-- A wait-for graph pass runs every 10 µs and confirms cycles, naming guilty queues. R423. -/
def execHangPass (s : State) : Host.Outcome State Fault Refusal :=
  s.onHw fun h => h.hangPass

/-- A unit holds work without progress for HANG.UNIT_LIMIT. R425. -/
def execUnitHang (unit : Fin 5) (s : State) : Host.Outcome State Fault Refusal :=
  s.onHw fun h => h.unitHang unit.val

/-- A write to RESET.CMD requests a reset of a domain. R426. -/
def execResetCmd (value : Word) (s : State) : Host.Outcome State Fault Refusal :=
  s.onHw fun h => h.access fun h => h.resetCmd value

/-- The domain's drain ends or RESET.DRAIN expires, and open work is squashed. R427. -/
def execResetDrainEnd (dom : Domain) (s : State) : Host.Outcome State Fault Refusal :=
  s.onHw fun h => h.resetDrainEnd dom

/-- The domain is cleared, and its test phase starts. R427. -/
def execResetClearDone (dom : Domain) (s : State) : Host.Outcome State Fault Refusal :=
  s.onHw fun h => (h.resetClearDone dom).leaveAdvance

/-- The domain passes its test and is released, and the Gate accepts requests for it again. R427. -/
def execResetRelease (dom : Domain) (s : State) : Host.Outcome State Fault Refusal :=
  s.onHw fun h => h.resetRelease dom

/-- RST_COLD_N is asserted, and the block cold-resets and primes. R81. -/
def execRstCold (s : State) : Host.Outcome State Fault Refusal :=
  s.onHw fun h => h.rstCold

end Sys2Proof.Machine
end

