-- ==== Sys2Proof/Machine/ExecFront.lean ====
section
/-! DEFINITION. The meaning of each command of the family: command buffers and their operations (R213 to R281). -/

namespace Sys2Proof.Machine

/-- The CFE issues the next ready operation of a queue, within the queue shares. R271. -/
def execCfeIssue (queue : Fin 64) (s : State) : Host.Outcome State Fault Refusal :=
  s.onHw fun h => h.cfeIssue queue

/-- The NOP operation completes OK. R273. -/
def execNop (queue : Fin 64) (op : Nat) (s : State) : Host.Outcome State Fault Refusal :=
  s.onHw fun h => h.nop queue op

/-- SEAL_COPY moves lines between device memory and a SEAL region, sealing or unsealing them. R128. -/
def execSealCopy (queue : Fin 64) (op : Nat) (s : State) : Host.Outcome State Fault Refusal :=
  s.onHw fun h => h.sealCopy queue op

/-- BULK_MOVE carries lines to or from another rack's pool through the gateway member. R186. -/
def execBulkMove (queue : Fin 64) (op : Nat) (s : State) : Host.Outcome State Fault Refusal :=
  s.onHw fun h => h.bulkMove queue op

/-- BLIND_REDUCE is checked and opens a collective context in the BRU. R214. -/
def execBlindReduce (queue : Fin 64) (op : Nat) (desc : Line) (next : Line) (walk : BttWalk) (s : State) : Host.Outcome State Fault Refusal :=
  s.onHw fun h => h.blindReduce queue op desc next walk

/-- A context finishes OPENING and enters PROBING, SENDING or RECEIVING. R215. -/
def execCollectiveOpened (queue : Fin 64) (op : Nat) (first : CollRead) (second : CollRead) (walk : BttWalk) (s : State) : Host.Outcome State Fault Refusal :=
  s.onHw fun h => h.collectiveOpened queue op first second walk

/-- A probe answer sets the block scales, or ends the collective INCOMPLETE. R215. -/
def execBlExpmaxAnswer (port : Fin 16) (msg : Message) (s : State) : Host.Outcome State Fault Refusal :=
  s.onHw fun h => h.blExpmaxAnswer port msg

/-- The BRU converts, masks, tags and sends a block as BL_CONTRIB. R222. -/
def execBlContribSend (queue : Fin 64) (op : Nat) (src : List SrcBlock) (walk : BttWalk) (s : State) : Host.Outcome State Fault Refusal :=
  s.onHw fun h => h.blContribSend queue op src walk

/-- A BL_CONTRIB or BL_READ answer is checked and demasked, and the block is written or counted as failed. R216. -/
def execBlindAnswer (port : Fin 16) (msg : Message) (walk : BttWalk) (s : State) : Host.Outcome State Fault Refusal :=
  s.onHw fun h => h.blindAnswer port msg walk

/-- T_GROUP expires in DRAINING, and the remaining blocks end INCOMPLETE. R216. -/
def execTGroupExpiry (queue : Fin 64) (op : Nat) (s : State) : Host.Outcome State Fault Refusal :=
  s.onHw fun h => h.tGroupExpiry queue op

/-- A collective closes, writes its completion, erases K and frees its context. R217. -/
def execCollectiveClose (queue : Fin 64) (op : Nat) (s : State) : Host.Outcome State Fault Refusal :=
  s.onHw fun h => h.collectiveClose queue op

/-- DISPATCH writes each destination's section padded to its shaped count. R239. -/
def execDispatch (queue : Fin 64) (op : Nat) (desc : Line) (route : List (BitVec 16)) (members : List (BitVec 16)) (walk : BttWalk) (s : State) : Host.Outcome State Fault Refusal :=
  s.onHw fun h => h.dispatch queue op desc route members walk

/-- COMBINE authenticates each received section and writes it back to its origin. R243. -/
def execCombine (queue : Fin 64) (op : Nat) (desc : Line) (members : List (BitVec 16)) (walk : BttWalk) (s : State) : Host.Outcome State Fault Refusal :=
  s.onHw fun h => h.combine queue op desc members walk

/-- REKEY_START checks the range, runs an open round and adds the range to the Pump work list. R156. -/
def execRekeyStart (queue : Fin 64) (op : Nat) (reads : PartReads) (walk : BttWalk) (s : State) : Host.Outcome State Fault Refusal :=
  s.onHw fun h => h.rekeyStart queue op reads walk

/-- REKEY_ABORT parks the range's QUEUED and WET granules. R158. -/
def execRekeyAbort (queue : Fin 64) (op : Nat) (s : State) : Host.Outcome State Fault Refusal :=
  s.onHw fun h => h.rekeyAbort queue op

/-- FENCE_SIGNAL waits for its covered writes and sets a local or remote fence. R276. -/
def execFenceSignal (queue : Fin 64) (op : Nat) (s : State) : Host.Outcome State Fault Refusal :=
  s.onHw fun h => h.fenceSignalOp queue op

/-- FENCE_WAIT waits for a fence to reach a value, with a timeout. R278. -/
def execFenceWait (queue : Fin 64) (op : Nat) (s : State) : Host.Outcome State Fault Refusal :=
  s.onHw fun h => h.fenceWaitOp queue op

/-- A FENCE_WAIT timeout passes, and the wait completes TIMEOUT. R278. -/
def execFenceWaitTimeout (queue : Fin 64) (op : Nat) (s : State) : Host.Outcome State Fault Refusal :=
  s.onHw fun h => h.fenceWaitTimeout queue op

/-- EVENT_SET sets an event of the slice. R279. -/
def execEventSet (queue : Fin 64) (op : Nat) (s : State) : Host.Outcome State Fault Refusal :=
  s.onHw fun h => h.eventSetOp queue op

/-- BARRIER waits for earlier operations and, with stop set, aborts the buffer after a failure. R279. -/
def execBarrier (queue : Fin 64) (op : Nat) (s : State) : Host.Outcome State Fault Refusal :=
  s.onHw fun h => h.barrierOp queue op

/-- MEASURE extends a measurement register with device memory contents. R280. -/
def execMeasure (queue : Fin 64) (op : Nat) (data : List Byte) (walk : BttWalk) (s : State) : Host.Outcome State Fault Refusal :=
  s.onHw fun h => h.measure queue op data walk

/-- KEY_OP FAMILY_OPEN derives a family key into a slice slot. R375. -/
def execFamilyOpen (queue : Fin 64) (op : Nat) (s : State) : Host.Outcome State Fault Refusal :=
  s.onHw fun h => h.familyOpen queue op

/-- KEY_OP ERASE erases a slot and every cached key set of its family. R375. -/
def execKeyErase (queue : Fin 64) (op : Nat) (s : State) : Host.Outcome State Fault Refusal :=
  s.onHw fun h => h.keyErase queue op

end Sys2Proof.Machine
end

