-- ==== Sys2Proof/Machine/ExecGate.lean ====
section
/-! DEFINITION. The meaning of each command of the family: Gate and SEAL path (R93 to R122). -/

namespace Sys2Proof.Machine

/-- A resolution ends with a placed window or a NO_WINDOW or PERM negative entry, or is discarded and restarted. R97. -/
def execWindowResolutionDone (slice : Fin 1024) (granule : Nat) (s : State) : Host.Outcome State Fault Refusal :=
  s.onHw fun h => h.windowResolutionDone slice granule

/-- A walk read of the Region Directory, a granule map or the Region Table completes and is checked. R95. -/
def execRegionWalkRead (slice : Fin 1024) (granule : Nat) (read : MemRead) (ns : Nat) (s : State) : Host.Outcome State Fault Refusal :=
  s.onHw fun h => h.regionWalkRead slice granule read ns

/-- A write of GATE.WCACHE_INV.all invalidates every unpinned window. R98. -/
def execWcacheInvAll (value : Word) (s : State) : Host.Outcome State Fault Refusal :=
  s.onHw fun h => h.access fun h => if bit value 0 then h.wcacheInvAll else h

/-- A write of GATE.WCACHE_INV.by_slice invalidates the unpinned windows of one slice. R98. -/
def execWcacheInvBySlice (value : Word) (s : State) : Host.Outcome State Fault Refusal :=
  s.onHw fun h => h.access fun h => if bit value 1 then h.wcacheInvSlice (fld value 16 10) else h

/-- The Regulator passes a SEAL store, which is sealed under the current epoch and sent with its metadata. R114. -/
def execSealStoreEgress (txn : BitVec 32) (s : State) : Host.Outcome State Fault Refusal :=
  s.onHw fun h => h.sealStoreEgress txn.toNat

/-- A SEAL response line is resolved against its etag, decrypted and released to the master. R113. -/
def execSealLoadResponse (port : Fin 16) (msg : Message) (s : State) : Host.Outcome State Fault Refusal :=
  s.onHw fun h => h.sealLoadResponse port msg

/-- The MAC check of a loaded line ends 14 CK_ENG cycles after the data, and under VERIFIED the held line is released or
replaced. R117. -/
def execSealMacCheckDone (txn : BitVec 32) (s : State) : Host.Outcome State Fault Refusal :=
  s.onHw fun h => h.sealMacCheckDone txn.toNat

/-- A write to SEAL.QUAR_REL releases a slice from quarantine, and its queues resume. R122. -/
def execQuarRel (value : Word) (s : State) : Host.Outcome State Fault Refusal :=
  s.onHw fun h => h.access fun h => h.quarRel value

end Sys2Proof.Machine
end

