-- ==== Sys2Proof/Machine/ExecKeys.lean ====
section
/-! DEFINITION. The meaning of each command of the family: granule keys and the Rekey Pump (R134 to R158). -/

namespace Sys2Proof.Machine

/-- A request needs an entry missing from the GKT cache and starts a partition read or a GKT_GET fetch. R140. -/
def execGktCacheMiss (txn : BitVec 32) (s : State) : Host.Outcome State Fault Refusal :=
  s.onHw fun h => h.gktCacheMiss txn.toNat

/-- A read of the member's own partition completes and is checked for valid, crc and pstate. R137. -/
def execGktPartitionRead (granule : Nat) (read : MemRead) (s : State) : Host.Outcome State Fault Refusal :=
  s.onHw fun h => h.gktPartitionRead granule read

/-- A home receives GKT_GET and answers with GKT_ENTRY or with NO_TARGET. R140. -/
def execGktGet (msg : Message) (first : MemRead) (second : MemRead) (walk : BttWalk) (s : State) : Host.Outcome State Fault Refusal :=
  s.onHw fun h => h.gktGet msg first second walk

/-- A member receives GKT_ENTRY and fills its cache, or discards the answer and fetches again. R143. -/
def execGktEntry (port : Fin 16) (msg : Message) (s : State) : Host.Outcome State Fault Refusal :=
  s.onHw fun h => h.gktEntry port msg

/-- A member applies GKT_OPEN: it derives the new key sets of its cached entries and invalidates those entries. R141. -/
def execGktOpen (msg : Message) (s : State) : Host.Outcome State Fault Refusal :=
  s.onHw fun h => h.gktOpen msg

/-- A member sends GKT_ACK once its key sets are ready and its earlier stores to the range have completed. R142. -/
def execGktAckSend (home : BitVec 16) (seq : BitVec 16) (reads : PartReads) (walk : BttWalk) (s : State) : Host.Outcome State Fault Refusal :=
  s.onHw fun h => h.gktAckSend home.toNat seq.toNat reads walk

/-- A home receives GKT_ACK, and its last acknowledgement moves the round's granules to QUEUED. R144. -/
def execGktAck (msg : Message) (reads : PartReads) (walk : BttWalk) (s : State) : Host.Outcome State Fault Refusal :=
  s.onHw fun h => h.gktAck msg reads walk

/-- A member applies GKT_CLOSE and overwrites the cached entries with the epoch and dual that it carries. R141. -/
def execGktClose (msg : Message) (s : State) : Host.Outcome State Fault Refusal :=
  s.onHw fun h => h.gktClose msg

/-- A home sends GKT_CLOSE for closed granules no later than 1 µs after the first of them closed. R141. -/
def execGktCloseSend (s : State) : Host.Outcome State Fault Refusal :=
  s.onHw fun h => h.gktCloseSend

/-- PUMP.T_ACK expires with acknowledgements missing, and GKT_OPEN is resent or the round's granules are parked. R145. -/
def execOpenRoundAckTimeout (seq : BitVec 16) (reads : PartReads) (walk : BttWalk) (s : State) : Host.Outcome State Fault Refusal :=
  s.onHw fun h => h.openRoundAckTimeout seq.toNat reads walk

/-- The Pump issues a four-line read of the WET granule within its rate budget. R147. -/
def execPumpSweepRead (reads : PartReads) (walk : BttWalk) (s : State) : Host.Outcome State Fault Refusal :=
  s.onHw fun h => h.pumpSweepRead reads walk

/-- The Pump handles each line of an answer by its etag: it re-seals, skips, or counts the line as failed or foreign.
R147. -/
def execPumpReadAnswer (port : Fin 16) (msg : Message) (s : State) : Host.Outcome State Fault Refusal :=
  s.onHw fun h => h.pumpReadAnswer port msg

/-- An epoch-conditional write is answered OK or CONDITION_FAILED, and the Pump cursor advances. R148. -/
def execCondWriteAnswer (port : Fin 16) (msg : Message) (s : State) : Host.Outcome State Fault Refusal :=
  s.onHw fun h => h.condWriteAnswer port msg

/-- PUMP.CURSOR reaches 32,768, and the granule goes through CLOSING to IDLE with dual 0. R150. -/
def execGranuleClose (s : State) : Host.Outcome State Fault Refusal :=
  s.onHw fun h => h.granuleClose

/-- A Pump transfer completes DEAD_TARGET, and the WET granule is parked. R153. -/
def execPumpStuck (s : State) : Host.Outcome State Fault Refusal :=
  s.onHw fun h => h.pumpStuck

/-- A 1 µs Pump rate window begins, and the read budget refills. R151. -/
def execPumpRateWindow (s : State) : Host.Outcome State Fault Refusal :=
  s.onHw fun h => h.pumpRateWindow

/-- PUMP.CTL.pause or U3 entry stops the Pump at a line boundary without parking anything. R154. -/
def execPumpPause (write : Option Word) (s : State) : Host.Outcome State Fault Refusal :=
  s.onHw fun h => if write.isSome then h.access fun h => h.pumpPause write else h.pumpPause write

end Sys2Proof.Machine
end

