-- ==== Sys2Proof/Machine/ExecLink.lean ====
section
/-! DEFINITION. The meaning of each command of the family: Regulator, egress, Link Ports and gateways (R160 to R191, R342 to R355). -/

namespace Sys2Proof.Machine

/-- A cluster, the BRU or an egress VC queue can accept work, and the Regulator passes the first waiting item in its
order of service. R348. -/
def execRegulatorPass (s : State) : Host.Outcome State Fault Refusal :=
  s.onHw fun h => h.regulatorPass

/-- At a window boundary every master's charge returns to 0, pending writes take effect, and floors and shares are
judged. R346. -/
def execBudgetRefill (s : State) : Host.Outcome State Fault Refusal :=
  s.onHw fun h => h.budgetRefill

/-- Work waits AGE_MAX and is passed at step 3, or BACKGROUND work waits BG_AGE and is promoted. R352. -/
def execWorkAged (seq : Nat) (promote : Bool) (s : State) : Host.Outcome State Fault Refusal :=
  s.onHw fun h => h.workAged seq promote

/-- A port's egress scheduler visits a VC, adds its quantum and starts whole messages within the deficit. R353. -/
def execEgressVisit (port : Fin 16) (gate : BitVec 4) (room : Nat) (s : State) : Host.Outcome State Fault Refusal :=
  s.onHw fun h => (h.egressVisit port gate room).leaveAdvance

/-- A gate stays closed with a message waiting for longer than EGRESS.GATE_MAX. R355. -/
def execTgateStuck (port : Fin 16) (vc : Fin 4) (s : State) : Host.Outcome State Fault Refusal :=
  s.onHw fun h => h.tgateStuck port vc

/-- The link layer returns one flit credit for a VC, and a credit beyond 255 raises LP_PROTOCOL. R65. -/
def execTxCredit (port : Fin 16) (vc : Fin 4) (s : State) : Host.Outcome State Fault Refusal :=
  s.onHw fun h => h.txCredit port vc

/-- An ingress flit's tag and fields are checked, and the flit is routed to its consumer or dropped. R164. -/
def execIngressFlit (port : Fin 16) (wire : WireMessage) (s : State) : Host.Outcome State Fault Refusal :=
  s.onHw fun h => h.ingressFlit port wire h.collTxn

/-- An ingress buffer is freed once the flit has passed the crossbar unflagged, and RX_CREDIT is pulsed. R251. -/
def execIngressCreditReturn (port : Fin 16) (vc : Fin 4) (s : State) : Host.Outcome State Fault Refusal :=
  s.onHw fun h => h.ingressCreditReturn port vc

/-- LINK_UP rises, 32 credits per VC are returned, and a session handshake starts if the block is joined. R64. -/
def execLinkUpRise (port : Fin 16) (s : State) : Host.Outcome State Fault Refusal :=
  s.onHw fun h => h.linkUpRise port

/-- LINK_UP falls, the session ends, and every outstanding transaction on the port is treated as re-routed. R66. -/
def execLinkUpFall (port : Fin 16) (s : State) : Host.Outcome State Fault Refusal :=
  s.onHw fun h => (h.linkUpFall port).leaveAdvance

/-- PATH_GEN changes, and the outstanding transactions on the port start their T_PATH waits. R66. -/
def execPathGenChange (port : Fin 16) (gen : BitVec 8) (s : State) : Host.Outcome State Fault Refusal :=
  s.onHw fun h => h.pathGenChange port gen

/-- T_PATH expires for a re-routed transaction, which is reissued or, for an atomic, completes UNCERTAIN. R180. -/
def execTPathExpiry (txn : BitVec 32) (s : State) : Host.Outcome State Fault Refusal :=
  s.onHw fun h => h.tPathExpiry txn.toNat

/-- A transaction has no response LINK.T_DEAD after its last flit and completes DEAD_TARGET with the fill pattern. R178. -/
def execTDeadExpiry (txn : BitVec 32) (s : State) : Host.Outcome State Fault Refusal :=
  s.onHw fun h => h.tDeadExpiry txn.toNat

/-- A response flit matches an outstanding transaction and completes it by its status. R170. -/
def execFabricResponse (port : Fin 16) (msg : Message) (s : State) : Host.Outcome State Fault Refusal :=
  s.onHw fun h => h.fabricResponse port msg

/-- The SCU starts a link session handshake by sending SESS_INIT. R161. -/
def execSessInit (port : Fin 16) (s : State) : Host.Outcome State Fault Refusal :=
  s.onHw fun h => h.sessInit port

/-- The block receives SESS_RESP, verifies the peer and answers SESS_FIN. R161. -/
def execSessResp (port : Fin 16) (ecdh : List Byte) (text : List Byte) (chain : List Byte) (signature : List Byte) (s : State) : Host.Outcome State Fault Refusal :=
  s.onHw fun h => h.sessResp port ecdh text chain signature

/-- The block receives SESS_DONE, checks the HMAC and installs the session keys. R162. -/
def execSessDone (port : Fin 16) (mac : List Byte) (s : State) : Host.Outcome State Fault Refusal :=
  s.onHw fun h => h.sessDone port mac

/-- A handshake fails or does not complete within 5 ms, LINK_SESS_FAIL is raised, and a retry follows every 10 ms. R161. -/
def execSessHandshakeTimeout (port : Fin 16) (s : State) : Host.Outcome State Fault Refusal :=
  s.onHw fun h => h.sessTimeout port

/-- A sequence reaches 2^32 or KU_INTERVAL expires, and the block sends KEY_UPDATE on each VC. R165. -/
def execKeyUpdateStart (port : Fin 16) (s : State) : Host.Outcome State Fault Refusal :=
  s.onHw fun h => h.keyUpdateStart port

/-- A peer KEY_UPDATE switches one VC's receive generation, or raises LINK_KU_EARLY if it arrives early. R165. -/
def execKeyUpdate (port : Fin 16) (msg : Message) (s : State) : Host.Outcome State Fault Refusal :=
  s.onHw fun h => h.keyUpdate port msg

/-- A SESS_END from the peer ends the port's session. R165. -/
def execSessEnd (port : Fin 16) (s : State) : Host.Outcome State Fault Refusal :=
  s.onHw fun h => (h.sessEnd port).leaveAdvance

/-- A write to LPORT.SESS_CTL.restart sends SESS_END, applies the re-route rules and starts a handshake. R165. -/
def execSessCtlRestart (port : Fin 16) (value : Word) (s : State) : Host.Outcome State Fault Refusal :=
  s.onHw fun h => h.access fun h => h.sessCtlRestart port value

/-- A member receives FENCE_REMOTE and applies it or answers REFUSED. R327. -/
def execFenceRemote (msg : Message) (s : State) : Host.Outcome State Fault Refusal :=
  s.onHw fun h => h.fenceRemote msg

/-- A gateway member checks a BULK_PUT, judges it, writes the lines through its class path and answers BULK_ACK. R187. -/
def execBulkPut (port : Fin 16) (msg : Message) (s : State) : Host.Outcome State Fault Refusal :=
  s.onHw fun h => h.bulkPut port msg

/-- A gateway member reads the lines through its class path and answers BULK_DATA. R187. -/
def execBulkGet (msg : Message) (s : State) : Host.Outcome State Fault Refusal :=
  s.onHw fun h => h.bulkGet msg

/-- LINK.IDE_REFRESH expires, and fresh IDE keys are delivered into the other key set. R190. -/
def execIdeRefreshTimer (s : State) : Host.Outcome State Fault Refusal :=
  s.onHw fun h => h.ideTimer

/-- A host requests an IDE key refresh and is answered IDE_REFRESH_DONE with a status. R191. -/
def execIdeRefreshReq (path : Path) (session : Nat) (stream : BitVec 8) (s : State) : Host.Outcome State Fault Refusal :=
  s.onHw fun h => h.takeApp path session (.ideRefresh stream.toNat)

/-- The IDE engine takes a key on KD_READY, or rejects it with KD_ERR. R74. -/
def execKeyDeliveryAccept (err : Bool) (s : State) : Host.Outcome State Fault Refusal :=
  s.onHw fun h => h.keyTaken err

/-- A delivery is rejected or not accepted within 100 µs. R75. -/
def execKeyDeliveryFail (s : State) : Host.Outcome State Fault Refusal :=
  s.onHw fun h => h.keyLate

end Sys2Proof.Machine
end

