-- ==== Sys2Proof/Machine/ExecObjects.lean ====
section
/-! DEFINITION. The meaning of each command of the family: slices, fences and events (R315 to R341). -/

namespace Sys2Proof.Machine

/-- SLICE.CMD BIND binds a PASID to a FREE slice. R316. -/
def execBind (s : State) : Host.Outcome State Fault Refusal :=
  s.onHw fun h => h.access fun h => h.bindSlice

/-- SLICE.CMD REMOVE starts the removal of an ACTIVE or DEAD slice. R335. -/
def execRemove (s : State) : Host.Outcome State Fault Refusal :=
  s.onHw fun h => h.access fun h => h.removeSlice

/-- SLICE.CMD TEARDOWN starts the teardown of an ACTIVE slice. R335. -/
def execTeardown (s : State) : Host.Outcome State Fault Refusal :=
  s.onHw fun h => h.access fun h => h.teardownSlice

/-- A slice's outstanding work finishes, or SLICE.DRAIN expires and the remainder is squashed. R337. -/
def execSliceDrainEnd (slice : Fin 1024) (s : State) : Host.Outcome State Fault Refusal :=
  s.onHw fun h => h.sliceDrainEnd slice

/-- No unit holds work tagged with the slice's slots, and the barrier clears. R338. -/
def execSliceBarrierClear (slice : Fin 1024) (s : State) : Host.Outcome State Fault Refusal :=
  s.onHw fun h => h.sliceBarrierClear slice

/-- The barrier has not cleared 100 µs after it began. R338. -/
def execSliceBarrierSlow (slice : Fin 1024) (s : State) : Host.Outcome State Fault Refusal :=
  s.onHw fun h => h.sliceBarrierSlow slice

/-- The SCU confirms erasure of the slice's slots, and the sump and finish steps follow. R336. -/
def execSliceSlotsErased (slice : Fin 1024) (s : State) : Host.Outcome State Fault Refusal :=
  s.onHw fun h => (h.sliceSlotsErased slice).leaveAdvance

/-- FENCE.CMD ALLOC allocates a fence with its initial value. R322. -/
def execFenceAlloc (value : Word) (s : State) : Host.Outcome State Fault Refusal :=
  s.onHw fun h => h.access fun h => h.fenceAlloc value

/-- FENCE.CMD FREE orphans a fence and then frees it. R328. -/
def execFenceFree (s : State) : Host.Outcome State Fault Refusal :=
  s.onHw fun h => h.access fun h => h.fenceFree

/-- FENCE.CMD RESET returns a fence to UNSIGNALLED with its initial value. R328. -/
def execFenceReset (s : State) : Host.Outcome State Fault Refusal :=
  s.onHw fun h => h.access fun h => h.fenceReset

/-- A write to SW_FSIG_HI signals the selected fence. R325. -/
def execSwFsig (pasid : BitVec 20) (value : Word) (s : State) : Host.Outcome State Fault Refusal :=
  s.onHw fun h => h.whenReady fun h => h.swFsig pasid.toNat value

/-- A write to SW_FCLR from the owner clears the selected fence's error. R328. -/
def execSwFclr (pasid : BitVec 20) (value : Word) (s : State) : Host.Outcome State Fault Refusal :=
  s.onHw fun h => h.whenReady fun h => h.swFclr pasid.toNat value

/-- EVENT.CMD ALLOC allocates an event. R330. -/
def execEventAlloc (s : State) : Host.Outcome State Fault Refusal :=
  s.onHw fun h => h.access fun h => h.eventAlloc

/-- EVENT.CMD FREE frees an event. R330. -/
def execEventFree (s : State) : Host.Outcome State Fault Refusal :=
  s.onHw fun h => h.access fun h => h.eventFree

/-- A write to SW_ESET sets the selected event. R331. -/
def execSwEset (pasid : BitVec 20) (value : Word) (s : State) : Host.Outcome State Fault Refusal :=
  s.onHw fun h => h.whenReady fun h => h.swEset pasid.toNat value

/-- A W1C write to EVENT.STATEn or SW_ECLR clears manual events. R331. -/
def execEventClear (pasid : Option (BitVec 20)) (group : Fin 32) (value : Word) (s : State) : Host.Outcome State Fault Refusal :=
  s.onHw fun h => match pasid with | some p => h.whenReady fun h => h.swAccess p.toNat 0x04C (some value) | none => h.access fun h => h.eventClearMask group value

end Sys2Proof.Machine
end

