-- ==== Sys2Proof/Machine/ExecPins.lean ====
section
/-! DEFINITION. The meaning of each command of the family: fuses, time, rails, test access, registers and the remaining commands (R62 to R82, R451 to R458). -/

namespace Sys2Proof.Machine

/-- FU_BUSY falls after programming, the array is read again, and FU_ERR or a 1 ms stall raises FUSE_FAIL. R73. -/
def execFuseProgramDone (err : Bool) (s : State) : Host.Outcome State Fault Refusal :=
  s.onMachine fun h v => h.fuseProgramDone v err

/-- TP_NS decreases or jumps by more than 1,000, and TIME_STEP is raised. R76. -/
def execTimeStep (ns : BitVec 64) (s : State) : Host.Outcome State Fault Refusal :=
  s.onHw fun h => h.timeStep ns

/-- TP_VALID falls, and the block continues network time from CK_ENG counts. R76. -/
def execTimeLost (s : State) : Host.Outcome State Fault Refusal :=
  s.onHw fun h => h.timeLost

/-- TP_VALID returns, and the block takes TP_NS again. R76. -/
def execTimeRegained (ns : BitVec 64) (s : State) : Host.Outcome State Fault Refusal :=
  s.onHw fun h => h.timeRegained ns

/-- A rail sample arrives and is checked against the thresholds. R77. -/
def execRailSample (mv : BitVec 16) (s : State) : Host.Outcome State Fault Refusal :=
  s.onHw fun h => h.railSample mv

/-- No rail sample arrives for 10 µs. R77. -/
def execRailSenseLost (s : State) : Host.Outcome State Fault Refusal :=
  s.onHw fun h => h.railSenseLost

/-- A TAP instruction is loaded and acts, or acts as BYPASS if the state forbids it. R377. -/
def execTapInstruction (code : BitVec 5) (clocks : List (Bool × Bool)) (s : State) : Host.Outcome State Fault Refusal :=
  s.onHw fun h => h.tapInstruction code clocks

/-- A write to a page's IRQ_SET sets IRQ_STAT bits. R456. -/
def execIrqSet (page : BitVec 7) (value : Word) (s : State) : Host.Outcome State Fault Refusal :=
  s.onHw fun h => h.whenReady fun h => h.pageWrite page.toNat fun h => h.irqSetWrite page.toNat value

/-- A write to PAGE_CTL.fault_clr clears a page's PAGE_FAULT bits. R456. -/
def execFaultClr (page : BitVec 7) (value : Word) (s : State) : Host.Outcome State Fault Refusal :=
  s.onHw fun h => h.whenReady fun h => h.pageWrite page.toNat fun h => h.pageCtlWrite page.toNat value

/-- A write of PAGE_LOCK locks a page's RWL fields until cold reset. R457. -/
def execPageLock (page : BitVec 7) (value : Word) (s : State) : Host.Outcome State Fault Refusal :=
  s.onHw fun h => h.whenReady fun h => h.pageWrite page.toNat fun h => h.pageLockWrite page.toNat value

/-- A write to a page's CNT_CLR zeroes every counter on that page. R453. -/
def execCntClr (page : BitVec 7) (value : Word) (s : State) : Host.Outcome State Fault Refusal :=
  s.onHw fun h => h.whenReady fun h => h.pageWrite page.toNat fun h => if (cntClrOff page.toNat).isSome then h.cntClrWrite page.toNat value else h

/-- A register access without a row of its own completes OK, DENIED or UNMAPPED under the access codes. R452. -/
def execRegisterWrite (pasid : Option (BitVec 20)) (addr : BitVec 19) (write : Option Word) (s : State) : Host.Outcome State Fault Refusal :=
  s.onHw fun h => h.whenReady fun h => h.portAccess pasid addr.toNat write

/-- RST_COLD_N or RST_WARM_N is released after being held, and the block releases its clock domains from reset in order
and begins priming at phase 1. R81. -/
def execResetPinRelease (s : State) : Host.Outcome State Fault Refusal :=
  s.onHw fun h => h.resetPinRelease

/-- The CFE presents a fabric or gateway transfer to the Gate through the CK_ENG to CK_HOST crossing, including a
transfer presented again after RETRY, and receives the answer in the cycle of presentation. R83. -/
def execCfeTransferPresent (queue : Fin 64) (op : Nat) (data : List Line) (code : BitVec 2) (walk : BttWalk) (s : State) : Host.Outcome State Fault Refusal :=
  s.onHw fun h => h.cfeTransferPresent queue op data code.toNat walk

/-- A slot word with a reserved op (8 to 15) is taken from SCH_WORD, draws a MALFORMED completion and raises
SCHED_PROTOCOL, or is dropped when 64 completions are pending. R296. -/
def execReservedSlotOp (word : BitVec 64) (s : State) : Host.Outcome State Fault Refusal :=
  s.onHw fun h => h.reservedSlotOp word

/-- The 72 CK_ENG cycles of a quiet window's tail run out, SCHED.STAT.tail clears, and the Scheduled-Port bounds apply
again. R311. -/
def execQuietTailEnd (s : State) : Host.Outcome State Fault Refusal :=
  s.onHw fun h => h.quietTailEnd

/-- A new 1 µs allowance period begins, and VC_CTL ingress flits held beyond the allowance under DETERMINISTIC are
processed and their credits returned. R312. -/
def execCtlIngressAllowance (s : State) : Host.Outcome State Fault Refusal :=
  s.onHw fun h => h.ctlIngressAllowance h.collTxn

/-- FU_BUSY stays at 1 for more than 1 ms during fuse programming, and FUSE_FAIL is raised. R73. -/
def execFuBusyStall (s : State) : Host.Outcome State Fault Refusal :=
  s.onHw fun h => h.fuBusyStall

/-- The start-up test of a TRNG restarted after a health failure passes, its output becomes usable, and a waiting DRBG
reseed and its consumers proceed. R373. -/
def execTrngStartupPass (s : State) : Host.Outcome State Fault Refusal :=
  s.onHw fun h => h.trngStartupPass

/-- TRST_N is asserted and resets the TAP, or is ignored while the block is joined. R82. -/
def execTrstN (s : State) : Host.Outcome State Fault Refusal :=
  s.onHw fun h => h.trstN

end Sys2Proof.Machine
end

