-- ==== Sys2Proof/Machine/ExecPorts.lean ====
section
/-! DEFINITION. The meaning of each command of the family: Transaction Ports (R49 to R58). -/

namespace Sys2Proof.Machine

/-- A Transaction Port presents a request, and the Gate grants it or refuses it with a code in the same CK_HOST cycle.
R87. -/
def execUtpRequest (port : Fin 8) (req : UtpReq) (s : State) : Host.Outcome State Fault Refusal :=
  s.onHw fun h => h.utpRequest port req

/-- A master transfers the write data beat of the oldest granted STORE or atomic on its port. R55. -/
def execWriteDataBeat (port : Fin 8) (beat : BitVec 2048) (s : State) : Host.Outcome State Fault Refusal :=
  s.onHw fun h => h.writeDataBeat port beat

/-- A write data beat or a ready signal is stalled for 4,096 CK_HOST cycles, and UTP_STALL is raised. R55. -/
def execUtpStall (port : Fin 8) (s : State) : Host.Outcome State Fault Refusal :=
  s.onHw fun h => h.utpStall port

/-- A read data beat is transferred to the master, which starts its UNTRUSTED window. R57. -/
def execReadDataBeat (port : Fin 8) (tag : BitVec 10) (s : State) : Host.Outcome State Fault Refusal :=
  s.onHw fun h => h.readDataBeat port tag

/-- A store or atomic response is transferred to the master with its status. R56. -/
def execResponseBeat (port : Fin 8) (tag : BitVec 10) (s : State) : Host.Outcome State Fault Refusal :=
  s.onHw fun h => h.responseBeat port tag

/-- A LOAD's tag becomes free 19 CK_HOST cycles after its read data beat. R52. -/
def execTagRelease (port : Fin 8) (tag : BitVec 10) (s : State) : Host.Outcome State Fault Refusal :=
  s.onHw fun h => h.tagRelease port tag

end Sys2Proof.Machine
end

