-- ==== Sys2Proof/Machine/ExecPower.lean ====
section
/-! DEFINITION. The meaning of each command of the family: power and clocks (R33 to R47). -/

namespace Sys2Proof.Machine

/-- A write to PWR.PROFILE requests a profile change, or wakes the block when it sets DETERMINISTIC. R36. -/
def execProfileWrite (value : Word) (s : State) : Host.Outcome State Fault Refusal :=
  s.onHw fun h => h.access fun h => h.profileWrite value

/-- The requested profile takes effect within 2 µs, and pending clears. R36. -/
def execProfileEffect (s : State) : Host.Outcome State Fault Refusal :=
  s.onHw fun h => h.profileEffect

/-- A write to PWR.RUNG_REQ requests a rung, or is refused with a code. R40. -/
def execRungReq (value : Word) (s : State) : Host.Outcome State Fault Refusal :=
  s.onHw fun h => h.access fun h => h.rungReq value

/-- PWR.IDLE_U1 cycles pass without pipeline work, and the block enters U1. R39. -/
def execAutoU1Entry (s : State) : Host.Outcome State Fault Refusal :=
  s.onHw fun h => h.autoU1

/-- PWR.IDLE_U2 passes without work, and the block enters U2. R39. -/
def execAutoU2Entry (s : State) : Host.Outcome State Fault Refusal :=
  s.onHw fun h => h.autoU2

/-- A rung transition completes, and the rung is in force. R38. -/
def execRungEntryDone (s : State) : Host.Outcome State Fault Refusal :=
  s.onHw fun h => h.rungEntryDone

/-- The entry conditions are not met within 100 µs, and the request is refused BUSY. R40. -/
def execRungEntryTimeout (s : State) : Host.Outcome State Fault Refusal :=
  s.onHw fun h => h.rungEntryTimeout

/-- A wake event starts an exit to U0, or abandons a rung entry. R42. -/
def execWakeEvent (cause : BitVec 4) (port : Fin 16) (s : State) : Host.Outcome State Fault Refusal :=
  s.onHw fun h => h.wakeEvent cause.toNat port.val

/-- The exit time passes, and the block reaches U0. R38. -/
def execRungExitDone (s : State) : Host.Outcome State Fault Refusal :=
  s.onHw fun h => h.rungExitDone.scuSettle

/-- A required clock is not seen 1 ms after a U4 or U5 exit request, and the request is refused CLOCK. R80. -/
def execClockPresenceTimeout (s : State) : Host.Outcome State Fault Refusal :=
  s.onHw fun h => h.clockPresenceTimeout

/-- A 10 µs measurement window ends, and the rate and range bits are updated. R47. -/
def execClockWindow (host : Option (BitVec 16)) (eng : Option (BitVec 16)) (mgt : Option (BitVec 16)) (lnk : List (Option (BitVec 16))) (s : State) : Host.Outcome State Fault Refusal :=
  s.onHw fun h => h.clockWindow host eng mgt lnk

end Sys2Proof.Machine
end

