-- ==== Sys2Proof/Machine/DevDone.lean ====
section
/-! DEFINITION. How transactions of the Device Memory Ports end (R62, R96, R137, R268, R293, R294, R445). -/

namespace Sys2Proof.Machine

/-- A transaction leaves the outstanding ones. -/
def Hw.dmGone (h : Hw) (t : DmTxn) : Hw := { h with dmp.open_ := h.dmp.open_.filter fun x => !(x == t) }

/-- The walk of the BTT that a transaction reads for. -/
def Hw.walkOf (h : Hw) (t : DmTxn) : Option BttRead := h.dmp.walks.find? fun r => r.id == t.id

/-- A transaction ends with an error flag, late, or faulted in translation: the command that issued it completes ABORTED (R62, R294).
The block's own walks and partition reads take it as the end of that read (R96, R137). -/
def Hw.dmFail (h : Hw) (t : DmTxn) : Hw :=
  match t.use with
  | .walk s g => h.regionWalkRead s g .error 0
  | .partition g => h.gktPartitionRead g .error
  | u =>
    let h := h.dmGone t
    let h := if t.fault then h else h.raise 200 (detailWord none none t.port 0) 0 0 0
    match u with
    | .op n i => h.opDmFail n i
    | .fresh n i => h.opDmFail n i
    | .status n => h.bufStep n
    | .btt => (match h.walkOf t with | some r => h.walkFail r | none => h)
    | .slot id => { h with sched.items := h.sched.items.map (SlotItem.fail id) }
    | .snapshot => if t.fault then h.exportFault else h.exportNext
    | .freshZero => h.eraseConfirmed
    | _ => h

/-- A transaction ends well; `data` is the entry that a read of the BTT returns (R62, R293). -/
def Hw.dmOk (h : Hw) (t : DmTxn) (data : BitVec 64) : Hw :=
  match t.use with
  | .walk .. => h
  | .partition .. => h
  | .btt => (match h.walkOf t with | some r => (h.dmGone t).walkReturn r t.stale data | none => h.dmGone t)
  | .op n i => if t.write then (h.dmGone t).opWrote n i else h.dmGone t
  | .fresh n i => (h.dmGone t).opWrote n i
  | .status n => (h.dmGone t).bufStep n
  | .snapshot => (h.dmGone t).exportNext
  | .freshZero => (h.dmGone t).eraseConfirmed
  | _ => h.dmGone t

/-- A Device Memory Port transaction completes (R62). -/
def Hw.dmDone (h : Hw) (id : Nat) (write : Bool) (data : BitVec 64) (err : Bool) : Hw :=
  match h.dmp.open_.find? fun t => t.id == id && t.write == write with
  | none => h
  | some t => if err || t.fault then h.dmFail t else h.dmOk t data

/-- DMP_READ_DONE: a read has returned its beats, the last with or without an error flag (R62). DESIGN CHOICE (log entry 24). -/
def Hw.dmpReadDone (h : Hw) (id : Nat) (data : BitVec 64) (err : Bool) : Hw := h.dmDone id false data err

/-- DMP_WRITE_DONE: a write completion arrives (R62). -/
def Hw.dmpWriteDone (h : Hw) (id : Nat) (err : Bool) : Hw := h.dmDone id true 0 err

/-- DMP_TIMEOUT: a transaction is incomplete after 10 us (R62). -/
def Hw.dmpTimeout (h : Hw) (id : Nat) : Hw :=
  match h.dmp.open_.find? fun t => t.id == id with
  | none => h
  | some t => h.dmFail t

end Sys2Proof.Machine
end

