-- ==== Sys2Proof/Machine/ExecQueues.lean ====
section
/-! DEFINITION. The meaning of each command of the family: queues and Device Memory Ports (R62, R261 to R294). -/

namespace Sys2Proof.Machine

/-- A doorbell (Qn_TAIL write, SW_DOORBELL or LOCAL store) carries a new tail, which the queue judges. R265. -/
def execQueueDoorbell (queue : Fin 64) (path : BellPath) (tail : Word) (s : State) : Host.Outcome State Fault Refusal :=
  s.onHw fun h => if path = .host then h.access fun h => h.doorbell queue path tail.toNat else h.doorbell queue path tail.toNat

/-- The fetcher re-reads tail and PENDING after IDLE_ARMED, and goes IDLE or continues fetching. R266. -/
def execFetcherIdleCheck (queue : Fin 64) (s : State) : Host.Outcome State Fault Refusal :=
  s.onHw fun h => h.fetcherIdleCheck queue

/-- A ring entry and its lists are read and checked, and the buffer starts or the queue becomes guilty. R269. -/
def execRingEntryFetch (queue : Fin 64) (entry : Line) (bind : List Nat) (wins : List Nat) (ops : List (BitVec 256)) (walk : BttWalk) (s : State) : Host.Outcome State Fault Refusal :=
  s.onHw fun h => h.ringEntryFetch queue entry bind wins ops walk

/-- The CFE reads the next entry in advance, then places and pins the next context's windows. R288. -/
def execPreload (queue : Fin 64) (entry : Line) (bind : List Nat) (wins : List Nat) (ops : List (BitVec 256)) (walk : BttWalk) (s : State) : Host.Outcome State Fault Refusal :=
  s.onHw fun h => h.preload queue entry bind wins ops walk

/-- The last operation of a buffer completes, and the status entries, completion record, head, event and interrupt
follow. R268. -/
def execBufferComplete (queue : Fin 64) (drain : Nat) (s : State) : Host.Outcome State Fault Refusal :=
  s.onHw fun h => h.bufferComplete queue drain

/-- A queue reset ends, and the queue goes to QUARANTINED, STOPPED or IDLE. R286. -/
def execQueueResetEnd (queue : Fin 64) (s : State) : Host.Outcome State Fault Refusal :=
  s.onHw fun h => h.queueResetEnd queue

/-- A buffer runs longer than Qn_LIMIT, its oldest operation completes TIMEOUT, and the queue becomes guilty. R284. -/
def execBufLimit (queue : Fin 64) (s : State) : Host.Outcome State Fault Refusal :=
  s.onHw fun h => h.bufLimit queue

/-- A write to QRING.QRESET resets a queue as guilty with cause DRIVER. R285. -/
def execQreset (value : Word) (s : State) : Host.Outcome State Fault Refusal :=
  s.onHw fun h => h.access fun h => h.qreset value

/-- A write to Qn_CTL.enable moves a queue between OFF and IDLE. R262. -/
def execQueueEnable (queue : Fin 64) (value : Word) (s : State) : Host.Outcome State Fault Refusal :=
  s.onHw fun h => h.access fun h => h.queueEnableWrite queue value

/-- A write to Qn_CTL.resume takes a queue out of STOPPED. R262. -/
def execQueueResume (queue : Fin 64) (value : Word) (s : State) : Host.Outcome State Fault Refusal :=
  s.onHw fun h => h.access fun h => h.queueResumeWrite queue value

/-- A write to CFE.BTT_INV invalidates BTT cache entries, and busy is set. R293. -/
def execBttInv (value : Word) (s : State) : Host.Outcome State Fault Refusal :=
  s.onHw fun h => h.access fun h => h.bttInvalidate value

/-- No access through an invalidated entry remains, and BTT_INV_STAT.busy clears. R293. -/
def execBttInvDone (s : State) : Host.Outcome State Fault Refusal :=
  s.onHw fun h => h.bttInvDone

/-- A Device Memory Port read returns its beats. R62. -/
def execDmpReadDone (id : BitVec 8) (data : BitVec 64) (err : Bool) (s : State) : Host.Outcome State Fault Refusal :=
  s.onHw fun h => h.dmpReadDone id.toNat data err

/-- A Device Memory Port write completion arrives. R62. -/
def execDmpWriteDone (id : BitVec 8) (err : Bool) (s : State) : Host.Outcome State Fault Refusal :=
  s.onHw fun h => h.dmpWriteDone id.toNat err

/-- A Device Memory Port transaction is incomplete after 10 µs, DMP_ERROR is raised, and its command completes ABORTED.
R62. -/
def execDmpTimeout (id : BitVec 8) (s : State) : Host.Outcome State Fault Refusal :=
  s.onHw fun h => h.dmpTimeout id.toNat

end Sys2Proof.Machine
end

