-- ==== Sys2Proof/Machine/ExecRegion.lean ====
section
/-! DEFINITION. The meaning of each command of the family: key and region operations (R375, R376, R473 to R476). -/

namespace Sys2Proof.Machine

/-- KEY_OP RETIRE_EPOCH raises a family's retirement floor and erases the key sets below it. R159. -/
def execRetireEpoch (queue : Fin 64) (op : Nat) (s : State) : Host.Outcome State Fault Refusal :=
  s.onHw fun h => h.retireEpoch queue op

/-- KEY_OP CERTIFY writes a signed key certificate for a slot. R376. -/
def execCertify (queue : Fin 64) (op : Nat) (walk : BttWalk) (s : State) : Host.Outcome State Fault Refusal :=
  s.onHw fun h => h.certify queue op walk

/-- REGION_OP CREATE writes a new region in CREATING, then its directory and map entries, then sets ACTIVE. R476. -/
def execCreate (queue : Fin 64) (op : Nat) (walk : BttWalk) (errs : List Nat) (s : State) : Host.Outcome State Fault Refusal :=
  s.onHw fun h => h.regionCreate queue op walk errs

/-- REGION_OP DESTROY drains a region, retires its SEAL keys and clears its entries. R473. -/
def execDestroy (queue : Fin 64) (op : Nat) (walk : BttWalk) (errs : List Nat) (s : State) : Host.Outcome State Fault Refusal :=
  s.onHw fun h => h.regionDestroy queue op walk errs

/-- REGION_OP SHARE adds or replaces one slice's share. R476. -/
def execShare (queue : Fin 64) (op : Nat) (walk : BttWalk) (errs : List Nat) (s : State) : Host.Outcome State Fault Refusal :=
  s.onHw fun h => h.regionShare queue op walk errs

/-- REGION_OP UNSHARE removes a slice's share and drains its requests. R101. -/
def execUnshare (queue : Fin 64) (op : Nat) (walk : BttWalk) (errs : List Nat) (s : State) : Host.Outcome State Fault Refusal :=
  s.onHw fun h => h.regionUnshare queue op walk errs

/-- REGION_OP SET_FILL replaces a region's fill pattern. R476. -/
def execSetFill (queue : Fin 64) (op : Nat) (walk : BttWalk) (errs : List Nat) (s : State) : Host.Outcome State Fault Refusal :=
  s.onHw fun h => h.regionSetFill queue op walk errs

end Sys2Proof.Machine
end

