-- ==== Sys2Proof/Machine/ExecSched.lean ====
section
/-! DEFINITION. The meaning of each command of the family: Scheduled Port (R295 to R314). -/

namespace Sys2Proof.Machine

/-- The slot operation BLIND.PUT reads, masks, tags and passes block b. R302. -/
def execBlindPut (word : BitVec 64) (src : SrcBlock) (walk : BttWalk) (s : State) : Host.Outcome State Fault Refusal :=
  s.onHw fun h => h.blindPut word src walk

/-- The slot operation BLIND.TAKE writes the released result of block b. R302. -/
def execBlindTake (word : BitVec 64) (walk : BttWalk) (s : State) : Host.Outcome State Fault Refusal :=
  s.onHw fun h => h.blindTake word walk

/-- The slot operation DISPATCH.STEP writes one destination's section of a stepped DISPATCH. R300. -/
def execDispatchStep (word : BitVec 64) (data : List Line) (walk : BttWalk) (s : State) : Host.Outcome State Fault Refusal :=
  s.onHw fun h => h.dispatchStep word data walk

/-- The slot operation COMBINE.STEP writes one origin's section of a stepped COMBINE. R300. -/
def execCombineStep (word : BitVec 64) (data : List Line) (walk : BttWalk) (s : State) : Host.Outcome State Fault Refusal :=
  s.onHw fun h => h.combineStep word data walk

/-- The slot operation FENCE.SIG adds delta to a fence and wakes its waiters. R302. -/
def execFenceSig (word : BitVec 64) (s : State) : Host.Outcome State Fault Refusal :=
  s.onHw fun h => h.fenceSigOp word

/-- The slot operation FENCE.POLL returns a fence's state and value. R303. -/
def execFencePoll (word : BitVec 64) (s : State) : Host.Outcome State Fault Refusal :=
  s.onHw fun h => h.fencePollOp word

/-- A QUIET slot word opens a quiet window under DETERMINISTIC. R311. -/
def execQuiet (word : BitVec 64) (s : State) : Host.Outcome State Fault Refusal :=
  s.onHw fun h => h.quietWord word

/-- A quiet window's cycles run out, and its tail begins. R311. -/
def execQuietWindowEnd (s : State) : Host.Outcome State Fault Refusal :=
  s.onHw fun h => h.quietWindowEnd

/-- A slot operation completes on SCH_CPL in presentation order. R305. -/
def execSlotCompletion (miss : Option SlotMiss) (s : State) : Host.Outcome State Fault Refusal :=
  s.onHw fun h => h.slotCompletion miss

/-- DETERMINISTIC runs SCHED.STARVE ms with less than 1 µs of quiet windows. R313. -/
def execSchedQuietStarved (s : State) : Host.Outcome State Fault Refusal :=
  s.onHw fun h => h.schedQuietStarved

/-- A waiting command takes a freed slot context entry. R298. -/
def execSlotContextTaken (s : State) : Host.Outcome State Fault Refusal :=
  s.onHw fun h => h.slotContextTaken

end Sys2Proof.Machine
end

