-- ==== Sys2Proof/Machine/ExecScu.lean ====
section
/-! DEFINITION. The meaning of each command of the family: SCU, SPDM and management operations (R385 to R408). -/

namespace Sys2Proof.Machine

/-- The ROM tries the banks, runs the first valid image and derives the identity keys, or stays ROM-only. R385. -/
def execScuBoot (bank0 : FwImage) (bank1 : FwImage) (store : List Byte) (s : State) : Host.Outcome State Fault Refusal :=
  s.onHw fun h => h.scuBoot bank0 bank1 store

/-- The SCU takes an illegal instruction, bus error or stack overflow. R409. -/
def execScuException (s : State) : Host.Outcome State Fault Refusal :=
  s.onHw fun h => h.scuException

/-- A management frame is received, filtered and reassembled into a message. R405. -/
def execMgmtFrame (frame : MgmtFrame) (s : State) : Host.Outcome State Fault Refusal :=
  s.onHw fun h => h.mgmtFrame frame

/-- A write to ATTEST.MBX_DOORBELL starts handling of a host-path SPDM request. R399. -/
def execMbxDoorbell (value : Word) (s : State) : Host.Outcome State Fault Refusal :=
  s.onHw fun h => h.access fun h => h.mbxDoorbell value

/-- The SPDM request GET_VERSION is answered. R397. -/
def execGetVersion (path : Path) (s : State) : Host.Outcome State Fault Refusal :=
  s.onHw fun h => h.takeSpdm path .getVersion

/-- The SPDM request GET_CAPABILITIES is answered. R397. -/
def execGetCapabilities (path : Path) (s : State) : Host.Outcome State Fault Refusal :=
  s.onHw fun h => h.takeSpdm path .getCapabilities

/-- The SPDM request NEGOTIATE_ALGORITHMS is answered. R397. -/
def execNegotiateAlgorithms (path : Path) (s : State) : Host.Outcome State Fault Refusal :=
  s.onHw fun h => h.takeSpdm path .negotiateAlgorithms

/-- The SPDM request GET_DIGESTS is answered. R398. -/
def execGetDigests (path : Path) (s : State) : Host.Outcome State Fault Refusal :=
  s.onHw fun h => h.takeSpdm path .getDigests

/-- The SPDM request GET_CERTIFICATE returns a slot's chain. R398. -/
def execGetCertificate (path : Path) (slot : Nat) (s : State) : Host.Outcome State Fault Refusal :=
  s.onHw fun h => h.takeSpdm path (.getCertificate slot)

/-- The SPDM request CHALLENGE is answered. R397. -/
def execChallenge (path : Path) (slot : Nat) (nonce : List Byte) (s : State) : Host.Outcome State Fault Refusal :=
  s.onHw fun h => h.takeSpdm path (.challenge slot nonce)

/-- The SPDM request GET_MEASUREMENTS returns measurements or a signed report. R400. -/
def execGetMeasurements (path : Path) (index : Nat) (nonce : List Byte) (s : State) : Host.Outcome State Fault Refusal :=
  s.onHw fun h => h.takeSpdm path (.getMeasurements index nonce)

/-- The SPDM request KEY_EXCHANGE opens a secured session, and may end the one idle longest. R397. -/
def execKeyExchange (path : Path) (slot : Nat) (share : List Byte) (s : State) : Host.Outcome State Fault Refusal :=
  s.onHw fun h => h.takeSpdm path (.keyExchange slot share)

/-- The SPDM request FINISH completes a secured session. R397. -/
def execFinish (path : Path) (session : Nat) (proof : List Byte) (s : State) : Host.Outcome State Fault Refusal :=
  s.onHw fun h => h.takeSpdm path (.finish session proof)

/-- An unsupported SPDM request is answered ERROR UnsupportedRequest. R397. -/
def execSpdmUnsupported (path : Path) (app : Option (Nat × Nat × Option Nat)) (s : State) : Host.Outcome State Fault Refusal :=
  s.onHw fun h => h.takeOther path app

/-- JOIN_REQ makes the block verify the policy and sponsor and answer JOIN_RESP. R393. -/
def execJoinReq (path : Path) (session : Nat) (digest : BitVec 384) (ecdh : List Byte) (kem : List Byte) (signature : List Byte) (image : List Byte) (s : State) : Host.Outcome State Fault Refusal :=
  s.onHw fun h => h.takeApp path session (.joinReq digest ecdh kem signature image)

/-- JOIN_KEY makes the block install DMS, take the home map, lock pages and answer JOIN_DONE. R393. -/
def execJoinKey (path : Path) (session : Nat) (text : List Byte) (tag : BitVec 128) (s : State) : Host.Outcome State Fault Refusal :=
  s.onHw fun h => h.takeApp path session (.joinKey text tag)

/-- LEAVE from the sponsor makes the block leave its domain and answer LEAVE_DONE. R395. -/
def execLeave (path : Path) (session : Nat) (signature : List Byte) (s : State) : Host.Outcome State Fault Refusal :=
  s.onHw fun h => h.takeApp path session (.leave signature)

/-- MGMT_AUTH authenticates an operator on a management session. R406. -/
def execMgmtAuth (path : Path) (session : Nat) (chain : List Byte) (signature : List Byte) (s : State) : Host.Outcome State Fault Refusal :=
  s.onHw fun h => h.takeApp path session (.mgmtAuth chain signature)

/-- The management operation STATE returns the life-cycle, firmware and member state. R407. -/
def execState (path : Path) (session : Nat) (s : State) : Host.Outcome State Fault Refusal :=
  s.onHw fun h => h.takeOp path session .state

/-- The management operation FW_STAGE writes a firmware chunk into the inactive bank. R388. -/
def execFwStage (path : Path) (session : Nat) (offset : Nat) (data : List Byte) (s : State) : Host.Outcome State Fault Refusal :=
  s.onHw fun h => h.takeOp path session (.fwStage offset data)

/-- The management operation FW_ACTIVATE checks the staged image and switches to it. R388. -/
def execFwActivate (path : Path) (session : Nat) (image : FwImage) (s : State) : Host.Outcome State Fault Refusal :=
  s.onHw fun h => h.takeOp path session (.fwActivate image)

/-- The staged image starts, and the block enters PROBATION, or returns to the old image. R388. -/
def execFwSwitchDone (image : FwImage) (s : State) : Host.Outcome State Fault Refusal :=
  s.onHw fun h => h.switchDone image

/-- The management operation FW_COMMIT makes the running bank active and may raise the minimum svn. R390. -/
def execFwCommit (path : Path) (session : Nat) (raiseMin : Bool) (s : State) : Host.Outcome State Fault Refusal :=
  s.onHw fun h => h.takeOp path session (.fwCommit raiseMin [] [])

/-- The management operation FW_ROLLBACK restarts the old image. R390. -/
def execFwRollback (path : Path) (session : Nat) (s : State) : Host.Outcome State Fault Refusal :=
  s.onHw fun h => h.takeOp path session .fwRollback

/-- SCU.PROBATION expires, and the old image restarts. R390. -/
def execProbationExpiry (s : State) : Host.Outcome State Fault Refusal :=
  s.onHw fun h => h.probationEnd

/-- A held attestation request waits 50 ms and is answered with an IN_TRANSITION report. R389. -/
def execProbationHoldTimeout (s : State) : Host.Outcome State Fault Refusal :=
  s.onHw fun h => h.holdTimeout

/-- The management operation LCS_TRANSITION checks authority, programs seeds and codewords, and requests a chip reset.
R379. -/
def execLcsTransition (path : Path) (session : Nat) (target : Nat) (token : Option Token) (s : State) : Host.Outcome State Fault Refusal :=
  s.onHw fun h => h.takeOp path session (.lcsTransition target token)

/-- The management operation WELL_READ copies Well records with a header. R440. -/
def execWellRead (path : Path) (session : Nat) (first : Nat) (count : Nat) (s : State) : Host.Outcome State Fault Refusal :=
  s.onHw fun h => h.takeOp path session (.wellRead first count)

/-- The management operation REG_READ reads any register. R451. -/
def execRegRead (path : Path) (session : Nat) (addr : BitVec 20) (s : State) : Host.Outcome State Fault Refusal :=
  s.onHw fun h => h.takeOp path session (.regRead addr.toNat)

/-- The management operation REG_WRITE writes any register. R451. -/
def execRegWrite (path : Path) (session : Nat) (addr : BitVec 20) (value : Word) (s : State) : Host.Outcome State Fault Refusal :=
  s.onHw fun h => h.takeOp path session (.regWrite addr.toNat value)

/-- The management operation CERT_STORE writes the certificate store. R407. -/
def execCertStore (path : Path) (session : Nat) (offset : Nat) (data : List Byte) (store : List Byte) (s : State) : Host.Outcome State Fault Refusal :=
  s.onHw fun h => h.takeOp path session (.certStore offset data store)

/-- The management operation DOMAIN_LEAVE makes the block leave its domain. R395. -/
def execDomainLeave (path : Path) (session : Nat) (s : State) : Host.Outcome State Fault Refusal :=
  s.onHw fun h => h.takeOp path session .domainLeave

/-- A ROM-only block serves a type 4 recovery frame. R386. -/
def execRomRecovery (op : MgmtOp) (store : List Byte) (s : State) : Host.Outcome State Fault Refusal :=
  s.onHw fun h => h.scuTake (.rom op store)

end Sys2Proof.Machine
end

