-- ==== Sys2Proof/Machine/ExecWell.lean ====
section
/-! DEFINITION. The meaning of each command of the family: reset pins, Well, counters, interrupts and persistent words (R432 to R472). -/

namespace Sys2Proof.Machine

/-- RST_WARM_N is asserted, and the block warm-resets at once and primes. R429. -/
def execRstWarm (s : State) : Host.Outcome State Fault Refusal :=
  s.onHw fun h => h.rstWarm

/-- A priming phase ends, and the next begins, or BLK_READY is driven. R467. -/
def execPrimingPhaseEnd (svn : Nat) (used : BitVec 16) (kats : List (Fin 16 × List (BitVec 30 × BitVec 3))) (reads : List (Fin 512 × Bool × Bool)) (s : State) : Host.Outcome State Fault Refusal :=
  s.onMachine fun h v => (h.primingPhaseEnd v svn used kats reads, v)

/-- The first write to SCU.FW_BASE_LO after cold priming starts the SCU boot. R469. -/
def execFwBaseWrite (value : Word) (s : State) : Host.Outcome State Fault Refusal :=
  s.onHw fun h => h.access fun h => h.fwBaseWrite value

/-- The Well writes one record per CK_AON cycle from its staging queue. R437. -/
def execWellRecordWrite (s : State) : Host.Outcome State Fault Refusal :=
  s.onHw fun h => h.wellRecordWrite

/-- A write to WELL.TRIG_NOW fires the trigger manually. R438. -/
def execTrigNow (value : Word) (s : State) : Host.Outcome State Fault Refusal :=
  s.onHw fun h => h.access fun h => h.trigNow value

/-- A write to WELL.REARM unfreezes and arms the Well. R439. -/
def execRearm (value : Word) (s : State) : Host.Outcome State Fault Refusal :=
  s.onHw fun h => h.mgmtWrite fun h => h.wellRearm value

/-- A write to WELL.MARK_GO writes a MARK record. R434. -/
def execMarkGo (value : Word) (s : State) : Host.Outcome State Fault Refusal :=
  s.onHw fun h => h.access fun h => h.markGo value

/-- A write to CNT.CTL.snap copies all counters into the shadow set. R443. -/
def execCntSnap (value : Word) (s : State) : Host.Outcome State Fault Refusal :=
  s.onHw fun h => h.access fun h => if bit value 0 then h.cntSnap else h

/-- A write to CNT.CTL.clear zeroes every counter. R443. -/
def execCntClear (value : Word) (s : State) : Host.Outcome State Fault Refusal :=
  s.onHw fun h => h.access fun h => if bit value 2 then h.cntClear else h

/-- The export period comes due, and a counter snapshot is written to the next export slot. R445. -/
def execCounterExport (s : State) : Host.Outcome State Fault Refusal :=
  s.onHw fun h => h.counterExport

/-- A vector's count or timer reaches its setting, and the vector becomes ready. R448. -/
def execVectorFire (vector : Fin 64) (s : State) : Host.Outcome State Fault Refusal :=
  s.onHw fun h => h.vectorFire vector

/-- The core takes the presented vector or trap. R78. -/
def execIrqAck (s : State) : Host.Outcome State Fault Refusal :=
  s.onHw fun h => h.irqAck

/-- A write to ICU.PENDn replaces the pending bits. R450. -/
def execIcuPendWrite (index : Fin 16) (value : Word) (s : State) : Host.Outcome State Fault Refusal :=
  s.onHw fun h => h.access fun h => h.icuPendWrite index value

/-- A write to ICU.MASKn changes the masks, and an unmasked pending source counts as an assertion. R447. -/
def execIcuMaskWrite (index : Fin 16) (value : Word) (s : State) : Host.Outcome State Fault Refusal :=
  s.onHw fun h => h.access fun h => h.icuMaskWrite index value

/-- A write to PERSIST.MVAL or an RWP field is accepted and queued as an NVM write, or refused. R462. -/
def execMval (addr : BitVec 19) (value : Word) (s : State) : Host.Outcome State Fault Refusal :=
  s.onHw fun h => h.mgmtWrite fun h => h.mvalWrite addr.toNat value none

/-- The next queued persistent write is issued to the NVM macro. R462. -/
def execPsWriteIssue (s : State) : Host.Outcome State Fault Refusal :=
  s.onHw fun h => h.perIssue

/-- An NVM operation ends, and PERSIST_SLOW, PERSIST_FAIL or PERSIST_WORN may be raised. R465. -/
def execPsDone (err : Bool) (late : Bool) (s : State) : Host.Outcome State Fault Refusal :=
  s.onMachine fun h v => h.psEnd v err late

end Sys2Proof.Machine
end

