-- ==== Sys2Proof/Machine/Dispatch.lean ====
section
/-! DEFINITION. Every command and its meaning. -/

namespace Sys2Proof.Machine

/-- The effect of a command on everything but the queue. -/
def exec (i : Instr) (s : State) : Host.Outcome State Fault Refusal :=
  match i with
  | .utpRequest port req => Sys2Proof.Machine.execUtpRequest port req s
  | .writeDataBeat port beat => Sys2Proof.Machine.execWriteDataBeat port beat s
  | .utpStall port => Sys2Proof.Machine.execUtpStall port s
  | .readDataBeat port tag => Sys2Proof.Machine.execReadDataBeat port tag s
  | .responseBeat port tag => Sys2Proof.Machine.execResponseBeat port tag s
  | .tagRelease port tag => Sys2Proof.Machine.execTagRelease port tag s
  | .windowResolutionDone slice granule => Sys2Proof.Machine.execWindowResolutionDone slice granule s
  | .regionWalkRead slice granule read ns => Sys2Proof.Machine.execRegionWalkRead slice granule read ns s
  | .wcacheInvAll value => Sys2Proof.Machine.execWcacheInvAll value s
  | .wcacheInvBySlice value => Sys2Proof.Machine.execWcacheInvBySlice value s
  | .sealStoreEgress txn => Sys2Proof.Machine.execSealStoreEgress txn s
  | .sealLoadResponse port msg => Sys2Proof.Machine.execSealLoadResponse port msg s
  | .sealMacCheckDone txn => Sys2Proof.Machine.execSealMacCheckDone txn s
  | .quarRel value => Sys2Proof.Machine.execQuarRel value s
  | .gktCacheMiss txn => Sys2Proof.Machine.execGktCacheMiss txn s
  | .gktPartitionRead granule read => Sys2Proof.Machine.execGktPartitionRead granule read s
  | .gktGet msg first second walk => Sys2Proof.Machine.execGktGet msg first second walk s
  | .gktEntry port msg => Sys2Proof.Machine.execGktEntry port msg s
  | .gktOpen msg => Sys2Proof.Machine.execGktOpen msg s
  | .gktAckSend home seq reads walk => Sys2Proof.Machine.execGktAckSend home seq reads walk s
  | .gktAck msg reads walk => Sys2Proof.Machine.execGktAck msg reads walk s
  | .gktClose msg => Sys2Proof.Machine.execGktClose msg s
  | .gktCloseSend => Sys2Proof.Machine.execGktCloseSend s
  | .openRoundAckTimeout seq reads walk => Sys2Proof.Machine.execOpenRoundAckTimeout seq reads walk s
  | .pumpSweepRead reads walk => Sys2Proof.Machine.execPumpSweepRead reads walk s
  | .pumpReadAnswer port msg => Sys2Proof.Machine.execPumpReadAnswer port msg s
  | .condWriteAnswer port msg => Sys2Proof.Machine.execCondWriteAnswer port msg s
  | .granuleClose => Sys2Proof.Machine.execGranuleClose s
  | .pumpStuck => Sys2Proof.Machine.execPumpStuck s
  | .pumpRateWindow => Sys2Proof.Machine.execPumpRateWindow s
  | .pumpPause write => Sys2Proof.Machine.execPumpPause write s
  | .regulatorPass => Sys2Proof.Machine.execRegulatorPass s
  | .budgetRefill => Sys2Proof.Machine.execBudgetRefill s
  | .workAged seq promote => Sys2Proof.Machine.execWorkAged seq promote s
  | .egressVisit port gate room => Sys2Proof.Machine.execEgressVisit port gate room s
  | .tgateStuck port vc => Sys2Proof.Machine.execTgateStuck port vc s
  | .txCredit port vc => Sys2Proof.Machine.execTxCredit port vc s
  | .ingressFlit port wire => Sys2Proof.Machine.execIngressFlit port wire s
  | .ingressCreditReturn port vc => Sys2Proof.Machine.execIngressCreditReturn port vc s
  | .linkUpRise port => Sys2Proof.Machine.execLinkUpRise port s
  | .linkUpFall port => Sys2Proof.Machine.execLinkUpFall port s
  | .pathGenChange port gen => Sys2Proof.Machine.execPathGenChange port gen s
  | .tPathExpiry txn => Sys2Proof.Machine.execTPathExpiry txn s
  | .tDeadExpiry txn => Sys2Proof.Machine.execTDeadExpiry txn s
  | .fabricResponse port msg => Sys2Proof.Machine.execFabricResponse port msg s
  | .sessInit port => Sys2Proof.Machine.execSessInit port s
  | .sessResp port ecdh text chain signature => Sys2Proof.Machine.execSessResp port ecdh text chain signature s
  | .sessDone port mac => Sys2Proof.Machine.execSessDone port mac s
  | .sessHandshakeTimeout port => Sys2Proof.Machine.execSessHandshakeTimeout port s
  | .keyUpdateStart port => Sys2Proof.Machine.execKeyUpdateStart port s
  | .keyUpdate port msg => Sys2Proof.Machine.execKeyUpdate port msg s
  | .sessEnd port => Sys2Proof.Machine.execSessEnd port s
  | .sessCtlRestart port value => Sys2Proof.Machine.execSessCtlRestart port value s
  | .fenceRemote msg => Sys2Proof.Machine.execFenceRemote msg s
  | .bulkPut port msg => Sys2Proof.Machine.execBulkPut port msg s
  | .bulkGet msg => Sys2Proof.Machine.execBulkGet msg s
  | .ideRefreshTimer => Sys2Proof.Machine.execIdeRefreshTimer s
  | .ideRefreshReq path session stream => Sys2Proof.Machine.execIdeRefreshReq path session stream s
  | .keyDeliveryAccept err => Sys2Proof.Machine.execKeyDeliveryAccept err s
  | .keyDeliveryFail => Sys2Proof.Machine.execKeyDeliveryFail s
  | .cfeIssue queue => Sys2Proof.Machine.execCfeIssue queue s
  | .nop queue op => Sys2Proof.Machine.execNop queue op s
  | .sealCopy queue op => Sys2Proof.Machine.execSealCopy queue op s
  | .bulkMove queue op => Sys2Proof.Machine.execBulkMove queue op s
  | .blindReduce queue op desc next walk => Sys2Proof.Machine.execBlindReduce queue op desc next walk s
  | .collectiveOpened queue op first second walk => Sys2Proof.Machine.execCollectiveOpened queue op first second walk s
  | .blExpmaxAnswer port msg => Sys2Proof.Machine.execBlExpmaxAnswer port msg s
  | .blContribSend queue op src walk => Sys2Proof.Machine.execBlContribSend queue op src walk s
  | .blindAnswer port msg walk => Sys2Proof.Machine.execBlindAnswer port msg walk s
  | .tGroupExpiry queue op => Sys2Proof.Machine.execTGroupExpiry queue op s
  | .collectiveClose queue op => Sys2Proof.Machine.execCollectiveClose queue op s
  | .dispatch queue op desc route members walk => Sys2Proof.Machine.execDispatch queue op desc route members walk s
  | .combine queue op desc members walk => Sys2Proof.Machine.execCombine queue op desc members walk s
  | .rekeyStart queue op reads walk => Sys2Proof.Machine.execRekeyStart queue op reads walk s
  | .rekeyAbort queue op => Sys2Proof.Machine.execRekeyAbort queue op s
  | .fenceSignal queue op => Sys2Proof.Machine.execFenceSignal queue op s
  | .fenceWait queue op => Sys2Proof.Machine.execFenceWait queue op s
  | .fenceWaitTimeout queue op => Sys2Proof.Machine.execFenceWaitTimeout queue op s
  | .eventSet queue op => Sys2Proof.Machine.execEventSet queue op s
  | .barrier queue op => Sys2Proof.Machine.execBarrier queue op s
  | .measure queue op data walk => Sys2Proof.Machine.execMeasure queue op data walk s
  | .familyOpen queue op => Sys2Proof.Machine.execFamilyOpen queue op s
  | .keyErase queue op => Sys2Proof.Machine.execKeyErase queue op s
  | .retireEpoch queue op => Sys2Proof.Machine.execRetireEpoch queue op s
  | .certify queue op walk => Sys2Proof.Machine.execCertify queue op walk s
  | .create queue op walk errs => Sys2Proof.Machine.execCreate queue op walk errs s
  | .destroy queue op walk errs => Sys2Proof.Machine.execDestroy queue op walk errs s
  | .share queue op walk errs => Sys2Proof.Machine.execShare queue op walk errs s
  | .unshare queue op walk errs => Sys2Proof.Machine.execUnshare queue op walk errs s
  | .setFill queue op walk errs => Sys2Proof.Machine.execSetFill queue op walk errs s
  | .queueDoorbell queue path tail => Sys2Proof.Machine.execQueueDoorbell queue path tail s
  | .fetcherIdleCheck queue => Sys2Proof.Machine.execFetcherIdleCheck queue s
  | .ringEntryFetch queue entry bind wins ops walk => Sys2Proof.Machine.execRingEntryFetch queue entry bind wins ops walk s
  | .preload queue entry bind wins ops walk => Sys2Proof.Machine.execPreload queue entry bind wins ops walk s
  | .bufferComplete queue drain => Sys2Proof.Machine.execBufferComplete queue drain s
  | .queueResetEnd queue => Sys2Proof.Machine.execQueueResetEnd queue s
  | .bufLimit queue => Sys2Proof.Machine.execBufLimit queue s
  | .qreset value => Sys2Proof.Machine.execQreset value s
  | .queueEnable queue value => Sys2Proof.Machine.execQueueEnable queue value s
  | .queueResume queue value => Sys2Proof.Machine.execQueueResume queue value s
  | .bttInv value => Sys2Proof.Machine.execBttInv value s
  | .bttInvDone => Sys2Proof.Machine.execBttInvDone s
  | .dmpReadDone id data err => Sys2Proof.Machine.execDmpReadDone id data err s
  | .dmpWriteDone id err => Sys2Proof.Machine.execDmpWriteDone id err s
  | .dmpTimeout id => Sys2Proof.Machine.execDmpTimeout id s
  | .blindPut word src walk => Sys2Proof.Machine.execBlindPut word src walk s
  | .blindTake word walk => Sys2Proof.Machine.execBlindTake word walk s
  | .dispatchStep word data walk => Sys2Proof.Machine.execDispatchStep word data walk s
  | .combineStep word data walk => Sys2Proof.Machine.execCombineStep word data walk s
  | .fenceSig word => Sys2Proof.Machine.execFenceSig word s
  | .fencePoll word => Sys2Proof.Machine.execFencePoll word s
  | .quiet word => Sys2Proof.Machine.execQuiet word s
  | .quietWindowEnd => Sys2Proof.Machine.execQuietWindowEnd s
  | .slotCompletion miss => Sys2Proof.Machine.execSlotCompletion miss s
  | .schedQuietStarved => Sys2Proof.Machine.execSchedQuietStarved s
  | .slotContextTaken => Sys2Proof.Machine.execSlotContextTaken s
  | .bind => Sys2Proof.Machine.execBind s
  | .remove => Sys2Proof.Machine.execRemove s
  | .teardown => Sys2Proof.Machine.execTeardown s
  | .sliceDrainEnd slice => Sys2Proof.Machine.execSliceDrainEnd slice s
  | .sliceBarrierClear slice => Sys2Proof.Machine.execSliceBarrierClear slice s
  | .sliceBarrierSlow slice => Sys2Proof.Machine.execSliceBarrierSlow slice s
  | .sliceSlotsErased slice => Sys2Proof.Machine.execSliceSlotsErased slice s
  | .fenceAlloc value => Sys2Proof.Machine.execFenceAlloc value s
  | .fenceFree => Sys2Proof.Machine.execFenceFree s
  | .fenceReset => Sys2Proof.Machine.execFenceReset s
  | .swFsig pasid value => Sys2Proof.Machine.execSwFsig pasid value s
  | .swFclr pasid value => Sys2Proof.Machine.execSwFclr pasid value s
  | .eventAlloc => Sys2Proof.Machine.execEventAlloc s
  | .eventFree => Sys2Proof.Machine.execEventFree s
  | .swEset pasid value => Sys2Proof.Machine.execSwEset pasid value s
  | .eventClear pasid group value => Sys2Proof.Machine.execEventClear pasid group value s
  | .profileWrite value => Sys2Proof.Machine.execProfileWrite value s
  | .profileEffect => Sys2Proof.Machine.execProfileEffect s
  | .rungReq value => Sys2Proof.Machine.execRungReq value s
  | .autoU1Entry => Sys2Proof.Machine.execAutoU1Entry s
  | .autoU2Entry => Sys2Proof.Machine.execAutoU2Entry s
  | .rungEntryDone => Sys2Proof.Machine.execRungEntryDone s
  | .rungEntryTimeout => Sys2Proof.Machine.execRungEntryTimeout s
  | .wakeEvent cause port => Sys2Proof.Machine.execWakeEvent cause port s
  | .rungExitDone => Sys2Proof.Machine.execRungExitDone s
  | .clockPresenceTimeout => Sys2Proof.Machine.execClockPresenceTimeout s
  | .clockWindow host eng mgt lnk => Sys2Proof.Machine.execClockWindow host eng mgt lnk s
  | .clusterCheckFail cluster check blocks => Sys2Proof.Machine.execClusterCheckFail cluster check blocks s
  | .zeroiseDone cluster => Sys2Proof.Machine.execZeroiseDone cluster s
  | .katDone cluster pipes units => Sys2Proof.Machine.execKatDone cluster pipes units s
  | .reloadDone cluster => Sys2Proof.Machine.execReloadDone cluster s
  | .readmit cluster => Sys2Proof.Machine.execReadmit cluster s
  | .isolate cluster value => Sys2Proof.Machine.execIsolate cluster value s
  | .retest cluster value => Sys2Proof.Machine.execRetest cluster value s
  | .trngHealth rct => Sys2Proof.Machine.execTrngHealth rct s
  | .drbgReseed => Sys2Proof.Machine.execDrbgReseed s
  | .drbgWaitTimeout queue op => Sys2Proof.Machine.execDrbgWaitTimeout queue op s
  | .shareRefresh => Sys2Proof.Machine.execShareRefresh s
  | .keySetDerive family epoch txn => Sys2Proof.Machine.execKeySetDerive family epoch txn s
  | .scuBoot bank0 bank1 store => Sys2Proof.Machine.execScuBoot bank0 bank1 store s
  | .scuException => Sys2Proof.Machine.execScuException s
  | .mgmtFrame frame => Sys2Proof.Machine.execMgmtFrame frame s
  | .mbxDoorbell value => Sys2Proof.Machine.execMbxDoorbell value s
  | .getVersion path => Sys2Proof.Machine.execGetVersion path s
  | .getCapabilities path => Sys2Proof.Machine.execGetCapabilities path s
  | .negotiateAlgorithms path => Sys2Proof.Machine.execNegotiateAlgorithms path s
  | .getDigests path => Sys2Proof.Machine.execGetDigests path s
  | .getCertificate path slot => Sys2Proof.Machine.execGetCertificate path slot s
  | .challenge path slot nonce => Sys2Proof.Machine.execChallenge path slot nonce s
  | .getMeasurements path index nonce => Sys2Proof.Machine.execGetMeasurements path index nonce s
  | .keyExchange path slot share => Sys2Proof.Machine.execKeyExchange path slot share s
  | .finish path session proof => Sys2Proof.Machine.execFinish path session proof s
  | .spdmUnsupported path app => Sys2Proof.Machine.execSpdmUnsupported path app s
  | .joinReq path session digest ecdh kem signature image => Sys2Proof.Machine.execJoinReq path session digest ecdh kem signature image s
  | .joinKey path session text tag => Sys2Proof.Machine.execJoinKey path session text tag s
  | .leave path session signature => Sys2Proof.Machine.execLeave path session signature s
  | .mgmtAuth path session chain signature => Sys2Proof.Machine.execMgmtAuth path session chain signature s
  | .state path session => Sys2Proof.Machine.execState path session s
  | .fwStage path session offset data => Sys2Proof.Machine.execFwStage path session offset data s
  | .fwActivate path session image => Sys2Proof.Machine.execFwActivate path session image s
  | .fwSwitchDone image => Sys2Proof.Machine.execFwSwitchDone image s
  | .fwCommit path session raiseMin => Sys2Proof.Machine.execFwCommit path session raiseMin s
  | .fwRollback path session => Sys2Proof.Machine.execFwRollback path session s
  | .probationExpiry => Sys2Proof.Machine.execProbationExpiry s
  | .probationHoldTimeout => Sys2Proof.Machine.execProbationHoldTimeout s
  | .lcsTransition path session target token => Sys2Proof.Machine.execLcsTransition path session target token s
  | .wellRead path session first count => Sys2Proof.Machine.execWellRead path session first count s
  | .regRead path session addr => Sys2Proof.Machine.execRegRead path session addr s
  | .regWrite path session addr value => Sys2Proof.Machine.execRegWrite path session addr value s
  | .certStore path session offset data store => Sys2Proof.Machine.execCertStore path session offset data store s
  | .domainLeave path session => Sys2Proof.Machine.execDomainLeave path session s
  | .romRecovery op store => Sys2Proof.Machine.execRomRecovery op store s
  | .faultRaise raise => Sys2Proof.Machine.execFaultRaise raise s
  | .faultClear index value => Sys2Proof.Machine.execFaultClear index value s
  | .histPop value => Sys2Proof.Machine.execHistPop value s
  | .clearAll value => Sys2Proof.Machine.execClearAll value s
  | .injectArm value => Sys2Proof.Machine.execInjectArm value s
  | .injectRaise value => Sys2Proof.Machine.execInjectRaise value s
  | .hangPass => Sys2Proof.Machine.execHangPass s
  | .unitHang unit => Sys2Proof.Machine.execUnitHang unit s
  | .resetCmd value => Sys2Proof.Machine.execResetCmd value s
  | .resetDrainEnd dom => Sys2Proof.Machine.execResetDrainEnd dom s
  | .resetClearDone dom => Sys2Proof.Machine.execResetClearDone dom s
  | .resetRelease dom => Sys2Proof.Machine.execResetRelease dom s
  | .rstCold => Sys2Proof.Machine.execRstCold s
  | .rstWarm => Sys2Proof.Machine.execRstWarm s
  | .primingPhaseEnd svn used kats reads => Sys2Proof.Machine.execPrimingPhaseEnd svn used kats reads s
  | .fwBaseWrite value => Sys2Proof.Machine.execFwBaseWrite value s
  | .wellRecordWrite => Sys2Proof.Machine.execWellRecordWrite s
  | .trigNow value => Sys2Proof.Machine.execTrigNow value s
  | .rearm value => Sys2Proof.Machine.execRearm value s
  | .markGo value => Sys2Proof.Machine.execMarkGo value s
  | .cntSnap value => Sys2Proof.Machine.execCntSnap value s
  | .cntClear value => Sys2Proof.Machine.execCntClear value s
  | .counterExport => Sys2Proof.Machine.execCounterExport s
  | .vectorFire vector => Sys2Proof.Machine.execVectorFire vector s
  | .irqAck => Sys2Proof.Machine.execIrqAck s
  | .icuPendWrite index value => Sys2Proof.Machine.execIcuPendWrite index value s
  | .icuMaskWrite index value => Sys2Proof.Machine.execIcuMaskWrite index value s
  | .mval addr value => Sys2Proof.Machine.execMval addr value s
  | .psWriteIssue => Sys2Proof.Machine.execPsWriteIssue s
  | .psDone err late => Sys2Proof.Machine.execPsDone err late s
  | .fuseProgramDone err => Sys2Proof.Machine.execFuseProgramDone err s
  | .timeStep ns => Sys2Proof.Machine.execTimeStep ns s
  | .timeLost => Sys2Proof.Machine.execTimeLost s
  | .timeRegained ns => Sys2Proof.Machine.execTimeRegained ns s
  | .railSample mv => Sys2Proof.Machine.execRailSample mv s
  | .railSenseLost => Sys2Proof.Machine.execRailSenseLost s
  | .tapInstruction code clocks => Sys2Proof.Machine.execTapInstruction code clocks s
  | .irqSet page value => Sys2Proof.Machine.execIrqSet page value s
  | .faultClr page value => Sys2Proof.Machine.execFaultClr page value s
  | .pageLock page value => Sys2Proof.Machine.execPageLock page value s
  | .cntClr page value => Sys2Proof.Machine.execCntClr page value s
  | .registerWrite pasid addr write => Sys2Proof.Machine.execRegisterWrite pasid addr write s
  | .resetPinRelease => Sys2Proof.Machine.execResetPinRelease s
  | .cfeTransferPresent queue op data code walk => Sys2Proof.Machine.execCfeTransferPresent queue op data code walk s
  | .reservedSlotOp word => Sys2Proof.Machine.execReservedSlotOp word s
  | .quietTailEnd => Sys2Proof.Machine.execQuietTailEnd s
  | .ctlIngressAllowance => Sys2Proof.Machine.execCtlIngressAllowance s
  | .fuBusyStall => Sys2Proof.Machine.execFuBusyStall s
  | .trngStartupPass => Sys2Proof.Machine.execTrngStartupPass s
  | .trstN => Sys2Proof.Machine.execTrstN s

end Sys2Proof.Machine
end

