-- ==== Sys2Proof/Machine/Step.lean ====
section
/-! DEFINITION. One step: the oldest command that waits is carried out; with none, a nanosecond of network time passes. -/

namespace Sys2Proof.Machine

/-- The idle tick: network time, 64 bits wide, advances by 1 ns (R7, R76). -/
def State.tick (s : State) : State := { s with hw := { s.hw with clk := { s.hw.clk with now := (s.hw.clk.now + 1) % 2 ^ 64 } } }

/-- The command at the front of the queue is taken and carried out with the queue's rest; an empty queue ticks. -/
def step (s : State) : Host.Outcome State Fault Refusal :=
  match s.pending with
  | [] => .next s.tick
  | c :: rest => exec c { s with pending := rest }

/-- The state with the command that a word spells put at the front of the queue. -/
def State.withFetchWord (s : State) (nbits w : Nat) : State :=
  match decodeTableWord nbits w with
  | some c => { s with pending := c :: s.pending }
  | none => s

end Sys2Proof.Machine
end

