-- ==== Sys2Proof/WellFormed.lean ====
section
/-! DEFINITION. Which commands the surroundings can send: the operands that a port, a register or a message can carry. Every meaning
is total; these checks tell the operands that no signal of the block can spell. -/

namespace Sys2Proof

open Sys2Proof.Machine

/-- A message as flits carry it: its data flits hold its lines (R166, R168). -/
def Machine.Message.wf (m : Message) : Bool := decide (m.lines.length ≤ 4 * m.hdr.dflits.toNat) && decide (m.hdr.dflits.toNat ≤ 16)

/-- A message on the wire likewise (R166, R168). -/
def Machine.WireMessage.wf (m : WireMessage) : Bool := decide (m.lines.length ≤ 64)

/-- A raise names a fault source (R409). -/
def Machine.Raise.wf (r : Raise) : Bool := decide (r.source < 384) && decide (r.fences.length ≤ 8)

/-- A management operation as its message carries it (R407). -/
def Machine.MgmtOp.wf : MgmtOp → Bool
  | .reserved c => decide (0x0B ≤ c ∧ c ≤ 0xFF)
  | .regRead a => decide (a < 2 ^ 20)
  | .regWrite a _ => decide (a < 2 ^ 20)
  | .lcsTransition t _ => decide (t < 8)
  | _ => true

/-- Index of an operation in a command buffer, 0 to 4,095 (R267, R270). -/
def opIndex (i : Nat) : Bool := decide (i < 4096)

/-- The lists that an entry can name, by the width of its counts (R267). -/
def ringLists (bind wins : List Nat) (ops : List (BitVec 256)) : Bool :=
  decide (bind.length ≤ 127) && decide (wins.length ≤ 511) && decide (ops.length ≤ 4096) &&
    bind.all (fun b => decide (b < 8192)) && wins.all fun w => decide (w < 65536)

/-- A command that the surroundings can send. -/
def Instr.wf : Instr → Bool
  | .windowResolutionDone _ g => decide (g < 2 ^ 29)
  | .regionWalkRead _ g _ _ => decide (g < 2 ^ 29)
  | .gktPartitionRead g _ => decide (g < 2 ^ 25)
  | .sealLoadResponse _ m => m.wf
  | .gktGet m _ _ _ => m.wf
  | .gktEntry _ m => m.wf
  | .gktOpen m => m.wf
  | .gktAck m _ _ => m.wf
  | .gktClose m => m.wf
  | .pumpReadAnswer _ m => m.wf
  | .condWriteAnswer _ m => m.wf
  | .fabricResponse _ m => m.wf
  | .keyUpdate _ m => m.wf
  | .fenceRemote m => m.wf
  | .bulkPut _ m => m.wf
  | .bulkGet m => m.wf
  | .blExpmaxAnswer _ m => m.wf
  | .blindAnswer _ m _ => m.wf
  | .ingressFlit _ w => w.wf
  | .nop _ i => opIndex i
  | .sealCopy _ i => opIndex i
  | .bulkMove _ i => opIndex i
  | .blindReduce _ i _ _ _ => opIndex i
  | .collectiveOpened _ i _ _ _ => opIndex i
  | .blContribSend _ i _ _ => opIndex i
  | .tGroupExpiry _ i => opIndex i
  | .collectiveClose _ i => opIndex i
  | .dispatch _ i _ _ _ _ => opIndex i
  | .combine _ i _ _ _ => opIndex i
  | .rekeyStart _ i _ _ => opIndex i
  | .rekeyAbort _ i => opIndex i
  | .fenceSignal _ i => opIndex i
  | .fenceWait _ i => opIndex i
  | .fenceWaitTimeout _ i => opIndex i
  | .eventSet _ i => opIndex i
  | .barrier _ i => opIndex i
  | .measure _ i _ _ => opIndex i
  | .familyOpen _ i => opIndex i
  | .keyErase _ i => opIndex i
  | .retireEpoch _ i => opIndex i
  | .certify _ i _ => opIndex i
  | .create _ i _ _ => opIndex i
  | .destroy _ i _ _ => opIndex i
  | .share _ i _ _ => opIndex i
  | .unshare _ i _ _ => opIndex i
  | .setFill _ i _ _ => opIndex i
  | .drbgWaitTimeout _ i => opIndex i
  | .cfeTransferPresent _ i _ _ _ => opIndex i
  | .ringEntryFetch _ _ b w o _ => ringLists b w o
  | .preload _ _ b w o _ => ringLists b w o
  | .faultRaise (some r) => r.wf
  | .spdmUnsupported _ (some (_, t, o)) => decide (t < 256) && (match o with | some c => decide (0x0B ≤ c ∧ c ≤ 0xFF) | none => true)
  | .romRecovery o _ => o.wf
  | .lcsTransition _ _ t _ => decide (t < 8)
  | .clockWindow _ _ _ lnk => decide (lnk.length = 16)
  | _ => true

end Sys2Proof
end

