-- ==== Sys2Proof/Safety.lean ====
section
/-! DEFINITION. What statements about the block are said with: that a command is carried out and to what effect, what a fault
report is, and the form that the stores keep. -/

namespace Sys2Proof.Machine

/-- The command is carried out: it answers a next state whose volatile state has property `P`, while the queue of waiting commands
and the stores that no reset clears stay as they were. -/
def CarriesOut (c : Sys2Proof.Instr) (s : State) (P : Hw → Prop) : Prop :=
  ∃ t, exec c s = .next t ∧ t.pending = s.pending ∧ t.nv = s.nv ∧ P t.hw

/-- The command is carried out, and the whole of the volatile state that it leaves is `u`. -/
def Becomes (c : Sys2Proof.Instr) (s : State) (u : Hw) : Prop := exec c s = .next { s with hw := u }

/-- Once BLK_READY has been driven, the command, an access of the Register Port that is answered OK, leaves `u` but for that
answer (R67, R452, R468). -/
def WritesOk (c : Sys2Proof.Instr) (s : State) (u : Hw) : Prop := s.hw.prime.ready = true → Becomes c s (u.emit (.regAnswer 0 0))

/-- Exactly one report is on its way to the Fault Control Unit beyond those that were: one of `source` (R407). -/
def Reported (h u : Hw) (source : Nat) : Prop := ∃ r : Raise, u.fcu.inflight = h.fcu.inflight ++ [(h.clk.now, r)] ∧ r.source = source

/-- The message that a command hands to the SCU; none for the other commands (R385, R397 to R407). -/
def asks (c : Sys2Proof.Instr) : Option ScuReq :=
  match c with
  | .getVersion p => some (.spdm p .getVersion)
  | .getCapabilities p => some (.spdm p .getCapabilities)
  | .negotiateAlgorithms p => some (.spdm p .negotiateAlgorithms)
  | .getDigests p => some (.spdm p .getDigests)
  | .getCertificate p k => some (.spdm p (.getCertificate k))
  | .challenge p k n => some (.spdm p (.challenge k n))
  | .getMeasurements p k n => some (.spdm p (.getMeasurements k n))
  | .keyExchange p k e => some (.spdm p (.keyExchange k e))
  | .finish p id m => some (.spdm p (.finish id m))
  | .spdmUnsupported p none => some (.spdm p .unsupported)
  | .spdmUnsupported p (some (id, _, some op)) => some (.app p id (.op (.reserved op)))
  | .spdmUnsupported p (some (id, type, none)) => some (.app p id (.other type))
  | .joinReq p id d e k sig image => some (.app p id (.joinReq d e k sig image))
  | .joinKey p id text tag => some (.app p id (.joinKey text tag))
  | .leave p id sig => some (.app p id (.leave sig))
  | .mgmtAuth p id chain sig => some (.app p id (.mgmtAuth chain sig))
  | .ideRefreshReq p id stream => some (.app p id (.ideRefresh stream.toNat))
  | .state p id => some (.app p id (.op .state))
  | .fwStage p id offset data => some (.app p id (.op (.fwStage offset data)))
  | .fwActivate p id image => some (.app p id (.op (.fwActivate image)))
  | .fwCommit p id raise => some (.app p id (.op (.fwCommit raise [] [])))
  | .fwRollback p id => some (.app p id (.op .fwRollback))
  | .lcsTransition p id target token => some (.app p id (.op (.lcsTransition target token)))
  | .wellRead p id first count => some (.app p id (.op (.wellRead first count)))
  | .regRead p id addr => some (.app p id (.op (.regRead addr.toNat)))
  | .regWrite p id addr value => some (.app p id (.op (.regWrite addr.toNat value)))
  | .certStore p id offset data store => some (.app p id (.op (.certStore offset data store)))
  | .domainLeave p id => some (.app p id (.op .domainLeave))
  | .romRecovery op store => some (.rom op store)
  | _ => none

/-- The SCU takes the message that waits on the path, the one in the mailbox or the oldest that the Management Port has
reassembled, and has `u` before it (R399, R405); nothing is held, and no frame waits in the receive buffer. -/
def ScuTakes (h : Hw) (r : ScuReq) (msg : Nat) (u : Hw) : Prop :=
  h.scuClocked = true ∧ (r.needsDrbg = true → h.drbgReady = true) ∧ h.scu.held = [] ∧ h.scu.frames = [] ∧
  ((r.path = .host ∧ h.mbxWaits = true ∧ msg = 0 ∧ u = h.mbxRead) ∨
    (r.path = .mgmt ∧ ∃ bytes rest, h.scu.inbox = (r.frameType, msg, bytes) :: rest ∧ u = { h with scu := { h.scu with inbox := rest } }))

/-- SCU firmware serves the request at once (R385, R389). -/
def ScuServes (h : Hw) (r : ScuReq) : Prop := h.romServes = false ∧ h.scuUp = true ∧ (h.updPhase = 3 → r.heldInProbation = false)

/-- A message of a secured session is served: `x` is the request in hand, `a` who is answered under the operation `op`, and `w` the
block before the message takes effect, its session the one used last (R391, R397). -/
def InSession (c : Sys2Proof.Instr) (h : Hw) (s : Session) (x : Held) (w : Hw) : Prop :=
  ∃ path id m u, asks c = some (.app path id m) ∧ x = ⟨x.msg, .app path id m⟩ ∧ ScuTakes h (.app path id m) x.msg u ∧ ScuServes h (.app path id m) ∧
    h.secured path id = some s ∧ w = u.touchSession id

/-- An answer of the Gate (R49). -/
def Out.isGate : Out → Bool
  | .gate .. => true
  | _ => false

/-- Answers of the Gate so far, in order. -/
def Hw.gateAnswers (h : Hw) : List Out := h.out.filter Out.isGate

/-- The stores that no reset clears are in canonical form. -/
def Nv.wf (n : Nv) : Prop := Tbl.wf (fun _ => 0) n.fuses = true ∧ Tbl.wf (fun _ => 0) n.words = true

/-- Every fuse bit set in one array is set in another (R73). -/
def fusesKept (a b : Tbl Word) : Prop := ∀ w k, bit (a.get 0 w) k = true → bit (b.get 0 w) k = true

end Sys2Proof.Machine
end

