-- ==== Sys2Proof/Certificates/Slice0/Obligations.lean ====
section
/-! DEFINITION. What the block is claimed to do: one definition for each statement, from the rules that its docstring names. -/

open Sys2Proof Sys2Proof.Machine

/-- A step carries out the command at the front of the queue, on the state with the queue's rest; with none waiting, 1 ns of
network time, which is 64 bits wide, passes (log entry 3). -/
def Obligations.StepRunsTheFrontCommand : Prop :=
  (∀ (c : Instr) (rest : List Instr) (s : State), step { s with pending := c :: rest } = exec c { s with pending := rest }) ∧
  ∀ s : State, s.pending = [] → step s = .next { s with hw := { s.hw with clk := { s.hw.clk with now := (s.hw.clk.now + 1) % 2 ^ 64 } } }

/-- Every command answers a next state and leaves the queue alone, and only a persistent write that ends and a fuse operation that ends
change what no reset clears (R71, R73). -/
def Obligations.EveryCommandCompletes : Prop :=
  ∀ (c : Instr) (s : State), ∃ t, exec c s = .next t ∧ t.pending = s.pending ∧
    (t.nv.fuses ≠ s.nv.fuses → ∃ err, c = .fuseProgramDone err) ∧ (t.nv.words ≠ s.nv.words → ∃ err late, c = .psDone err late)

/-- No step clears a fuse bit (R73). -/
def Obligations.FuseBitsNeverClear : Prop :=
  ∀ s t : State, step s = .next t → fusesKept s.nv.fuses t.nv.fuses

/-- Every step keeps the fuse array and the NVM macro in canonical form: rising words, none listed at the value of a blank one. The model's own choices in it: log entry 40. -/
def Obligations.StoresStayCanonical : Prop :=
  ∀ s t : State, Nv.wf s.nv → step s = .next t → Nv.wf t.nv

/-- R1, R81, R260, R315, R322, R367, R409, R466, R467: right after cold reset the stores are in canonical form (the invariant of `StoresStayCanonical`); DIR.VERSION
reads 0x0003_0001 on either path; BLK_READY has not been driven and the block is not joined; no slice is bound, no region is valid, no fence is
allocated, no source is pending, no queue is on, no request is outstanding, and no command waits; and the TAP holds IDCODE. The model's own choices in it: log entries 14 and 40. -/
def Obligations.StateAfterReset : Prop :=
  let h := State.reset.hw
  Nv.wf State.reset.nv ∧ State.reset.pending = [] ∧ (∀ mgmt, h.regRead Reg.DIR_VERSION mgmt = (h, 0x00030001)) ∧ h.prime.ready = false ∧ h.joined = false ∧
  (∀ n, (h.slice n).st = .free) ∧ (∀ i, h.region i = none) ∧ (∀ f, (h.fence f).allocated = false) ∧ (∀ k, k < 384 → h.pending k = false) ∧
  (∀ n, n < 64 → (h.queue n).st = .off) ∧ h.txns = [] ∧ h.tap.instr = 1

/-- R49: every request at a Transaction Port while the Gate runs draws exactly one answer of the Gate, and a refused one leaves no transaction
and no work behind. -/
def Claim.EveryRequestIsAnsweredOnce : Prop :=
  ∀ (s : State) (p : Fin 8) (r : UtpReq), s.hw.gateRuns = true →
    CarriesOut (.utpRequest p r) s fun h => ∃ c, h.gateAnswers = s.hw.gateAnswers ++ [.gate (.utp p) r.tag c] ∧
      (c ≠ .none → h.txns = s.hw.txns ∧ h.rgl = s.hw.rgl ∧ h.regions = s.hw.regions ∧ h.gkt = s.hw.gkt ∧ h.cis = s.hw.cis ∧ h.obj = s.hw.obj)

/-- Steps 1 to 15 of R87 for a request of a Transaction Port, in order: whether the step refuses it, and with what code. The rungs U4 and
U5 are refused as U3 is, and a request that meets the whole block in a reset is refused FENCED (log entry 54). -/
def Claim.r87 (h : Hw) (p : Fin 8) (r : UtpReq) : List (Bool × GateCode) :=
  let a := r.addr.toNat
  let s := (h.sliceOfPasid r.pasid.toNat).getD 0
  let is := fun (f : ReqKind → Bool) => (opOfCode r.op.toNat).any f
  let loc := h.inLocal a
  let w := if loc then none else h.windowFor s (granuleOf a)
  let neg := if loc ∨ w.isSome then none else h.gate.negatives.find? fun e => e.slice == s && e.granule == granuleOf a
  [ (h.pow.rung == .u3 || h.pow.rung == .u4 || h.pow.rung == .u5, .retry)
  , (!h.prime.ready, .fenced)
  , (h.breaksR52 p r, .perm)
  , (h.sliceOfPasid r.pasid.toNat == none || (h.slice s).st != .active, .sliceGone)
  , (loc && bits a 16 10 != s, .perm)
  , (loc && is fun k => k.atomic || k.compute, .classOp)
  , (!loc && (!h.inFabric a || !h.joined || h.dom.leaving != []), .noWindow)
  , (!loc && h.crossRack a && !h.regBit Reg.GATE_RACKS (16 + bits a 46 4), .noWindow)
  , (!loc && h.crossRack a, .gatewayOnly)
  , (neg.any fun e => e.isPerm, .perm)
  , (neg.isSome, .noWindow)
  , (!loc && w.isNone, .retry)
  , (w.any fun w => w.state != .active, .noWindow)
  , (w.any fun w => !is (classAllows w.cls), .classOp)
  , (w.any fun w => !is fun k => w.perm &&& permNeeded k 0 == permNeeded k 0, .perm)
  , (h.fencedFor (.utp p) (w.map (·.cls)), .fenced)
  , (!h.spaceFor (.utp p), .retry) ]

/-- R87: while the Gate runs it answers a request of a Transaction Port with the code of the first step that refuses it, or else with the grant. -/
def Claim.RequestSteps : Prop :=
  ∀ (s : State) (p : Fin 8) (r : UtpReq), s.hw.gateRuns = true →
    CarriesOut (.utpRequest p r) s fun h =>
      h.gateAnswers = s.hw.gateAnswers ++ [.gate (.utp p) r.tag ((((Claim.r87 s.hw p r).find? (·.1)).map (·.2)).getD .none)]

/-- R52, R87 steps 2 and 3: a request that breaks the port protocol is refused PERM with UTP_PROTOCOL; a PASID bound to no slice, or one whose slice is not
active, is refused SLICE_GONE. -/
def Claim.RequestRefusals : Prop :=
  ∀ (s : State) (p : Fin 8) (r : UtpReq), s.hw.prime.ready = true → s.hw.pow.rung ≠ .u3 → s.hw.pow.rung ≠ .u4 → s.hw.pow.rung ≠ .u5 →
    (s.hw.breaksR52 p r = true → CarriesOut (.utpRequest p r) s fun h =>
      h.gateAnswers = s.hw.gateAnswers ++ [.gate (.utp p) r.tag .perm] ∧ Reported s.hw h (184 + p.val) ∧ h.gate.windows = s.hw.gate.windows) ∧
    (s.hw.breaksR52 p r = false → s.hw.sliceOfPasid r.pasid.toNat = none → CarriesOut (.utpRequest p r) s fun h =>
      h.gateAnswers = s.hw.gateAnswers ++ [.gate (.utp p) r.tag .sliceGone] ∧ h.fcu = s.hw.fcu) ∧
    (∀ sl, s.hw.breaksR52 p r = false → s.hw.sliceOfPasid r.pasid.toNat = some sl → (s.hw.slice sl).st ≠ .active →
      CarriesOut (.utpRequest p r) s fun h =>
        h.gateAnswers = s.hw.gateAnswers ++ [.gate (.utp p) r.tag .sliceGone] ∧ h.fcu = s.hw.fcu)

/-- R87, R88: a request that passes every step is granted, and the transaction carries a tag that no outstanding one has, and the class, the region and
the generation of the window that it hit. -/
def Claim.RequestGranted : Prop :=
  ∀ (s : State) (p : Fin 8) (r : UtpReq) (k : ReqKind) (sl : Nat) (w : Window),
    s.hw.prime.ready = true → s.hw.pow.rung ≠ .u3 → s.hw.pow.rung ≠ .u4 → s.hw.pow.rung ≠ .u5 →
    s.hw.breaksR52 p r = false → opOfCode r.op.toNat = some k →
    s.hw.sliceOfPasid r.pasid.toNat = some sl → (s.hw.slice sl).st = .active → s.hw.inFabric r.addr.toNat = true →
    s.hw.joined = true → s.hw.dom.leaving = [] → s.hw.crossRack r.addr.toNat = false →
    s.hw.windowFor sl (granuleOf r.addr.toNat) = some w → w.state = .active → classAllows w.cls k = true →
    w.perm &&& permNeeded k 0 = permNeeded k 0 → s.hw.fencedFor (.utp p) (some w.cls) = false → s.hw.spaceFor (.utp p) = true →
    CarriesOut (.utpRequest p r) s fun h =>
      h.gateAnswers = s.hw.gateAnswers ++ [.gate (.utp p) r.tag .none] ∧ h.nextTxn = (s.hw.newTag + 1) % 2 ^ 32 ∧
      ∃ t ∈ h.txns, t.id = s.hw.newTag ∧ t.src = .utp p ∧ t.tag = r.tag ∧ t.kind = k ∧ t.slice = sl ∧
        t.cls = some w.cls ∧ t.region = w.region ∧ t.gen = w.gen ∧ t.addr = BitVec.ofNat 46 (r.addr.toNat % 2 ^ 46)

/-- R49, R52, R87, R88: the Gate answers every request of a Transaction Port once, with the code of the first step that refuses it, and grants one that passes every step. The model's own choices in it: log entries 4, 9, 12 and 15. -/
def Obligations.RequestsAreJudged : Prop := Claim.EveryRequestIsAnsweredOnce ∧ Claim.RequestSteps ∧ Claim.RequestRefusals ∧ Claim.RequestGranted

/-- R55, R176, R177, R320: the beat of the oldest request that awaits one. A store or atomic to a LINK region takes its data and waits in the Regulator; one to
a SEAL region waits for its keys; a LOCAL store takes effect and is answered; a compute request of type 3 is answered with zeros and FABOP_OPERAND; a beat
that no request awaits raises UTP_PROTOCOL and changes no transaction. -/
def Claim.WriteDataBeats : Prop :=
  ∀ (s : State) (p : Fin 8) (beat : BitVec 2048),
    (s.hw.awaiting p = none → CarriesOut (.writeDataBeat p beat) s fun h =>
      Reported s.hw h (184 + p.val) ∧ h.txns = s.hw.txns ∧ h.rgl = s.hw.rgl ∧ h.out = s.hw.out) ∧
    (∀ t, s.hw.awaiting p = some t → (t.kind.compute && t.atype == 3) = false →
      let ls := (beatLines beat).take (if t.kind.writes then t.lines else 1)
      let data := ls.map fun l => (⟨l, 0⟩ : SealedLine)
      (t.cls = some .link → Becomes (.writeDataBeat p beat) s
        ((s.hw.modTxn t.id fun x => { x with stage := .queued, data := data }).enqueueTxn { t with stage := .queued, data := data })) ∧
      (t.cls = some .sealed → Becomes (.writeDataBeat p beat) s
        ((s.hw.modTxn t.id fun x => { x with stage := .keyWait, data := data }).advance t.id)) ∧
      (t.cls = none → Becomes (.writeDataBeat p beat) s ((s.hw.localStore t.slice (t.addr.toNat % 65536) ls).toPort t.id .ok []))) ∧
    (∀ t, s.hw.awaiting p = some t → t.kind.compute = true → t.atype = 3 → CarriesOut (.writeDataBeat p beat) s fun h =>
      Reported s.hw h 231 ∧ (h.txn t.id).map (fun x => (x.stage, x.status, x.answer)) = some (.ready, .ok, List.replicate 4 0))

/-- R55, R58: a stalled port raises UTP_STALL of its number, and the request stays as it is. -/
def Claim.PortStall : Prop :=
  ∀ (s : State) (p : Fin 8) (t : Txn), t ∈ s.hw.txns → t.src = .utp p → (t.stage = .awaitData ∨ t.stage = .ready) →
    CarriesOut (.utpStall p) s fun h => Reported s.hw h (192 + p.val) ∧ h.txns = s.hw.txns ∧ h.rgl = s.hw.rgl ∧ h.out = s.hw.out

/-- R52, R56, R57: answers. A response is driven with its status and frees its tag; the beat of a LOAD with no failed line is driven, and its
tag stays outstanding; a LOAD's beat with a failed line that is known waits while an earlier beat of the port is unchecked, and is else driven and draws the
strobes that are due; the beat of a switch-compute request frees its tag; and after the 19 cycles the tag of a LOAD is free. -/
def Claim.AnswersAndTags : Prop :=
  ∀ (s : State) (p : Fin 8) (tag : BitVec 10) (t : Txn),
    (s.hw.readyTxn p tag false = some t →
      Becomes (.responseBeat p tag) s ((s.hw.emit (.response p tag t.status t.rspData)).dropTxn t.id)) ∧
    (s.hw.readyTxn p tag true = some t → t.kind ≠ .load →
      Becomes (.readDataBeat p tag) s ((s.hw.emit (.readBeat p tag t.status t.answer)).dropTxn t.id)) ∧
    (s.hw.readyTxn p tag true = some t → t.kind = .load →
      let known := t.checked || t.checks == [] || t.checks.any fun c => c == .stale
      let late := t.failed && (s.hw.windows p).any fun x => !x.checked
      let u := (s.hw.emit (.readBeat p tag t.status t.answer)).dropTxn t.id
      let v : Hw := { u with txns := u.txns ++ [{ t with stage := .window, checked := known }] }
      ((known && late) = false → Becomes (.readDataBeat p tag) s (v.strobes p)) ∧
      ((known && late) = true → Becomes (.readDataBeat p tag) s s.hw) ∧
      (((v.windows p).all fun x => !x.failed) = true → v.strobes p = v)) ∧
    (t ∈ s.hw.txns → t.src = .utp p → t.tag = tag → t.stage = .window → t.checked = true → t.failed = false →
      (∀ x ∈ s.hw.txns, x.src = .utp p → x.tag = tag → x = t) →
      CarriesOut (.tagRelease p tag) s fun h => h.tagOpen p tag = false ∧ h = s.hw.dropTxn t.id)

/-- R52, R55 to R58, R176, R177: the beats of the Transaction Ports. The model's own choices in it: log entries 1, 4, 9, 15 and 18. -/
def Obligations.PortBeats : Prop := Claim.WriteDataBeats ∧ Claim.PortStall ∧ Claim.AnswersAndTags

/-- R97, R98, R102, R103: the end of a resolution that no aged source's precedes and no REGION_OP has overtaken. A granule of no region leaves a NO_WINDOW negative entry,
a region without a share of the slice a PERM one, and otherwise the window is placed with the region's index, generation, class and the slice's permissions,
and pinned for the buffers that asked for it. -/
def Claim.WindowResolutionEnds : Prop :=
  ∀ (s : State) (sl : Fin 1024) (g : Nat) (r : Resolution),
    (s.hw.gate.resolutions.find? fun x => x.slice == sl.val && x.granule == g) = some r → r.era = s.hw.gate.era → s.hw.agedFirst r = false →
    (r.found = some none →
      Becomes (.windowResolutionDone sl g) s ((s.hw.endResolution sl.val g).addNegative sl.val g false)) ∧
    ∀ (idx : Nat) (seen e : Region), r.found = some (some (idx, seen)) → (s.hw.gate.rtc.find? fun p => p.1 == idx) = some (idx, e) →
      e.base ≤ g → g < e.base + e.size → e.state = .active →
      ((e.shares.find? fun x => x.2.1 == sl.val) = none →
        Becomes (.windowResolutionDone sl g) s ((s.hw.endResolution sl.val g).addNegative sl.val g true)) ∧
      (∀ k perm, (e.shares.find? fun x => x.2.1 == sl.val) = some (k, sl.val, perm) →
        Becomes (.windowResolutionDone sl g) s
          (r.pins.foldl (fun h n => h.pinWindow sl.val idx n) ((s.hw.endResolution sl.val g).placeWindow sl.val idx e perm r.aged)) ∧
        (s.hw.gate.windows.length < 256 → r.pins = [] → CarriesOut (.windowResolutionDone sl g) s fun h =>
          h.gate.windows = s.hw.gate.windows ++
            [⟨sl.val, e.base, e.size, idx, e.gen, e.cls, .active, perm, [], r.aged.map fun x => (x, s.hw.clk.now + 1000)⟩] ∧
          (∀ x ∈ h.gate.resolutions, ¬(x.slice = sl.val ∧ x.granule = g)) ∧ h.gate.negatives = s.hw.gate.negatives ∧ h.txns = s.hw.txns))

/-- R92, R95, R96: the read of a walk. An entry of the directory or of a granule map names the next read, or ends the walk with no region; a Region Table entry that passes
its checks and covers the granule is what the walk finds; an error flag on the first read raises DMP_ERROR and starts the walk again, and on the second leaves
REGION_CORRUPT and a NO_WINDOW negative entry. -/
def Claim.WalkReads : Prop :=
  ∀ (s : State) (sl : Fin 1024) (g ns : Nat) (r : Resolution) (d : DmTxn),
    (s.hw.gate.resolutions.find? fun x => x.slice == sl.val && x.granule == g) = some r → s.hw.dmOpen (.walk sl.val g) = some d → d.fault = false →
    r.found = none → r.stage ≠ .cached →
    let now := fun (h : Hw) => h.gate.resolutions.find? fun x => x.slice == sl.val && x.granule == g
    (∀ next, (r.stage = .dir ∧ next = s.hw.dirStep (s.hw.regions.dir.get 0 (g / 512)) ∨
        ∃ k, r.stage = .map k ∧ next = mapStep (s.hw.regions.maps.get 0 (512 * k + g % 512))) →
      (next = some none → CarriesOut (.regionWalkRead sl g .stored ns) s fun h =>
        (now h).map Resolution.found = some (some none) ∧ h.gate.negatives = s.hw.gate.negatives) ∧
      (∀ st, next = some (some st) → CarriesOut (.regionWalkRead sl g .stored ns) s fun h =>
        (now h).map Resolution.stage = some st ∧ (now h).map Resolution.found = some none ∧ h.gate.negatives = s.hw.gate.negatives)) ∧
    (∀ idx e line, r.stage = .table idx → s.hw.inject.remaining = 0 → regionDecode line (regionCrcOk line) = some e → e.base ≤ g → g < e.base + e.size →
      CarriesOut (.regionWalkRead sl g (.other line) ns) s fun h =>
        (now h).map Resolution.found = some (some (some (idx, e))) ∧ (idx, e) ∈ h.gate.rtc) ∧
    (r.retried = false → CarriesOut (.regionWalkRead sl g .error ns) s fun h =>
      (∃ x ∈ h.fcu.inflight, x.2.source = 200) ∧ (now h).map (fun x => (x.stage, x.retried)) = some (r.first, true)) ∧
    (r.retried = true → r.era = s.hw.gate.era → CarriesOut (.regionWalkRead sl g .error ns) s fun h =>
      (∃ x ∈ h.fcu.inflight, x.2.source = 216) ∧ ⟨sl.val, g, false⟩ ∈ h.gate.negatives ∧ now h = none)

/-- R98: GATE.WCACHE_INV invalidates every unpinned window, or those of one slice, and no pinned one. -/
def Claim.WindowInvalidate : Prop :=
  ∀ (s : State) (v : Word), s.hw.prime.ready = true →
    (bit v 0 = true → Becomes (.wcacheInvAll v) s
      ({ s.hw with gate.windows := s.hw.gate.windows.filter fun w => w.pinned != [] }.emit (.regAnswer 0 0))) ∧
    (bit v 1 = true → Becomes (.wcacheInvBySlice v) s
      ({ s.hw with gate.windows := s.hw.gate.windows.filter fun w => w.pinned != [] || w.slice != fld v 16 10 }.emit (.regAnswer 0 0)))

/-- R89 to R98: the window cache and the walk that fills it. The model's own choices in it: log entries 4, 8, 9 and 48. -/
def Obligations.WindowCache : Prop := Claim.WindowResolutionEnds ∧ Claim.WalkReads ∧ Claim.WindowInvalidate

/-- R105 to R111, R113, R114, R371, R372: a passed SEAL store, while the engines run. Where its key set is held, each line is sealed by the cluster that serves its port, under the family
and the epoch of its grant and at the line's own address, in the place that its message keeps in the egress queue; where the set may not be derived any more
the store completes ABORTED, and otherwise it waits for the set. -/
def Claim.SealStoreLeaves : Prop :=
  ∀ (s : State) (id : BitVec 32) (t : Txn) (p : Fin 16), s.hw.enginesRun = true → s.hw.txn id.toNat = some t → t.stage = .passed → t.port = some p →
    (s.hw.keySetFor t.family t.epoch id.toNat = true → CarriesOut (.sealStoreEgress id) s fun h => ∃ lines : List SealedLine,
      h = (s.hw.modTxn id.toNat fun x => { x with stage := .egress }).sealedInPlace p id.toNat lines ∧ lines.length = t.data.length ∧
      ∀ k x, t.data[k]? = some x →
        lines[k]? = some (s.hw.sealLine (s.hw.serving p.val) t.family t.epoch (t.addr.toNat + 64 * k) t.storeLc x.data)) ∧
    (s.hw.keySetFor t.family t.epoch id.toNat = false → s.hw.mayDerive t.family t.epoch = false →
      Becomes (.sealStoreEgress id) s ((s.hw.dropEgress id.toNat).finishTxn id.toNat .aborted)) ∧
    (s.hw.keySetFor t.family t.epoch id.toNat = false → s.hw.mayDerive t.family t.epoch = true → Becomes (.sealStoreEgress id) s s.hw)

/-- R57, R117, R118, R121: the end of the MAC check of a loaded answer. A line held under VERIFIED is released when it passed, or replaced by the fill pattern with AUTH_FAIL; a beat
already transferred draws the strobes that are due, and one that is alone in its window UNTRUSTED with the mask of its failed lines. -/
def Claim.MacCheckEnds : Prop :=
  ∀ (s : State) (id : BitVec 32) (t : Txn) (p : Fin 8), s.hw.txn id.toNat = some t → t.src = .utp p → t.checked = false → t.checks ≠ [] →
    (t.stage = .held → t.failed = false → CarriesOut (.sealMacCheckDone id) s fun h =>
      (h.txn id.toNat).map (fun x => (x.stage, x.checked, x.answer, x.status)) = some (.ready, true, t.answer, t.status) ∧ h.out = s.hw.out ∧ h.fcu = s.hw.fcu) ∧
    (t.stage = .held → t.failed = true → CarriesOut (.sealMacCheckDone id) s fun h =>
      (h.txn id.toNat).map (fun x => (x.stage, x.status, x.answer)) = some (.ready, .authFail, t.blank .deadTarget) ∧
      (Reported s.hw h 218 ∨ Reported s.hw h 219) ∧ h.out = s.hw.out) ∧
    (t.stage = .window → Becomes (.sealMacCheckDone id) s ((s.hw.modTxn id.toNat fun x => { x with checked := true }).strobes p)) ∧
    (t.stage = .window → t.failed = true → s.hw.windows p = [t] → CarriesOut (.sealMacCheckDone id) s fun h =>
      h.out = s.hw.out ++ [.untrusted p t.tag (BitVec.ofNat 4 (failMask t.checks))] ∧ (Reported s.hw h 218 ∨ Reported s.hw h 219))

/-- R113, R116, R179, R183: the answer of a SEAL load whose every line names a live epoch, with the key sets at hand, is released with its plaintext, held only under VERIFIED; one of whose lines names none
waits, and the granule's entry is read from its home again. A response that matches no transaction goes to the Stale Sump. -/
def Claim.SealLoadAnswered : Prop :=
  ∀ (s : State) (p : Fin 16) (m : Message),
    (∀ t q, s.hw.matchTxn m.hdr.txn.toNat = some t → t.cls = some .sealed → t.kind = .load → t.src = .utp q → m.hdr.status = 0 →
      let live := (List.range (t.expected m.lines)).all fun k => match m.lines[k]? with | some l => (s.hw.lineEpoch t (t.lineAddr k) l.etag).isSome | none => true
      (live = true → s.hw.keyMissing t = [] → s.hw.inject.remaining = 0 → CarriesOut (.sealLoadResponse p m) s fun h =>
        ∃ x, h.txn t.id = some x ∧ x.stage = (if t.verified then .held else .ready) ∧
          x.answer.length = t.expected m.lines ∧ x.checks.length = t.expected m.lines ∧ h.out = s.hw.out) ∧
      (live = false → CarriesOut (.sealLoadResponse p m) s fun h =>
        (∃ f ∈ h.gkt.fills, f.granule = granuleOf t.addr.toNat) ∧
        (h.txn t.id).map (fun x => (x.stage, x.keyed, x.data)) = some (.resolving, false, m.lines))) ∧
    (s.hw.matchTxn m.hdr.txn.toNat = none → CarriesOut (.sealLoadResponse p m) s fun h =>
      h = s.hw.sump p m false ∧ h.txns = s.hw.txns ∧ h.fcu = s.hw.fcu ∧ h.out = s.hw.out)

/-- R122: a write to SEAL.QUAR_REL releases the quarantined slice it names; its queues leave the quarantine. -/
def Claim.QuarantineReleased : Prop :=
  ∀ (s : State) (v : Word), s.hw.prime.ready = true → bit v 31 = true → (s.hw.slice (fld v 0 10)).quar = true →
    Becomes (.quarRel v) s
      (((s.hw.queuesOf (fld v 0 10)).foldl (fun h n => h.queueRelease n)
        (s.hw.setSlice (fld v 0 10) { s.hw.slice (fld v 0 10) with quar := false })).quarStat.emit (.regAnswer 0 0))

/-- R105 to R122: SEAL stores and loads, their checks and the quarantine. The model's own choices in it: log entries 1, 4, 9, 18 and 48. -/
def Obligations.SealTraffic : Prop := Claim.SealStoreLeaves ∧ Claim.MacCheckEnds ∧ Claim.SealLoadAnswered ∧ Claim.QuarantineReleased

/-- R137, R140, R143: the GKT cache. A request whose granule is cached takes the entry; one whose granule is not starts a fill and is counted; a usable entry of the member's own partition or of an answer
ends the fill; a read of the partition that fails once is made again; an answer that a notice has overtaken is discarded and fetched again. -/
def Claim.KeyTableFills : Prop :=
  (∀ (s : State) (id : BitVec 32) (t : Txn), s.hw.txn id.toNat = some t → t.cls = some .sealed → t.keyed = false → t.stage = .keyWait →
    (∀ e, s.hw.cached (granuleOf t.addr.toNat) = some e →
      Becomes (.gktCacheMiss id) s (((s.hw.gktTouch (granuleOf t.addr.toNat)).modTxn id.toNat fun x => x.record e).advance id.toNat)) ∧
    (s.hw.cached (granuleOf t.addr.toNat) = none → CarriesOut (.gktCacheMiss id) s fun h =>
      h = (s.hw.incReg Reg.GKT_MISS_CNT).startFill (granuleOf t.addr.toNat) ∧ ∃ f ∈ h.gkt.fills, f.granule = granuleOf t.addr.toNat)) ∧
  (∀ (s : State) (g : Nat) (f : GktFill) (d : DmTxn), (s.hw.gkt.fills.find? fun f => f.granule == g && f.txn == none) = some f →
    s.hw.dmOpen (.partition g) = some d → d.fault = false →
    (s.hw.inject.remaining = 0 → gktUsable (s.hw.partWord g) = true →
      Becomes (.gktPartitionRead g .stored) s ((s.hw.dmEnd (.partition g)).fillDone f (gktDecode (s.hw.partWord g)))) ∧
    (f.retried = false → CarriesOut (.gktPartitionRead g .error) s fun h =>
      (∃ x ∈ h.fcu.inflight, x.2.source = 200) ∧ (h.gkt.fills.find? fun x => x.granule == g && x.txn == none).map (·.retried) = some true)) ∧
  ∀ (s : State) (p : Fin 16) (m : Message) (f : GktFill), (s.hw.gkt.fills.find? fun f => f.txn == some m.hdr.txn.toNat) = some f →
    m.hdr.status ≠ 2 → s.hw.inject.remaining = 0 →
    (f.overtaken = true → Becomes (.gktEntry p m) s (((s.hw.endFill f).incReg Reg.GKT_DISCARD_CNT).startFill f.granule)) ∧
    (f.overtaken = false → gktCrcOk (BitVec.ofNat 64 (inlineField m.inlineArea 8 64)) = true →
      Becomes (.gktEntry p m) s (s.hw.fillDone f (gktDecode (BitVec.ofNat 64 (inlineField m.inlineArea 8 64)))))

/-- R141, R142: a member applies GKT_OPEN by dropping the home's entries of the range from its cache and owing an acknowledgement for the key sets that they ask for; it applies GKT_CLOSE by overwriting the epoch and dual of the entries it
holds; and it acknowledges once every key set is ready and every earlier store has completed. -/
def Claim.MemberAppliesNotices : Prop :=
  (∀ (s : State) (m : Message), s.hw.joined = true →
    (let home := m.hdr.src.toNat
     let hit := fun g => inRange g (inlineField m.inlineArea 4 32) (inlineField m.inlineArea 8 32) && s.hw.homeOf g == home
     s.hw.gkt.pinned = [] → (s.hw.gkt.acks.any fun a => a.home == home && a.seq == inlineField m.inlineArea 12 16) = false →
     CarriesOut (.gktOpen m) s fun h =>
       h.gkt.cache = s.hw.gkt.cache.filter (fun p => !hit p.1) ∧
       (∃ a, h.gkt.acks = s.hw.gkt.acks ++ [a] ∧ a.home = home ∧ a.seq = inlineField m.inlineArea 12 16 ∧ a.txn = m.hdr.txn.toNat ∧
         a.keys = (s.hw.gkt.cache.filter fun p => hit p.1).map fun p => (p.2.family, p.2.epoch + 1)) ∧ h.txns = s.hw.txns ∧ h.gkt.part = s.hw.gkt.part)) ∧
  (∀ (s : State) (m : Message) (g : Nat), s.hw.joined = true → s.hw.gkt.pinned = [] → inlineField m.inlineArea 0 8 = 1 →
    g = bits (inlineField m.inlineArea 8 64) 0 25 → CarriesOut (.gktClose m) s fun h =>
      h.gkt.cache = s.hw.gkt.cache.map (fun p => if p.1 = g then (p.1, if p.2.home = m.hdr.src.toNat then
        { p.2 with epoch := bits (inlineField m.inlineArea 8 64) 25 16, dual := bits (inlineField m.inlineArea 8 64) 41 1 == 1, pstate := 0 } else p.2) else p) ∧
      h.txns = s.hw.txns ∧ h.gkt.acks = s.hw.gkt.acks) ∧
  ∀ (s : State) (home seq : BitVec 16) (a : PendingAck) (reads : PartReads) (walk : BttWalk),
    (s.hw.gkt.acks.find? fun a => a.home == home.toNat && a.seq == seq.toNat) = some a →
    (s.hw.ackDue a = true → home.toNat ≠ s.hw.memberId → CarriesOut (.gktAckSend home seq reads walk) s fun h =>
      h.gkt.acks = s.hw.gkt.acks.filter (fun x => !(x.home == home.toNat && x.seq == seq.toNat)) ∧
      let m := s.hw.controlMsg .gktAck (some home.toNat) 0 a.txn (inlineOf [(0, seq.toNat)])
      ∃ i, h.rgl.items = s.hw.rgl.items ++ [i] ∧ i.master = 12 ∧ i.work = .message { m with hdr := { m.hdr with resp := true } }) ∧
    (s.hw.ackDue a = false → Becomes (.gktAckSend home seq reads walk) s s.hw)

/-- R371: a missing key set is derived from its family key and takes a free place, and what waits for it is looked at again. -/
def Claim.KeySetDerived : Prop :=
  ∀ (s : State) (f e : BitVec 16) (id : BitVec 32),
    Becomes (.keySetDerive f e id) s (s.hw.deriveSet s.hw.keyPinned f.toNat e.toNat id.toNat).keysChanged ∧
    (s.hw.hasKeySet f.toNat e.toNat = false → s.hw.mayDerive f.toNat e.toNat = true → s.hw.freeSetPos ≠ none →
      (s.hw.deriveSet s.hw.keyPinned f.toNat e.toNat id.toNat).hasKeySet f.toNat e.toNat = true)

/-- R135 to R145, R371: the granule key table and the key sets of this member. The model's own choices in it: log entries 1, 4, 8 and 19. -/
def Obligations.KeyTable : Prop := Claim.KeyTableFills ∧ Claim.MemberAppliesNotices ∧ Claim.KeySetDerived

/-- R137, R140, R141, R144, R145, R157: a home. It answers GKT_GET with the usable entry of its partition, or with NO_TARGET and GKT_CORRUPT after two failed reads; an acknowledgement that is not the last only counts, and the last one
moves the round's granules on; a timeout sends the same GKT_OPEN again up to the fourth send, and then ends the round with OPEN_ROUND_TIMEOUT; and closed granules are announced, at most 16 to a notice. The model's own choices in it: log entries 4, 8 and 19. -/
def Obligations.HomeServes : Prop :=
  (∀ (s : State) (m : Message) (second : MemRead) (walk : BttWalk), s.hw.inject.remaining = 0 →
    let g := inlineField m.inlineArea 0 25
    gktUsable (s.hw.partWord g) = true → (s.hw.bttCheck none (s.hw.partAddr g) false walk).2 = none →
    CarriesOut (.gktGet m .stored second walk) s fun h => h.fcu = s.hw.fcu ∧ ∃ i, h.rgl.items = s.hw.rgl.items ++ [i] ∧ i.master = 12 ∧
      i.work = .message (s.hw.answerMsg m.hdr 0x21 3 0 (inlineOf [(0, g), (8, (gktDecode (s.hw.partWord g)).word.toNat)]) [])) ∧
  (∀ (s : State) (m : Message) (walk : BttWalk), CarriesOut (.gktGet m .error .error walk) s fun h =>
    (∃ i, h.rgl.items = s.hw.rgl.items ++ [i] ∧ ∃ x, i.work = .message x ∧ x.hdr.status = 2 ∧ x.hdr.resp = true ∧ x.hdr.dst = m.hdr.src) ∧
    ∃ x ∈ h.fcu.inflight, x.2.source = 224) ∧
  (∀ (s : State) (m : Message) (r : Round) (reads : PartReads) (walk : BttWalk),
    (s.hw.gkt.rounds.find? fun r => r.seq == inlineField m.inlineArea 0 16) = some r →
    (r.missing.filter (· ≠ m.hdr.src.toNat) ≠ [] → Becomes (.gktAck m reads walk) s
      { s.hw with gkt.rounds := s.hw.gkt.rounds.map fun x =>
          if x.seq = inlineField m.inlineArea 0 16 then { x with missing := r.missing.filter (· ≠ m.hdr.src.toNat) } else x }) ∧
    (r.missing.filter (· ≠ m.hdr.src.toNat) = [] → Becomes (.gktAck m reads walk) s
      (let h : Hw := { s.hw with gkt.rounds := s.hw.gkt.rounds.filter fun x => x.seq != inlineField m.inlineArea 0 16 }
       ((r.granules.foldl (fun h g => h.partStep reads walk (fun e => { e with pstate := 2 }) g) h).roundCommand r .ok 0 0).settleRanges))) ∧
  (∀ (s : State) (seq : BitVec 16) (r : Round) (reads : PartReads) (walk : BttWalk), (s.hw.gkt.rounds.find? fun r => r.seq == seq.toNat) = some r →
    (r.sends < 4 → Becomes (.openRoundAckTimeout seq reads walk) s
      (({ s.hw with gkt.rounds := s.hw.gkt.rounds.map fun x => if x.seq = seq.toNat then { x with sends := x.sends + 1 } else x } : Hw).sendControl (s.hw.openMsg r))) ∧
    (4 ≤ r.sends → CarriesOut (.openRoundAckTimeout seq reads walk) s fun h =>
      (∃ x ∈ h.fcu.inflight, x.2.source = 226) ∧ ∀ x ∈ h.gkt.rounds, x.seq ≠ seq.toNat)) ∧
  ∀ s : State, s.hw.gkt.closes ≠ [] → CarriesOut .gktCloseSend s fun h =>
    h.gkt.closes = s.hw.gkt.closes.drop 16 ∧ ∃ i, h.rgl.items = s.hw.rgl.items ++ [i] ∧ i.master = 12 ∧ ∃ x, i.work = .message x ∧ x.hdr.op = 0x24

/-- R147: what the Pump does with each line of a sweep answer, by its etag: a line under E is left and counted; one under E - 1 that passes under E - 1 is sealed again under E with the same lc; one
under E - 1 that fails is left, with PUMP_AUTH_FAIL at the granule's first; any other is left and counted as foreign. The model's own choices in it: log entry 4. -/
def Obligations.PumpLineByEtag : Prop :=
  ∀ (h : Hw) (t : Txn) (w : Wet) (line : Nat) (l : SealedLine), h.pump.wet = some w → h.inject.remaining = 0 →
    let addr := w.granule * 2 ^ 21 + 64 * line
    let n := h.serving ((t.port.map (·.val)).getD 0)
    let ok := (h.openLine n w.family (w.epoch - 1) addr l).2 && h.epochUsable t (w.epoch - 1)
    (l.etag = w.epoch % 4 → h.pumpLine t w line l = ((h.incReg Reg.PUMP_LINES_SKIP).modWet fun w => w.finish [line], none)) ∧
    (l.etag ≠ w.epoch % 4 → l.etag = (w.epoch - 1) % 4 → ok = true →
      h.pumpLine t w line l = (h, some (h.sealLine n w.family w.epoch addr l.lc (h.openLine n w.family (w.epoch - 1) addr l).1))) ∧
    (l.etag ≠ w.epoch % 4 → l.etag = (w.epoch - 1) % 4 → ok = false → (h.pumpLine t w line l).2 = none ∧
      (w.authFail = false → Reported h (h.pumpLine t w line l).1 227) ∧ (w.authFail = true → (h.pumpLine t w line l).1.fcu = h.fcu)) ∧
    (l.etag ≠ w.epoch % 4 → l.etag ≠ (w.epoch - 1) % 4 →
      h.pumpLine t w line l = ((h.incReg Reg.PUMP_LINES_FOREIGN).modWet fun w => w.finish [line], none))

/-- R147, R151: a sweep read of four lines of the WET granule is issued within the budget, which it uses by 256 bytes, and none without it; and an answer whose four lines have been sealed under E already finishes them with nothing written. -/
def Claim.PumpSweeps : Prop :=
  (∀ (s : State) (w : Wet) (reads : PartReads) (walk : BttWalk), s.hw.joined = true → s.hw.pumpRuns = true → s.hw.pump.wet = some w →
    w.stopping = false → w.nextRead < 32768 → s.hw.mayDerive w.family w.epoch = true →
    (s.hw.hasKeySet w.family w.epoch = true → s.hw.hasKeySet w.family (w.epoch - 1) = true → 256 ≤ s.hw.pump.budget →
      CarriesOut (.pumpSweepRead reads walk) s fun h =>
        h.pump.budget = s.hw.pump.budget - 256 ∧
        h.pump.wet = some { w with nextRead := w.nextRead + 4, reads := w.reads ++ [(s.hw.newTag, w.nextRead)] } ∧
        ∃ t, h.txns = s.hw.txns ++ [t] ∧ t.id = s.hw.newTag ∧ t.src = .pump ∧ t.lines = 4 ∧
          t.addr = BitVec.ofNat 46 (w.granule * 2 ^ 21 + 64 * w.nextRead)) ∧
    (s.hw.pump.budget < 256 → Becomes (.pumpSweepRead reads walk) s s.hw)) ∧
  ∀ (s : State) (p : Fin 16) (m : Message) (w : Wet) (t : Txn) (first : Nat) (a b c d : SealedLine),
    s.hw.txn m.hdr.txn.toNat = some t → s.hw.pump.wet = some w → (w.reads.find? fun r => r.1 == t.id) = some (t.id, first) → w.stopping = false →
    m.hdr.status ≠ 2 → m.lines = [a, b, c, d] → a.etag = w.epoch % 4 → b.etag = w.epoch % 4 → c.etag = w.epoch % 4 → d.etag = w.epoch % 4 →
    CarriesOut (.pumpReadAnswer p m) s fun h =>
      h.pump.wet = some (((({ w with reads := w.reads.filter fun r => r.1 != t.id } : Wet).finish [first]).finish [first + 1]).finish [first + 2] |>.finish [first + 3]) ∧
      h.txns = s.hw.txns.filter (fun x => x.id != t.id) ∧ h.nextTxn = s.hw.nextTxn ∧ h.fcu = s.hw.fcu

/-- R148, R149, R150: an answered epoch-conditional write finishes its lines whether it was performed or refused; at 32,768 the granule closes, with dual 0 and IDLE in the partition and a record for GKT_CLOSE. -/
def Claim.PumpFinishesGranule : Prop :=
  (∀ (s : State) (p : Fin 16) (m : Message) (w : Wet) (t : Txn) (first : Nat),
    s.hw.txn m.hdr.txn.toNat = some t → s.hw.pump.wet = some w → (w.writes.find? fun r => r.1 == t.id) = some (t.id, first) → w.stopping = false →
    m.hdr.status ≠ 2 → CarriesOut (.condWriteAnswer p m) s fun h =>
      h.pump.wet = some { w.finish ((List.range t.lines).map (· + first)) with writes := w.writes.filter fun r => r.1 != t.id } ∧
      h.txns = s.hw.txns.filter (fun x => x.id != t.id) ∧ h.gkt = s.hw.gkt ∧ h.fcu = s.hw.fcu) ∧
  ∀ (s : State) (w : Wet), s.hw.pump.wet = some w → w.stopping = false → 32768 ≤ w.cursor →
    s.hw.pump.ranges = [] → CarriesOut .granuleClose s fun h =>
      h.gkt.part = s.hw.gkt.part.put 0 w.granule (⟨w.family, w.epoch, false, 0, s.hw.memberId⟩ : GktEntry).word ∧
      h.gkt.closes = s.hw.gkt.closes ++ [(w.granule, w.epoch, false)] ∧ h.pump.wet = none

/-- R153, R151, R154: the Pump stopped by a dead target raises PUMP_STUCK once its outstanding lines are done and parks the granule; each window refills the budget with rate x 1,000 bytes, 16 GB/s at most under FRUGAL; a write of PUMP.CTL or U3 entry pauses it. -/
def Claim.PumpStopsAndPaces : Prop :=
  (∀ (s : State) (w : Wet), s.hw.pump.wet = some w → w.stuck = true → w.reads = [] → w.writes = [] → s.hw.pump.ranges = [] → s.hw.pump.aborting = [] →
    CarriesOut .pumpStuck s fun h => (∃ x ∈ h.fcu.inflight, x.2.source = 228) ∧ h.pump.wet = none ∧
      h.gkt.part = s.hw.gkt.part.put 0 w.granule (⟨w.family, w.epoch, true, 5, s.hw.memberId⟩ : GktEntry).word) ∧
  (∀ (s : State) (w : Wet), s.hw.pump.wet = some w → (w.stuck = false ∨ w.reads ≠ [] ∨ w.writes ≠ []) → Becomes .pumpStuck s s.hw) ∧
  (∀ s : State, Becomes .pumpRateWindow s { s.hw with pump.budget :=
    (if s.hw.frugal then min (min (max (s.hw.regF Reg.PUMP_CTL 0 7) 1) 64) 16 else min (max (s.hw.regF Reg.PUMP_CTL 0 7) 1) 64) * 1000 }) ∧
  (∀ s : State, Becomes (.pumpPause none) s { s.hw with pump.rungPause := true }) ∧
  ∀ (s : State) (v : Word), s.hw.prime.ready = true → Becomes (.pumpPause (some v)) s
    ((s.hw.setReg Reg.PUMP_CTL (BitVec.ofNat 32 (min (max (fld v 0 7) 1) 64 + 256 * b2n (bit v 8)))).emit (.regAnswer 0 0))

/-- R147 to R154: the sweep of a granule, its end, and what stops and paces the Pump. The model's own choices in it: log entries 1, 4, 8, 9 and 48. -/
def Obligations.PumpSweepsGranules : Prop := Claim.PumpSweeps ∧ Claim.PumpFinishesGranule ∧ Claim.PumpStopsAndPaces

/-- R348: the work that the Regulator passes next is waiting and eligible, and no eligible work stands at an earlier step of the order of service. -/
def Obligations.ServiceOrder : Prop :=
  ∀ (h : Hw) (i : WorkItem) (step : Nat), h.nextWork = some (i, step) →
    i ∈ h.rgl.items ∧ h.eligible i = true ∧ h.serviceStep i = step ∧ ∀ j ∈ h.rgl.items, h.eligible j = true → step ≤ h.serviceStep j

/-- R41, R343, R348, R353: REGULATOR_PASS, while the engines run. A control message enters the egress queue of its port; a LINK request likewise, as its message; a SEAL store keeps a place there that its cluster still has to fill.
What is passed no longer waits. While the engines stand nothing is passed. -/
def Claim.RegulatorPasses : Prop :=
  (∀ s : State, s.hw.enginesRun = false → Becomes .regulatorPass s s.hw) ∧
  ∀ (s : State) (i : WorkItem) (step : Nat) (p : Fin 16), s.hw.enginesRun = true → s.hw.nextWork = some (i, step) → s.hw.itemPort i = some p →
    (s.hw.masterClass i.master == 0 && s.hw.atCap i.master) = false →
    let waited := if s.hw.pairRepair p.val then i.waitedFor ||| waitRepair else i.waitedFor
    (∀ m, i.work = .message m → m.hdr.op ≠ 0x20 → m.hdr.op ≠ 0x28 → m.hdr.cls ≠ 4 → CarriesOut .regulatorPass s fun h =>
      h = (s.hw.chargeWork i step).toEgress p
        ⟨none, { m with hdr := { m.hdr with pgen := (s.hw.port p.val).pgen } }, m.flits, false, true, i.deadline, waited, i.master, i.ahead⟩ ∧
      ∀ x ∈ h.rgl.items, x.seq ≠ i.seq) ∧
    (∀ id t, i.work = .txn id → s.hw.txn id = some t → t.cls = some .link → t.kind ≠ .bulk → CarriesOut .regulatorPass s fun h =>
      (h.txn id).map (fun x => (x.stage, x.port, x.pgen)) = some (.egress, some p, (s.hw.port p.val).pgen) ∧
      (∃ e, ((h.port p.val).vc 0).queue = ((s.hw.port p.val).vc 0).queue ++ [e] ∧ e.txn = some id ∧ e.ready = true) ∧
      (∀ x ∈ h.rgl.items, x.seq ≠ i.seq) ∧ h.fcu = s.hw.fcu ∧ h.out = s.hw.out) ∧
    (∀ id t, i.work = .txn id → s.hw.txn id = some t → t.cls = some .sealed → t.kind.writes = true → t.kind ≠ .bulk → t.src ≠ .pump →
      CarriesOut .regulatorPass s fun h =>
        (h.txn id).map (fun x => (x.stage, x.port)) = some (.passed, some p) ∧
        (∃ e, ((h.port p.val).vc 0).queue = ((s.hw.port p.val).vc 0).queue ++ [e] ∧ e.txn = some id ∧ e.ready = false) ∧
        (∀ x ∈ h.rgl.items, x.seq ≠ i.seq))

/-- R346, R351, R357: at the refill every charge and every count of the window returns to 0, and no write waits any longer. -/
def Claim.RefillClearsCharges : Prop :=
  ∀ s : State, CarriesOut .budgetRefill s fun h =>
    h.rgl.charged = [] ∧ h.rgl.sliceCharged = [] ∧ h.rgl.shareTotal = 0 ∧ h.rgl.pendingWrites = [] ∧ h.rgl.passedSteps = 0 ∧ h.rgl.passedBy = [] ∧ h.rgl.breaches = [] ∧
    h.rgl.windowStart = s.hw.clk.now ∧ h.cfe.issues = [] ∧ h.rgl.items = s.hw.rgl.items

/-- R352: work that has waited its bound is aged, and counted in REG.AGED_CNT, and BACKGROUND work is promoted; work held by its cap is neither, nor is work that is aged already. -/
def Claim.WorkAges : Prop :=
  ∀ (s : State) (seq : Nat) (i : WorkItem), (s.hw.rgl.items.find? fun x => x.seq == seq) = some i →
    ((s.hw.atCap i.master && s.hw.masterClass i.master != 0) = false → i.aged = false → Becomes (.workAged seq false) s
      (({ s.hw with rgl.items := s.hw.rgl.items.map fun x => if x.seq = seq then { x with aged := true } else x } : Hw).incReg Reg.REG_AGED_CNT)) ∧
    (s.hw.atCap i.master = false → i.aged = false → i.promoted = false → s.hw.masterClass i.master = 2 → Becomes (.workAged seq true) s
      { s.hw with rgl.items := s.hw.rgl.items.map fun x => if x.seq = seq then { x with promoted := true } else x }) ∧
    (i.aged = true → ∀ b, Becomes (.workAged seq b) s s.hw) ∧
    (s.hw.atCap i.master = true → s.hw.masterClass i.master ≠ 0 → ∀ b, Becomes (.workAged seq b) s s.hw)

/-- R343 to R353: what the Regulator passes, its budgets and its bounds. The model's own choices in it: log entries 1 and 9. -/
def Obligations.Regulator : Prop := Claim.RegulatorPasses ∧ Claim.RefillClearsCharges ∧ Claim.WorkAges

/-- R41, R65, R257, R353: the visit of a port's next VC, while the engines run and its pair is not fenced. An empty VC loses its deficit; a closed gate skips a VC and counts it with nothing sent; one whole message at the head leaves when the gate is open and the deficit,
the credits and the room suffice. Where the link is down, the engines stand or the pair is fenced, nothing leaves. -/
def Claim.EgressVisits : Prop :=
  ∀ (s : State) (p : Fin 16) (gate : BitVec 4) (room : Nat), s.hw.dom.leaving = [] →
    (((s.hw.port p.val).linkUp = false ∨ s.hw.enginesRun = false ∨ s.hw.portFenced p.val = true) → Becomes (.egressVisit p gate room) s s.hw) ∧
    ((s.hw.port p.val).linkUp = true → s.hw.enginesRun = true → s.hw.portFenced p.val = false →
      let v := (s.hw.port p.val).nextVc.toNat
      let c := (s.hw.port p.val).vc v
      (c.queue = [] → CarriesOut (.egressVisit p gate room) s fun h =>
        h.out = s.hw.out ∧ h.txns = s.hw.txns ∧ (h.port p.val).nextVc = (s.hw.port p.val).nextVc + 1 ∧ ((h.port p.val).vc v).deficit = 0) ∧
      (c.queue ≠ [] → gate.getLsbD v = false → CarriesOut (.egressVisit p gate room) s fun h =>
        h.out = s.hw.out ∧ h.txns = s.hw.txns ∧ (h.port p.val).nextVc = (s.hw.port p.val).nextVc + 1 ∧ ((h.port p.val).vc v).deficit = c.deficit) ∧
      (∀ i, c.queue = [i] → gate.getLsbD v = true → i.started = false → i.ready = true → i.left = i.msg.flits → i.deadline = none →
        i.msg.hdr.vc = (s.hw.port p.val).nextVc → i.msg.hdr.op ≠ 0x31 → i.msg.hdr.op ≠ 0x32 → i.msg.flits ≤ c.credits → i.msg.flits ≤ room → i.msg.flits ≤ c.deficit →
        s.hw.portReady p i.msg = true → CarriesOut (.egressVisit p gate room) s fun h =>
          (∃ gen seq wire, h.out = s.hw.out ++ [.message p gen seq wire]) ∧ (h.port p.val).nextVc = (s.hw.port p.val).nextVc + 1 ∧
          ((h.port p.val).vc v).queue = [] ∧ ((h.port p.val).vc v).credits = c.credits - i.msg.flits))

/-- R65, R355: a credit pulse adds one credit of its VC and touches nothing else, and one beyond 255 is ignored with LP_PROTOCOL; a gate closed for longer than GATE_MAX with a message waiting raises TGATE_STUCK once. -/
def Claim.CreditsAndGates : Prop :=
  ∀ (s : State) (p : Fin 16) (v : Fin 4),
    (((s.hw.port p.val).vc v.val).credits < 255 → CarriesOut (.txCredit p v) s fun h =>
      h = { s.hw with ports := h.ports } ∧ ((h.port p.val).vc v.val).credits = ((s.hw.port p.val).vc v.val).credits + 1 ∧
      (∀ u ≠ v.val, (h.port p.val).vc u = (s.hw.port p.val).vc u) ∧ ∀ q ≠ p.val, h.port q = s.hw.port q) ∧
    (255 ≤ ((s.hw.port p.val).vc v.val).credits → CarriesOut (.txCredit p v) s fun h =>
      Reported s.hw h (96 + p.val) ∧ h.ports = s.hw.ports ∧ h.out = s.hw.out) ∧
    (s.hw.regF Reg.EGRESS_GATE_MAX 0 16 ≠ 0 → ((s.hw.port p.val).vc v.val).queue ≠ [] → ((s.hw.port p.val).vc v.val).stuck = false →
      CarriesOut (.tgateStuck p v) s fun h => Reported s.hw h 256 ∧ ((h.port p.val).vc v.val).stuck = true ∧
        ((h.port p.val).vc v.val).queue = ((s.hw.port p.val).vc v.val).queue ∧ h.txns = s.hw.txns ∧ h.out = s.hw.out) ∧
    (((s.hw.port p.val).vc v.val).stuck = true → Becomes (.tgateStuck p v) s s.hw)

/-- R65, R353, R355: the egress scheduler of a Link Port. The model's own choices in it: log entries 1, 4, 9 and 21. -/
def Obligations.Egress : Prop := Claim.EgressVisits ∧ Claim.CreditsAndGates

/-- R64, R66, R160, R163, R164, R257, R312: a message's flits arrive. They are ignored while the link is down; each that comes without a credit raises LP_PROTOCOL; those of a fenced pair or in U3 are held; with no session, other than a handshake's, they are dropped and their credits returned; of a message one of whose
tags fails the flits before that one stay and the others are dropped with LINK_AUTH_FAIL, and the session ends; a sound request is held in its buffers for its consumer. The model's own choices in it: log entries 1, 4 and 9. -/
def Obligations.IngressFlits : Prop :=
  ∀ (s : State) (p : Fin 16) (w : WireMessage),
    let x := s.hw.port p.val
    let hd := Header.ofBits w.header
    let v := hd.vc.toNat
    let n := 1 + hd.dflits.toNat
    let seq := x.rxSeq.get 0 v
    let opened := openWire (s.hw.rxKey p.val v).1 (s.hw.rxKey p.val v).2 seq w
    (x.linkUp = false → Becomes (.ingressFlit p w) s s.hw) ∧
    (x.linkUp = true → x.granted.get 0 v = 0 → CarriesOut (.ingressFlit p w) s fun h =>
      (∃ l, h.fcu.inflight = s.hw.fcu.inflight ++ l ∧ l.length = n ∧ ∀ y ∈ l, y.2.source = 96 + p.val) ∧
      h.ports = s.hw.ports ∧ h.out = s.hw.out ∧ h.txns = s.hw.txns) ∧
    (x.linkUp = true → n ≤ x.granted.get 0 v → s.hw.ingressHeld p.val = true → CarriesOut (.ingressFlit p w) s fun h =>
      (h.port p.val).waiting = x.waiting ++ [(w, n)] ∧ h.out = s.hw.out ∧ h.txns = s.hw.txns ∧ h.fcu = s.hw.fcu) ∧
    (x.linkUp = true → n ≤ x.granted.get 0 v → s.hw.ingressHeld p.val = false → (s.hw.deterministic && v == 3) = false → x.waiting = [] → hd.isSess = false →
      (x.sess = .none → CarriesOut (.ingressFlit p w) s fun h =>
        h.out = s.hw.out ++ [.rxCredit p v n] ∧ h.txns = s.hw.txns ∧ h.fcu = s.hw.fcu) ∧
      (x.sess = .up → s.hw.inject.remaining = 0 →
        (∀ j, ((opened.2.take n).findIdx? fun b => !b) = some j → CarriesOut (.ingressFlit p w) s fun h =>
          Reported s.hw h (128 + p.val) ∧ h.out = s.hw.out ++ [.rxCredit p v (n - j)] ∧ (h.port p.val).held.get 0 v = x.held.get 0 v + j ∧
          (h.port p.val).sess = .ending) ∧
        (((opened.2.take n).findIdx? fun b => !b) = none → hd.badOp = false → hd.badStatus = false → hd.resp = false → headerClean w.header = true →
          s.hw.deadSlot hd = false → CarriesOut (.ingressFlit p w) s fun h => (h.port p.val).held.get 0 v = x.held.get 0 v + n ∧
            (h.port p.val).rxSeq.get 0 v = seq + BitVec.ofNat 64 (min n hd.gcmFlits) ∧ h.out = s.hw.out ∧ h.fcu = s.hw.fcu)))

/-- R64, R66, R251, R257, R312: a buffer freed returns one credit unless the pair is fenced; LINK_UP rising returns 32 credits for each VC and starts a handshake on a joined block; its fall and a change of PATH_GEN make what is outstanding on the port re-routed, and the fall ends the session;
and each microsecond renews the VC_CTL allowance of every port. The model's own choices in it: log entry 9. -/
def Obligations.LinkEvents : Prop :=
  ∀ (s : State) (p : Fin 16),
    (∀ v : Fin 4, (s.hw.port p.val).held.get 0 v.val ≠ 0 → s.hw.portFenced p.val = false → CarriesOut (.ingressCreditReturn p v) s fun h =>
      h.out = s.hw.out ++ [.rxCredit p v.val 1] ∧ h.txns = s.hw.txns) ∧
    ((s.hw.port p.val).linkUp = false → CarriesOut (.linkUpRise p) s fun h =>
      h.out = s.hw.out ++ (List.range 4).map (fun v => .rxCredit p v 32) ∧ (h.port p.val).linkUp = true ∧
      (h.port p.val).sess = (if s.hw.joined && s.hw.dom.leaving == [] then .setup else .none) ∧ ∀ q ≠ p.val, h.port q = s.hw.port q) ∧
    ((s.hw.port p.val).linkUp = true → (s.hw.port p.val).used = true → s.hw.dom.leaving = [] → CarriesOut (.linkUpFall p) s fun h =>
      (h.port p.val).linkUp = false ∧ (h.port p.val).sess = .none ∧ h.txns = (s.hw.reroute p.val).txns ∧ ∀ q ≠ p.val, h.port q = s.hw.port q) ∧
    (∀ gen, (s.hw.port p.val).pgen ≠ gen → (s.hw.port p.val).used = true → CarriesOut (.pathGenChange p gen) s fun h =>
      (h.port p.val).pgen = gen ∧ h.txns = (s.hw.reroute p.val).txns ∧ h.rgl = s.hw.rgl ∧ h.out = s.hw.out) ∧
    ((s.hw.port p.val).used = true → (∀ q, (s.hw.port q).waiting = []) → CarriesOut .ctlIngressAllowance s fun h =>
      (h.port p.val).ctlUsed = 0 ∧ h.txns = s.hw.txns ∧ h.out = s.hw.out)

/-- R172, R178, R180, R181, R182: a request of a Transaction Port that is re-routed is issued again with its tag once T_PATH passes, up to three times, and an atomic completes UNCERTAIN instead, with ATOMIC_UNCERTAIN; one that gets no response in T_DEAD, or whose first flit has not left in that
time, completes DEAD_TARGET with the fill pattern. -/
def Claim.LostRequests : Prop :=
  ∀ (s : State) (id : BitVec 32) (t : Txn) (q : Fin 8), s.hw.txn id.toNat = some t → t.src = .utp q →
    (t.stage = .rerouted → t.kind.atomic = false → t.reissues < 3 → CarriesOut (.tPathExpiry id) s fun h =>
      (h.txn id.toNat).map (fun x => (x.id, x.stage, x.reissues)) = some (t.id, .queued, t.reissues + 1) ∧
      (∃ i, h.rgl.items = s.hw.rgl.items ++ [i] ∧ i.work = .txn t.id) ∧ h.fcu = s.hw.fcu) ∧
    (t.stage = .rerouted → t.kind.atomic = true → CarriesOut (.tPathExpiry id) s fun h =>
      Reported s.hw h 230 ∧ (h.txn id.toNat).map (fun x => (x.stage, x.status, x.answer)) = some (.ready, .uncertain, t.blank .uncertain)) ∧
    (t.stage = .rerouted → t.kind.atomic = false → 3 ≤ t.reissues → CarriesOut (.tPathExpiry id) s fun h =>
      Reported s.hw h 229 ∧ (h.txn id.toNat).map (fun x => (x.stage, x.status, x.answer)) = some (.ready, .deadTarget, t.blank .deadTarget)) ∧
    ((t.stage ∈ [.inFlight, .queued, .keyWait, .passed] ∨ (t.stage = .egress ∧ s.hw.firstFlitLeft t = false)) → CarriesOut (.tDeadExpiry id) s fun h =>
      Reported s.hw h 229 ∧ (h.txn id.toNat).map (fun x => (x.stage, x.status, x.answer)) = some (.ready, .deadTarget, t.blank .deadTarget))

/-- R170, R179, R183: a response completes the LINK request of a Transaction Port that it matches: OK with its lines, or DEAD_TARGET for NO_TARGET; one that matches none goes to the Stale Sump, raises nothing and reaches no unit. -/
def Claim.ResponsesComplete : Prop :=
  ∀ (s : State) (p : Fin 16) (m : Message),
    (s.hw.matchTxn m.hdr.txn.toNat = none → CarriesOut (.fabricResponse p m) s fun h =>
      h = s.hw.sump p m false ∧ h.txns = s.hw.txns ∧ h.fcu = s.hw.fcu ∧ h.rgl = s.hw.rgl ∧ h.gkt = s.hw.gkt ∧ h.cis = s.hw.cis ∧ h.out = s.hw.out) ∧
    ∀ t q, s.hw.matchTxn m.hdr.txn.toNat = some t → t.src = .utp q → t.cls = some .link →
      (t.kind = .load → m.hdr.status ≠ 2 → CarriesOut (.fabricResponse p m) s fun h =>
        (h.txn t.id).map (fun x => (x.stage, x.status, x.answer)) = some (.ready, .ok, answerLines m t.lines) ∧ h.out = s.hw.out ∧ h.fcu = s.hw.fcu) ∧
      (t.kind.atomic = true → m.hdr.status ≠ 2 → CarriesOut (.fabricResponse p m) s fun h =>
        (h.txn t.id).map (fun x => (x.stage, x.status, x.answer)) = some (.ready, .ok, [t.oldValue m]) ∧ h.fcu = s.hw.fcu) ∧
      (m.hdr.status = 2 → CarriesOut (.fabricResponse p m) s fun h =>
        Reported s.hw h 229 ∧ (h.txn t.id).map (fun x => (x.stage, x.status, x.answer)) = some (.ready, .deadTarget, t.blank .deadTarget))

/-- R170, R178 to R183: how a LINK request ends, answered or lost. The model's own choices in it: log entries 4 and 9. -/
def Obligations.TransactionsEnd : Prop := Claim.LostRequests ∧ Claim.ResponsesComplete

/-- R160, R161, R162: the handshake of a link session on a joined block whose link is up: SESS_INIT leaves in fragments of 208 bytes under a fresh ephemeral key; a peer that verifies is answered SESS_FIN; the right HMAC brings the session up; and every failure raises
LINK_SESS_FAIL and starts again. -/
def Claim.Handshake : Prop :=
  ∀ (s : State) (p : Fin 16), s.hw.handshaking p.val = true →
    (∀ k, (s.hw.port p.val).eph = none → s.hw.drbgReady = true → s.hw.freeTransient = some k → CarriesOut (.sessInit p) s fun h =>
      (h.port p.val).eph = some k ∧ h.rgl.items.length = s.hw.rgl.items.length + ((h.port p.val).talk.length + 207) / 208 ∧ h.fcu = s.hw.fcu) ∧
    (∀ k ecdh text chain signature key ident, (s.hw.port p.val).eph = some k → (s.hw.port p.val).finSent = false →
      Config.chainSubject (match s.hw.dom.policy with | some q => q.fabricRoot | none => 0) chain = some (key, ident) →
      (Config.verify key (beBytes (Config.sha384 ((s.hw.port p.val).talk ++ ecdh ++ text ++ chain)).toNat 48) signature = true →
        CarriesOut (.sessResp p ecdh text chain signature) s fun h =>
          (h.port p.val).finSent = true ∧ (h.port p.val).peer = BitVec.ofNat 16 (ofBytes ident) ∧ h.fcu = s.hw.fcu) ∧
      (Config.verify key (beBytes (Config.sha384 ((s.hw.port p.val).talk ++ ecdh ++ text ++ chain)).toNat 48) signature = false →
        CarriesOut (.sessResp p ecdh text chain signature) s fun h => Reported s.hw h (112 + p.val) ∧ (h.port p.val).sess = .setup)) ∧
    (∀ mac, (s.hw.port p.val).finSent = true →
      let x := s.hw.port p.val
      let good := beBytes (Config.hmac384 (finishKey x.secret x.talk) x.talk).toNat 48
      (mac = good → CarriesOut (.sessDone p mac) s fun h => (h.port p.val).sess = .up ∧ (h.port p.val).eph = none ∧ h.fcu = s.hw.fcu) ∧
      (mac ≠ good → CarriesOut (.sessDone p mac) s fun h => Reported s.hw h (112 + p.val) ∧ (h.port p.val).sess = .setup)) ∧
    CarriesOut (.sessHandshakeTimeout p) s fun h => Reported s.hw h (112 + p.val) ∧ (h.port p.val).sess = .setup ∧ (h.port p.val).eph = none

/-- R164, R165: a session at work: when an update is due KEY_UPDATE leaves on each of the four VCs, and none before; a peer's KEY_UPDATE advances its VC's receive generation and starts its sequence at 0, or, within 1 ms of the last, raises LINK_KU_EARLY and ends the session; SESS_END from the peer and a write
of SESS_CTL end it, and the outstanding transactions become re-routed. -/
def Claim.SessionEvents : Prop :=
  ∀ (s : State) (p : Fin 16), (s.hw.port p.val).sess = .up →
    let x := s.hw.port p.val
    (s.hw.updateDue x = false → Becomes (.keyUpdateStart p) s s.hw) ∧
    (s.hw.updateDue x = true → (∀ v, v < 4 → x.txGen.get 0 v = x.curGen.1 ∧ (x.vc v).queue = []) → (∀ i ∈ s.hw.rgl.items, i.port ≠ some p) →
      CarriesOut (.keyUpdateStart p) s fun h => ∃ a b c d, h.rgl.items = s.hw.rgl.items ++ [a, b, c, d] ∧
        [a, b, c, d].map (·.vc) = [0, 1, 2, 3] ∧ ∀ i ∈ [a, b, c, d], i.port = some p ∧ ∃ m, i.work = .message m ∧ m.hdr.op = 0x31) ∧
    (∀ m, (x.lastKu.get 0 m.hdr.vc.toNat = 0 ∨ x.lastKu.get 0 m.hdr.vc.toNat - 1 + 1000000 ≤ s.hw.clk.now) →
      BitVec.ofNat 16 (inlineField m.inlineArea 0 16) = x.rxGen.get 0 m.hdr.vc.toNat + 1 → x.rxGen.get 0 m.hdr.vc.toNat + 1 ≠ 0 →
      CarriesOut (.keyUpdate p m) s fun h => (h.port p.val).rxGen.get 0 m.hdr.vc.toNat = x.rxGen.get 0 m.hdr.vc.toNat + 1 ∧
        (h.port p.val).sess = .up ∧ h.txns = s.hw.txns ∧ h.fcu = s.hw.fcu) ∧
    (∀ m, x.lastKu.get 0 m.hdr.vc.toNat ≠ 0 → s.hw.clk.now < x.lastKu.get 0 m.hdr.vc.toNat - 1 + 1000000 →
      CarriesOut (.keyUpdate p m) s fun h => Reported s.hw h (144 + p.val) ∧ (h.port p.val).sess = .ending) ∧
    (s.hw.dom.leaving = [] → x.used = true → CarriesOut (.sessEnd p) s fun h =>
      (h.port p.val).sess = (if s.hw.joined && x.linkUp then .setup else .none) ∧ h.txns = (s.hw.reroute p.val).txns ∧ h.fcu = s.hw.fcu) ∧
    (∀ v : Word, bit v 0 = true → s.hw.prime.ready = true → CarriesOut (.sessCtlRestart p v) s fun h =>
      (h.port p.val).sess = .ending ∧ h.txns = (s.hw.reroute p.val).txns ∧
      ∃ i, h.rgl.items = s.hw.rgl.items ++ [i] ∧ i.port = some p ∧ ∃ m, i.work = .message m ∧ m.hdr.op = 0x32)

/-- R160 to R168: the session of a Link Port. The model's own choices in it: log entries 1, 4, 5 and 37. -/
def Obligations.LinkSessions : Prop := Claim.Handshake ∧ Claim.SessionEvents

/-- R327: FENCE_REMOTE received. It is applied to an allocated fence with remote_ok and answered OK; for any other fence nothing changes and the answer is REFUSED; a reissue of the last one applied is answered OK and not applied again. -/
def Claim.RemoteFences : Prop :=
  ∀ (s : State) (m : Message),
    let f := inlineField m.inlineArea 0 16
    let key := (m.hdr.src.toNat, m.hdr.txn.toNat)
    let err := if inlineField m.inlineArea 16 8 = 1 then some (CC.ofNum (inlineField m.inlineArea 17 8 % 16)) else none
    ((4096 ≤ f ∨ (s.hw.fence f).allocated = false ∨ bit (s.hw.fence f).cfg 22 = false) →
      Becomes (.fenceRemote m) s (s.hw.sendControl (s.hw.answerMsg m.hdr 0x28 3 3 0 []))) ∧
    (f < 4096 → (s.hw.fence f).allocated = true → bit (s.hw.fence f).cfg 22 = true → (s.hw.fence f).lastRemote = some key →
      Becomes (.fenceRemote m) s (s.hw.sendControl (s.hw.answerMsg m.hdr 0x28 3 0 0 []))) ∧
    (f < 4096 → (s.hw.fence f).allocated = true → bit (s.hw.fence f).cfg 22 = true → (s.hw.fence f).lastRemote ≠ some key →
      Becomes (.fenceRemote m) s
        (((s.hw.setFence f { s.hw.fence f with lastRemote := some key }).fenceSignal f (BitVec.ofNat 64 (inlineField m.inlineArea 8 64)) err m.hdr.src.toNat).sendControl
          (s.hw.answerMsg m.hdr 0x28 3 0 0 [])))

/-- R184, R187, R188: a gateway member. A BULK_PUT whose flits pass their end-to-end check, and a BULK_GET, whose granule its Gate grants in a LINK region become transactions of the gateway; a BULK_PUT is dropped with BULK_AUTH_FAIL for each flit that fails the check; a member
that does not serve changes nothing. -/
def Claim.GatewayServes : Prop :=
  ∀ (s : State) (p : Fin 16) (m : Message),
    let opened := s.hw.bulkOpen (s.hw.serving p.val) m
    (s.hw.gwServes = false → Becomes (.bulkPut p m) s s.hw ∧ Becomes (.bulkGet m) s s.hw) ∧
    (s.hw.gwServes = true → opened.2 ≠ 0 → CarriesOut (.bulkPut p m) s fun h =>
      (∃ l, h.fcu.inflight = s.hw.fcu.inflight ++ l ∧ l.length = opened.2 ∧ ∀ y ∈ l, y.2.source = 232) ∧
      h.txns = s.hw.txns ∧ h.rgl = s.hw.rgl ∧ h.out = s.hw.out) ∧
    (∀ h1 w, s.hw.gwServes = true → opened.2 = 0 → s.hw.gateJudge (s.hw.gwReq m true) 0 = (h1, .none, some w) → w.cls = .link →
      CarriesOut (.bulkPut p m) s fun h => h.gw = h1.gw ++ [⟨h1.newTag, m.hdr⟩] ∧ ∃ t, h.txns = h1.txns ++ [t] ∧ t.id = h1.newTag ∧ t.src = .gateway ∧
        t.kind = .store ∧ t.region = w.region ∧ t.data = (opened.1.map fun l => ⟨l, 0⟩)) ∧
    (∀ h1 w, s.hw.gwServes = true → s.hw.gateJudge (s.hw.gwReq m false) 0 = (h1, .none, some w) → w.cls = .link →
      CarriesOut (.bulkGet m) s fun h => h.gw = h1.gw ++ [⟨h1.newTag, m.hdr⟩] ∧ ∃ t, h.txns = h1.txns ++ [t] ∧ t.id = h1.newTag ∧ t.src = .gateway ∧
        t.kind = .load ∧ t.region = w.region)

/-- R327 and the Gateway: what the block does for another member. The model's own choices in it: log entries 1, 4, 9 and 22. -/
def Obligations.RemoteRequests : Prop := Claim.RemoteFences ∧ Claim.GatewayServes

/-- R62, R270 to R273, R284: how an operation completes. While a write of device memory of its own could still make its code ABORTED it waits, with its outcome kept. Otherwise it has its code, detail, cfe bit and result from
then on; with OK, and no unit's record to write, nothing changes beside but its transfers and accesses, which it leaves, and the counts of R442; MALFORMED makes its queue guilty; and another failure with stop_on_error set
stops the issue of the buffer. The model's own choices in it: log entries 4 and 11. -/
def Obligations.OperationsComplete : Prop :=
  ∀ (h : Hw) (n i : Nat) (o : QOp) (cc : CC) (detail : Nat) (isCfe : Bool) (result : Word), h.op n i = some o → o.ended = false → o.opcode ≠ 4 → o.opcode ≠ 5 →
    let u := h.opComplete n i cc detail isCfe result
    (o.writer = true → h.opWriting n i = true → CC.aborted.rank < cc.rank →
      u = h.modOp n i fun x => { x with fin := some (x.fin.getD (cc, detail, isCfe, result)) }) ∧
    (o.writer = false ∨ h.opWriting n i = false ∨ cc.rank ≤ CC.aborted.rank →
      (u.op n i).map QOp.st = some (.done cc detail isCfe result) ∧
      (cc = .ok → o.opcode ≤ 0x0D → o.opcode ≠ 3 → o.opcode ≠ 6 → o.opcode ≠ 7 → (o.opcode = 1 → o.mark = 0) →
        u = ((((((h.modOp n i fun o => { o with st := .done cc detail isCfe result, txns := [], waits := [] }).incReg Reg.CFE_OPS_CNT).dmOrphan n i).txnsLeft o).tally (16 + o.opcode) 1).tally 32 1)) ∧
      (cc = .malformed → (h.queue n).st = .active → (u.queue n).st = .resetting ∧ ∃ r ∈ u.fcu.inflight, r.2.source = 248) ∧
      (cc ≠ .ok → cc ≠ .malformed → cc ≠ .stateRefused → ∀ b, (h.queue n).run = some b → b.stopOnError = true → ∃ b', (u.queue n).run = some b' ∧ b'.stopped = true ∧
        ∀ x ∈ b'.ops, x.st ≠ .waiting))

/-- R270, R271: CFE_ISSUE issues the next ready operation of the queue whose turn it is, with the next place in the order of issue; one that is illegal in itself completes MALFORMED and makes the queue guilty. A queue with
none ready, or whose turn it is not, is left as it is. -/
def Claim.Issue : Prop :=
  ∀ (s : State) (q : Fin 64),
    (s.hw.readyOp q = none → Becomes (.cfeIssue q) s s.hw) ∧
    (s.hw.nextQueue ≠ some q.val → Becomes (.cfeIssue q) s s.hw) ∧
    (∀ n, s.hw.nextQueue = some n → s.hw.readyOp n ≠ none ∧ ∀ m < 64, s.hw.readyOp m ≠ none → s.hw.sliceAhead (s.hw.queueSlice m) (s.hw.queueSlice n) = false ∨ s.hw.queueSlice m = s.hw.queueSlice n) ∧
    ∀ i o, s.hw.nextQueue = some q.val → s.hw.readyOp q = some i → s.hw.op q i = some o →
      (o.legal i = true → CarriesOut (.cfeIssue q) s fun h =>
        (h.op q i).map (fun x => (x.st, x.seq, x.time)) = some (.issued, s.hw.cfe.nextSeq, s.hw.clk.now) ∧ h.cfe.nextSeq = s.hw.cfe.nextSeq + 1 ∧
        h.txns = s.hw.txns ∧ h.obj = s.hw.obj ∧ (∀ a, a ≠ Reg.CFE_SWITCH_LAST → h.reg a = s.hw.reg a) ∧ h.fcu = s.hw.fcu ∧ h.out = s.hw.out) ∧
      (o.legal i = false → o.opcode ≠ 4 → o.opcode ≠ 5 → CarriesOut (.cfeIssue q) s fun h =>
        (h.op q i).map QOp.st = some (.done .malformed 0 true 0) ∧ (h.queue q).st = .resetting ∧ ∃ r ∈ h.fcu.inflight, r.2.source = 248)

/-- R273, R279: NOP completes OK; EVENT_SET sets an event that the queue's slice owns, and is refused any other; BARRIER completes OK, or, with stop set, ABORTED after a failure, and the rest of the buffer is skipped. -/
def Claim.PlainOperations : Prop :=
  ∀ (s : State) (q : Fin 64) (i : Nat) (o : QOp),
    (s.hw.issuedOp q i 0x00 = some o → Becomes (.nop q i) s (s.hw.opEnd q i .ok .none)) ∧
    (s.hw.issuedOp q i 0x0A = some o → s.hw.ownsEvent (s.hw.queueSlice q) (o.field 4 0 10) = true →
      Becomes (.eventSet q i) s ((s.hw.eventSet (o.field 4 0 10)).opEnd q i .ok .none)) ∧
    (s.hw.issuedOp q i 0x0A = some o → s.hw.ownsEvent (s.hw.queueSlice q) (o.field 4 0 10) = false →
      Becomes (.eventSet q i) s (s.hw.opEnd q i .stateRefused .notOwned)) ∧
    ∀ b, (s.hw.queue q).run = some b → s.hw.issuedOp q i 0x0B = some o →
      ((o.field 4 0 1 = 0 ∨ ∀ d ∈ b.ops.take i, d.doneCode = some .ok) → Becomes (.barrier q i) s (s.hw.opEnd q i .ok .none)) ∧
      (o.field 4 0 1 = 1 → (∃ d ∈ b.ops.take i, d.doneCode ≠ some .ok) →
        Becomes (.barrier q i) s ((s.hw.opEnd q i .aborted .stopped).skipRest q))

/-- R276, R277, R278, R323, R326: FENCE_SIGNAL waits for its covered writes, then signals a local fence that its slice may signal, or sends FENCE_REMOTE; FENCE_WAIT completes with the fence's value as its result once it is satisfied, waits until then, and completes TIMEOUT when its time has passed. -/
def Claim.FenceOperations : Prop :=
  ∀ (s : State) (q : Fin 64) (i : Nat) (o : QOp),
    (s.hw.issuedOp q i 8 = some o →
      let still := o.waits.filter fun t => t ∈ s.hw.openWrites (s.hw.queueSlice q)
      let f := o.field 4 0 12
      let err := s.hw.signalStatus q i o
      (still ≠ [] → Becomes (.fenceSignal q i) s (s.hw.modOp q i fun x => { x with waits := still })) ∧
      (still = [] → o.field 16 0 1 = 0 → (s.hw.fence f).maySignal (s.hw.queueSlice q) = true → Becomes (.fenceSignal q i) s
        ((s.hw.fenceSignal f (BitVec.ofNat 64 (o.field 8 0 64)) err s.hw.memberId).opEnd q i (err.getD .ok) .none)) ∧
      (still = [] → o.field 16 0 1 = 0 → (s.hw.fence f).maySignal (s.hw.queueSlice q) = false →
        Becomes (.fenceSignal q i) s (s.hw.opEnd q i .stateRefused .notOwned)) ∧
      (still = [] → o.field 16 0 1 = 1 → CarriesOut (.fenceSignal q i) s fun h =>
        (h.op q i).map (fun x => (x.started, x.txns, x.code)) = some (true, [s.hw.newTag], err.getD .ok) ∧
        (∃ w, h.rgl.items = s.hw.rgl.items ++ [w] ∧ w.work = .message (s.hw.fenceRemoteMsg (o.field 6 0 16) f (BitVec.ofNat 64 (o.field 8 0 64)) err s.hw.newTag)) ∧
        h.obj = s.hw.obj ∧ h.fcu = s.hw.fcu)) ∧
    (s.hw.op q i = some o → o.opcode = 9 →
      let f := s.hw.fence (o.field 4 0 12)
      let v := BitVec.ofNat 64 (o.field 8 0 64)
      (∀ cc r, o.st = .satisfied cc r → Becomes (.fenceWait q i) s (s.hw.opComplete q i cc 0 true r)) ∧
      (o.st = .issued → o.started = false → f.mayWait (s.hw.queueSlice q) = false → Becomes (.fenceWait q i) s (s.hw.opEnd q i .stateRefused .notOwned)) ∧
      (o.st = .issued → o.started = false → f.mayWait (s.hw.queueSlice q) = true → f.satisfies v = true →
        Becomes (.fenceWait q i) s (s.hw.opComplete q i f.waitCode 0 true (BitVec.ofNat 32 f.value.toNat))) ∧
      (o.st = .issued → o.started = false → f.mayWait (s.hw.queueSlice q) = true → f.satisfies v = false →
        Becomes (.fenceWait q i) s (s.hw.modOp q i fun x => { x with started := true })) ∧
      (o.st = .issued → o.started = true → o.field 20 0 32 ≠ 0 →
        Becomes (.fenceWaitTimeout q i) s (s.hw.opComplete q i .timeout 0 true (BitVec.ofNat 32 f.value.toNat))))

/-- The CFE's own operations, from issue to completion. The model's own choices in it: log entries 1, 4, 9 and 11. -/
def Obligations.FrontEndOperations : Prop := Claim.Issue ∧ Claim.PlainOperations ∧ Claim.FenceOperations

/-- R262, R263, R265: a doorbell. A queue that is OFF or HALTED takes none; one of the other path is counted as foreign; one beyond the ring makes the queue guilty; one behind the tail is counted as backward; any other sets the tail, and wakes an IDLE queue. The model's own choices in it: log entry 4. -/
def Obligations.Doorbells : Prop :=
  ∀ (s : State) (n : Fin 64) (path : BellPath) (t : Word), (path = .host → s.hw.prime.ready = true) →
    let q := s.hw.queue n
    let ahead := (t.toNat + 2 ^ 32 - q.fetch) % 2 ^ 32
    let old := (q.tail + 2 ^ 32 - q.fetch) % 2 ^ 32
    ((q.st = .off ∨ q.st = .halted) → CarriesOut (.queueDoorbell n path t) s fun h => h.cfe = s.hw.cfe ∧ h.fcu = s.hw.fcu ∧ h.txns = s.hw.txns) ∧
    (q.st ≠ .off → q.st ≠ .halted →
      ((path == .device) ≠ s.hw.regBit (Reg.QRING_Qn_CTL n) 1 → CarriesOut (.queueDoorbell n path t) s fun h =>
        h.queue n = { q with foreign := min (q.foreign + 1) 15 } ∧ (∀ m ≠ n.val, h.queue m = s.hw.queue m) ∧ h.fcu = s.hw.fcu) ∧
      ((path == .device) = s.hw.regBit (Reg.QRING_Qn_CTL n) 1 →
        (2 ^ s.hw.ringLog2 n < ahead → q.st ≠ .resetting → CarriesOut (.queueDoorbell n path t) s fun h =>
          (h.queue n).st = .resetting ∧ (h.queue n).tail = q.tail ∧ ∃ r ∈ h.fcu.inflight, r.2.source = 248) ∧
        (ahead ≤ 2 ^ s.hw.ringLog2 n → ahead < old → CarriesOut (.queueDoorbell n path t) s fun h =>
          h.queue n = { q with backward := min (q.backward + 1) 15 } ∧ (∀ m ≠ n.val, h.queue m = s.hw.queue m) ∧ h.fcu = s.hw.fcu) ∧
        (ahead ≤ 2 ^ s.hw.ringLog2 n → old ≤ ahead → CarriesOut (.queueDoorbell n path t) s fun h =>
          (h.queue n).tail = t.toNat ∧ (∀ m ≠ n.val, h.queue m = s.hw.queue m) ∧
          (q.st ≠ .idle → h.queue n = { q with tail := t.toNat, pending := true } ∧ h.fcu = s.hw.fcu) ∧
          (q.st = .idle → q.pre = none → h.queue n = { q with tail := t.toNat, pending := false, st := .active } ∧ h.fcu = s.hw.fcu))))

/-- R264, R266, R269, R287, R288: the fetcher. After IDLE_ARMED it goes on if the tail has moved or PENDING was set, and the queue goes IDLE otherwise; it takes the entry at fetch, whose buffer starts where R269 finds no fault with it
and makes the queue guilty where it does; and it preloads the next one while a buffer runs, of which nothing of R269 shows before it starts. The model's own choices in it: log entries 4 and 9. -/
def Obligations.Fetcher : Prop :=
  ∀ (s : State) (n : Fin 64), (s.hw.queue n).st = .active →
    let q := s.hw.queue n
    (q.idleArmed = true →
      (q.tail ≠ q.fetch ∨ q.pending = true → CarriesOut (.fetcherIdleCheck n) s fun h => h.queue n = { q with idleArmed := false, pending := false } ∧ h.regs = s.hw.regs ∧ h.out = s.hw.out) ∧
      (q.tail = q.fetch → q.pending = false → q.run = none → CarriesOut (.fetcherIdleCheck n) s fun h =>
        h.queue n = { q with idleArmed := false, st := .idle, out := none } ∧ h.regs = s.hw.regs ∧ h.out = s.hw.out)) ∧
    ∀ entry bind wins ops walk u b, s.hw.readEntry n q.fetch entry bind wins ops walk = (u, b) → q.fetch ≠ q.tail → q.pre = none →
      (q.run = none → b.fault = none → b.wellFormed = true → b.bind.all (fun k => s.hw.ownsSlot (s.hw.queueSlice n) k) = true →
        CarriesOut (.ringEntryFetch n entry bind wins ops walk) s fun h =>
          (∃ b', (h.queue n).run = some b' ∧ b'.entry = entry ∧ b'.count = q.fetch ∧ b'.ops = b.ops ∧ b'.stopped = false ∧
            (b'.bind, b'.wins) = (if b.field 80 1 = 1 then q.ctx else (b.bind, b.wins.filter fun r => s.hw.listedRegion (s.hw.queueSlice n) r))) ∧
          (h.queue n).st = .active ∧ (h.queue n).fetch = (q.fetch + 1) % 2 ^ 32 ∧ (h.queue n).head = q.head ∧ (h.queue n).tail = q.tail ∧ h.txns = s.hw.txns) ∧
      (q.run = none → (b.fault.isSome = true ∨ b.wellFormed = false ∨ b.bind.all (fun k => s.hw.ownsSlot (s.hw.queueSlice n) k) = false) →
        CarriesOut (.ringEntryFetch n entry bind wins ops walk) s fun h => (h.queue n).st = .resetting ∧ ∃ r ∈ h.fcu.inflight, r.2.source = 248) ∧
      (q.run ≠ none → s.hw.regBit (Reg.QRING_Qn_CTL n) 4 = true → CarriesOut (.preload n entry bind wins ops walk) s fun h =>
        (h.queue n).pre = some { b with pre := true } ∧ (h.queue n).fetch = (q.fetch + 1) % 2 ^ 32 ∧ (h.queue n).run = q.run ∧ (h.queue n).st = .active ∧ h.txns = s.hw.txns)

/-- R268, R284, R285, R286, R289: a buffer whose operations have all completed writes first its status entries and then its record; with no write of it outstanding after that, head advances by one and the buffer is gone. A running one
over its limit makes the queue guilty; the end of a queue's reset leaves it QUARANTINED with its slice, STOPPED where reset_stop asks for it, and otherwise as its work stands; and QRESET resets a queue that works. The model's own choices in it: log entries 4 and 9. -/
def Obligations.BuffersEnd : Prop :=
  ∀ (s : State) (n : Fin 64),
    let q := s.hw.queue n
    (∀ b drain, q.run = some b → q.st = .active → b.stage = 0 → b.ops.all QOp.ended = true → s.hw.statusOpen n = false →
      let out := some ((b.bind.filter fun k => (s.hw.slot k).live).length, drain)
      let begun := { s.hw with cfe.queues := s.hw.cfe.queues.put Queue.off n { q with out := out, run := some { b with stage := 1 } } }
      let last := begun.recordWrite n { b with stage := 1 }
      (b.field 83 1 = 0 → Becomes (.bufferComplete n drain) s last) ∧
      (b.field 83 1 = 1 → (begun.dmWrite (.status n) (some n) 0 (b.field 128 52) (b.ops.flatMap QOp.statusBytes)).statusOpen n = true →
        Becomes (.bufferComplete n drain) s (begun.dmWrite (.status n) (some n) 0 (b.field 128 52) (b.ops.flatMap QOp.statusBytes)))) ∧
    (∀ b, q.run = some b → q.st = .active → b.stage = 2 → s.hw.statusOpen n = false → q.pre = none →
      ((s.hw.bufStep n).queue n).head = (b.count + 1) % 2 ^ 32 ∧ ((s.hw.bufStep n).queue n).run = none ∧ ((s.hw.bufStep n).queue n).st = .active ∧
      ((s.hw.bufStep n).queue n).idleArmed = (q.fetch == q.tail) ∧ (s.hw.bufStep n).out = s.hw.out) ∧
    (∀ b t i o, q.run = some b → q.st = .active → b.first = some t → (b.ops.findIdx? fun o => !o.ended) = some i → b.ops[i]? = some o → s.hw.regF (Reg.QRING_Qn_LIMIT n) 0 16 ≠ 0 →
      CarriesOut (.bufLimit n) s fun h => (h.queue n).st = .resetting ∧
        (h.op n i).map QOp.st = some (.done .timeout 0 true (if o.opcode = 9 then s.hw.waitValue o else 0)) ∧ ∃ r ∈ h.fcu.inflight, r.2.source = 248) ∧
    (q.st = .resetting → q.run = none → q.pre = none → CarriesOut (.queueResetEnd n) s fun h =>
      (h.queue n).st = (if (s.hw.slice (s.hw.queueSlice n)).quar then .quarantined else if s.hw.regBit (Reg.QRING_Qn_CTL n) 5 then .stopped
        else if q.tail ≠ q.fetch ∨ q.pending = true then .active else .idle) ∧
      (h.queue n).head = q.head ∧ (h.queue n).tail = q.tail ∧ (h.queue n).fetch = q.fetch ∧ h.txns = s.hw.txns ∧ h.fcu = s.hw.fcu ∧ h.out = s.hw.out) ∧
    (∀ v : Word, s.hw.prime.ready = true → bit v 31 = true → fld v 0 6 = n.val → (q.st = .active ∨ q.st = .idle ∨ q.st = .quarantined) →
      CarriesOut (.qreset v) s fun h => (h.queue n).st = .resetting ∧ ∃ r ∈ h.fcu.inflight, r.2.source = 248)

/-- R122, R260, R262: a write of Qn_CTL enables a queue that is OFF, which goes IDLE, or QUARANTINED with its slice; turns an IDLE or STOPPED one OFF; resumes a STOPPED one, which goes ACTIVE where work waits and IDLE
otherwise; and one that would change a fixed field outside OFF changes no queue. -/
def Claim.QueueControl : Prop :=
  ∀ (s : State) (n : Fin 64) (v : Word), s.hw.prime.ready = true →
    let q := s.hw.queue n
    let fixed := s.hw.reg (Reg.QRING_Qn_CTL n) &&& ctlFixed = v &&& ctlFixed
    (q.st = .off → bit v 0 = true → bit v 6 = false → CarriesOut (.queueEnable n v) s fun h =>
      (h.queue n).st = (if (s.hw.slice (h.queueSlice n)).quar then .quarantined else .idle) ∧ (h.queue n).run = none ∧ (h.queue n).pending = false ∧
      h.regBit (Reg.QRING_Qn_CTL n) 0 = true ∧ (∀ m ≠ n.val, h.queue m = s.hw.queue m) ∧ h.out = s.hw.out ++ [.regAnswer 0 0]) ∧
    (fixed → (q.st = .idle ∨ q.st = .stopped) → bit v 0 = false → bit v 6 = false → CarriesOut (.queueEnable n v) s fun h =>
      h.cfe.queues = s.hw.cfe.queues.put Queue.off n { q with st := .off }) ∧
    (¬ fixed → q.st ≠ .off → CarriesOut (.queueEnable n v) s fun h => h.cfe = s.hw.cfe ∧ h.out = s.hw.out ++ [.regAnswer 0 0]) ∧
    (fixed → q.st = .stopped → bit v 0 = true → bit v 6 = true → q.pre = none → (s.hw.slice (s.hw.queueSlice n)).quar = false → CarriesOut (.queueResume n v) s fun h =>
      let work := decide (q.tail ≠ q.fetch ∨ q.pending = true)
      h.queue n = { q with st := if work then .active else .idle, pending := false, idleArmed := work && q.fetch == q.tail } ∧
      ∀ m ≠ n.val, h.queue m = s.hw.queue m)

/-- R293: BTT_INV drops the entries of the pages it names, or all; busy holds while an access through one of them is outstanding, and its end sets the interrupt bit. -/
def Claim.BttInvalidation : Prop :=
  (∀ (s : State) (v : Word), s.hw.prime.ready = true → CarriesOut (.bttInv v) s fun h =>
    let named := fun p => bit v 31 = true ∨ (fld v 0 26 ≤ p ∧ p < fld v 0 26 + max (s.hw.regF Reg.CFE_BTT_INV_LEN 0 26) 1)
    (∀ e, e ∈ h.cfe.btt ↔ e ∈ s.hw.cfe.btt ∧ ¬ named e.1) ∧
    h.cfe.bttInv = true ∧ (∀ t ∈ s.hw.dmp.open_, ∀ p, t.page = some p → named p → { t with stale := true } ∈ h.dmp.open_) ∧
    h.cfe.queues = s.hw.cfe.queues ∧ h.regs = s.hw.regs) ∧
  ∀ s : State, s.hw.cfe.bttInv = true →
    ((∀ t ∈ s.hw.dmp.open_, t.stale = true → t.use = .btt) → Becomes .bttInvDone s ({ s.hw with cfe.bttInv := false }.setIrq 0x0D 2)) ∧
    ((∃ t ∈ s.hw.dmp.open_, t.stale = true ∧ t.use ≠ .btt) → Becomes .bttInvDone s s.hw)

/-- Queue control and the translation cache. The model's own choices in it: log entries 1, 9 and 48. -/
def Obligations.QueueControl : Prop := Claim.QueueControl ∧ Claim.BttInvalidation

/-- R127, R185, R186: SEAL_COPY and BULK_MOVE complete MALFORMED on illegal operands; BULK_MOVE is refused for a rack that cannot be reached; otherwise the operation is taken up, with every line still to go. Its next transfer, once the Gate has granted its granule and its device memory is translated, becomes a transaction. The model's own choices in it: log entries 8, 16 and 17. -/
def Obligations.TransferOperations : Prop :=
  ∀ (s : State) (q : Fin 64) (i : Nat) (o : QOp),
    (s.hw.issuedOp q i 1 = some o →
      (o.copyOk = false → Becomes (.sealCopy q i) s (s.hw.opEnd q i .malformed .none)) ∧
      (o.copyOk = true → Becomes (.sealCopy q i) s (s.hw.modOp q i fun x => { x with started := true, total := o.field 24 0 24, next := 0 }))) ∧
    (s.hw.issuedOp q i 2 = some o →
      (o.bulkOk = false → Becomes (.bulkMove q i) s (s.hw.opEnd q i .malformed .none)) ∧
      (o.bulkOk = true → (s.hw.rackUnreachable o.rack || s.hw.bulk.stop) = true → Becomes (.bulkMove q i) s (s.hw.opEnd q i .stateRefused .none)) ∧
      (o.bulkOk = true → (s.hw.rackUnreachable o.rack || s.hw.bulk.stop) = false →
        Becomes (.bulkMove q i) s (s.hw.modOp q i fun x => { x with started := true, total := o.field 24 0 24, next := 0 }))) ∧
    ∀ (data : List Line) (code : BitVec 2) (walk : BttWalk) (h1 h2 : Hw) (w : Option Window),
      s.hw.op q i = some o → o.st = .issued → o.started = true → o.aborting = false → o.next < o.total →
      let addr := o.poolAddr + 64 * o.next
      let room := o.room addr
      (o.opcode = 1 → o.field 4 0 1 = 1 → o.field 4 1 1 = 0 → s.hw.presentGranule q i .copyOut addr room 0 = (h1, some w) →
        h1.opAccess q i (o.devAddr + 64 * o.next) (64 * room) true walk = (h2, true) → CarriesOut (.cfeTransferPresent q i data code walk) s fun h =>
          ∃ t : Txn, h = (h2.issueTransfer q i t room).advance t.id ∧ t.kind = .copyOut ∧ t.src = .cfe q i ∧ t.lines = room ∧
            t.addr = BitVec.ofNat 46 addr ∧ t.slice = h2.queueSlice q ∧ t.stage = .keyWait) ∧
      (o.opcode = 2 → o.field 4 0 1 = 0 → o.txns.length < 32 → s.hw.presentGranule q i .bulk (o.rack * 2 ^ 46 + addr) room 0 = (h1, some w) →
        h1.opAccess q i (o.devAddr + 64 * o.next) (64 * room) false walk = (h2, true) → CarriesOut (.cfeTransferPresent q i data code walk) s fun h =>
          h.bulk.seq = h2.bulk.seq + (room + 3) / 4 ∧
          (∃ x, h.rgl.items = h2.rgl.items ++ [x] ∧ x.work = .txn h2.newTag ∧ x.bytes = 64 * room) ∧
          ∃ t, h.txns = h2.txns ++ [t] ∧ t.id = h2.newTag ∧ t.kind = .bulk ∧ t.arg = o.rack ∧ t.lines = room ∧ t.data.length = room)

/-- R375, R372, R365, R159: KEY_OP on a slot that the queue's buffer binds and its slice owns. FAMILY_OPEN derives a family key into a free slice slot, and is refused for a family open already, retired, or with no slot left; KEY_ERASE frees a slot that no SEAL region needs; RETIRE_EPOCH raises the family's floor; CERTIFY writes the certificate that fits. Any of them waits while the SCU is not ready, and under DETERMINISTIC a FAMILY_OPEN waits for a quiet window (R311). -/
def Claim.KeyOperations : Prop :=
  ∀ (s : State) (q : Fin 64) (i : Nat) (o : QOp),
    (∀ walk, s.hw.scuReady = false → Becomes (.familyOpen q i) s s.hw ∧ Becomes (.keyErase q i) s s.hw ∧ Becomes (.retireEpoch q i) s s.hw ∧ Becomes (.certify q i walk) s s.hw) ∧
    (s.hw.backgroundNow = false → Becomes (.familyOpen q i) s s.hw) ∧
    (s.hw.keyOp q i 0 = some o → s.hw.scuReady = true → s.hw.backgroundNow = true →
      let f := o.field 8 0 16
      (s.hw.joined = false → Becomes (.familyOpen q i) s (s.hw.keyOpEnd q i 0 1 0)) ∧
      (s.hw.joined = true → (s.hw.familySlot f).isSome = true → Becomes (.familyOpen q i) s (s.hw.keyOpEnd q i 0 2 0)) ∧
      (s.hw.joined = true → s.hw.familySlot f = none → s.hw.familyRetired f = true → Becomes (.familyOpen q i) s (s.hw.keyOpEnd q i 0 6 0)) ∧
      (s.hw.joined = true → s.hw.familySlot f = none → s.hw.familyRetired f = false → s.hw.freeSliceSlot = none →
        Becomes (.familyOpen q i) s (s.hw.keyOpEnd q i 0 3 0)) ∧
      (∀ k, s.hw.joined = true → s.hw.familySlot f = none → s.hw.familyRetired f = false → s.hw.freeSliceSlot = some k → s.hw.opWriting q i = false → CarriesOut (.familyOpen q i) s fun h =>
        (h.slot k).st = 1 ∧ (h.slot k).key = kdfKey (keyBytes (s.hw.slot 10).key) "SIRVIS FAMILY" (beBytes f 2) ∧ (h.slot k).family = f ∧
        (h.slot k).owner = s.hw.queueSlice q ∧ (h.slot k).usage = 0x41 ∧ (∀ j ≠ k, h.slot j = s.hw.slot j) ∧
        (h.op q i).map QOp.st = some (.done .ok 0 false (BitVec.ofNat 32 k)))) ∧
    (∀ k, s.hw.keyOp q i 1 = some o → s.hw.scuReady = true → s.hw.bound q o = some k →
      (s.hw.ownsSlot (s.hw.queueSlice q) k = false → Becomes (.keyErase q i) s (s.hw.keyOpEnd q i 1 4 0)) ∧
      (s.hw.ownsSlot (s.hw.queueSlice q) k = true → (s.hw.slot k).usage = 0x41 → s.hw.familyInUse (s.hw.slot k).family = true →
        Becomes (.keyErase q i) s (s.hw.keyOpEnd q i 1 5 0)) ∧
      (s.hw.ownsSlot (s.hw.queueSlice q) k = true → (s.hw.slot k).usage ≠ 0x41 → s.hw.opWriting q i = false → CarriesOut (.keyErase q i) s fun h =>
        h.cis.slots = s.hw.cis.slots.put Slot.free k Slot.free ∧ (h.op q i).map QOp.st = some (.done .ok 0 false 0))) ∧
    (∀ k, s.hw.keyOp q i 2 = some o → s.hw.scuReady = true → s.hw.bound q o = some k → s.hw.ownsSlot (s.hw.queueSlice q) k = true → (s.hw.slot k).usage = 0x41 →
      s.hw.liveBelow (s.hw.slot k).family (o.field 8 0 16) = false → s.hw.opWriting q i = false → CarriesOut (.retireEpoch q i) s fun h =>
        h.cis.floors = s.hw.cis.floors.put 0 (s.hw.slot k).family (max (o.field 8 0 16) (s.hw.familyFloor (s.hw.slot k).family)) ∧
        (∀ x ∈ h.cis.sets, x.family = (s.hw.slot k).family → o.field 8 0 16 ≤ x.epoch) ∧ (h.op q i).map QOp.st = some (.done .ok 0 false 0)) ∧
    ∀ k walk h1, s.hw.keyOp q i 3 = some o → s.hw.scuReady = true → s.hw.bound q o = some k → s.hw.ownsSlot (s.hw.queueSlice q) k = true →
      let payload := (s.hw.certFields k).flatMap fun v => beBytes v 8
      let bytes := Config.keyCert (s.hw.certFields k) (s.hw.signEc 6 payload) (s.hw.signMl payload)
      (o.field 16 0 16 < bytes.length → Becomes (.certify q i walk) s (s.hw.keyOpEnd q i 3 7 0)) ∧
      (bytes.length ≤ o.field 16 0 16 → s.hw.opAccess q i (o.field 8 0 52) bytes.length true walk = (h1, true) → CarriesOut (.certify q i walk) s fun h =>
        h = (h1.dmWrite (.op q i) (some q.val) 0 (o.field 8 0 52) bytes).keyOpEnd q i 3 0 bytes.length ∧ h.cis.slots = s.hw.cis.slots)

/-- R280, R404: MEASURE extends the measurement register with what the range holds; it is refused while the block is not joined or the register belongs to another slice or kind. Its result is the bytes measured. R374: an operation that has waited 1 ms for the DRBG is refused. -/
def Claim.MeasureAndRandomWait : Prop :=
  ∀ (s : State) (q : Fin 64) (i : Nat) (o : QOp),
    (∀ data walk h1, s.hw.measureOp q i = some o → s.hw.scuUp = true → s.hw.measureBehind q i (o.field 4 0 4) = false →
      let m := s.hw.scu.meas.get MeasReg.empty (o.field 4 0 4)
      (s.hw.joined = false → Becomes (.measure q i data walk) s (s.hw.opEnd q i .stateRefused .none)) ∧
      (s.hw.joined = true → m.used = true → (m.owner ≠ s.hw.queueSlice q ∨ m.kind ≠ o.field 5 0 1) → Becomes (.measure q i data walk) s (s.hw.opEnd q i .stateRefused .none)) ∧
      (s.hw.joined = true → (m.used = true → m.owner = s.hw.queueSlice q ∧ m.kind = o.field 5 0 1) → m.data.length < 2 ^ 64 - 1 → data.length = o.field 16 0 40 →
        s.hw.opAccess q i (o.field 8 0 52) (o.field 16 0 40) false walk = (h1, true) → CarriesOut (.measure q i data walk) s fun h =>
          h.scu.meas.get MeasReg.empty (o.field 4 0 4) = ⟨true, o.field 5 0 1, s.hw.queueSlice q, m.data ++ data⟩ ∧
          (∀ k ≠ o.field 4 0 4, h.scu.meas.get MeasReg.empty k = s.hw.scu.meas.get MeasReg.empty k) ∧
          (h.op q i).map QOp.st = some (.done .ok 0 true (BitVec.ofNat 32 (min (o.field 16 0 40) 0xFFFFFFFF))) ∧ h.cis = s.hw.cis)) ∧
    (s.hw.op q i = some o → o.st = .issued → s.hw.drbgReady = false → o.drbgUser = true →
      (o.opcode = 0x0D → Becomes (.drbgWaitTimeout q i) s (s.hw.keyOpEnd q i (o.field 4 0 8) 8 0)) ∧
      (o.opcode ≠ 0x0D → Becomes (.drbgWaitTimeout q i) s (s.hw.opEnd q i .stateRefused .rng)))

/-- R144, R156, R158: REKEY_START of an ACTIVE SEAL region reads the entries of the granules of the range that this member homes, opens a round over those that are usable and puts the range into the work list; a full list, a granule on its way or one at epoch 65,535 refuses it. REKEY_ABORT parks the QUEUED granules of its range at once, and completes where the sweep is not in it. -/
def Claim.RekeyCommands : Prop :=
  ∀ (s : State) (q : Fin 64) (i : Nat) (o : QOp) (e : Region), s.hw.admin q = true → s.hw.sealRegion (o.field 4 0 16) = some e →
    o.field 8 0 25 + o.field 12 0 26 ≤ e.size →
    let first := e.base + o.field 8 0 25
    let homed := s.hw.homedIn first (o.field 12 0 26)
    (∀ reads walk h1 es, s.hw.issuedOp q i 6 = some o → o.rekeyOk false = true → s.hw.readEntries homed reads walk = (h1, es) →
      (8 ≤ s.hw.pump.ranges.length → Becomes (.rekeyStart q i reads walk) s ((s.hw.pumpLast false 2 0).opUnitEnd q i .stateRefused 2)) ∧
      (s.hw.pump.ranges.length < 8 → (∃ x ∈ es, x.2.moving = true) →
        Becomes (.rekeyStart q i reads walk) s ((h1.pumpLast false 3 0).opUnitEnd q i .stateRefused 3)) ∧
      (s.hw.pump.ranges.length < 8 → (∀ x ∈ es, x.2.moving = false) → (∃ x ∈ es, x.2.pstate = 0 ∧ x.2.epoch = 65535) →
        Becomes (.rekeyStart q i reads walk) s ((h1.pumpLast false 4 0).opUnitEnd q i .stateRefused 4)) ∧
      (s.hw.pump.ranges.length < 8 → es ≠ [] → (∀ x ∈ es, x.2.moving = false ∧ ¬ (x.2.pstate = 0 ∧ x.2.epoch = 65535)) →
        CarriesOut (.rekeyStart q i reads walk) s fun h =>
          (h.op q i).map (fun x => (x.st, x.started)) = some (.issued, true) ∧
          (∃ r, h.pump.ranges = s.hw.pump.ranges ++ [r] ∧ r.granules = es.map (·.1) ∧ r.region = o.field 4 0 16 ∧ r.first = first ∧ r.count = o.field 12 0 26) ∧
          (∃ r, h.gkt.rounds = s.hw.gkt.rounds ++ [r] ∧ r.granules = es.map (·.1) ∧ r.seq = (s.hw.gkt.openSeq + 1) % 65536 ∧ r.sends = 1 ∧ r.cmd = some (q.val, i)) ∧
          (∃ w ∈ h.rgl.items, w.master = 12 ∧ ∃ m, w.work = .message m ∧ m.hdr.op = 0x22) ∧ h.txns = s.hw.txns)) ∧
    (s.hw.issuedOp q i 7 = some o → o.rekeyOk true = true →
      ((∀ g ∈ homed, s.hw.granuleState g ≠ 2 ∧ s.hw.granuleState g ≠ 3) → Becomes (.rekeyAbort q i) s ((s.hw.pumpLast true 5 0).opUnitEnd q i .stateRefused 5)) ∧
      ((∃ g ∈ homed, s.hw.granuleState g = 2) → s.hw.pump.wet = none → Becomes (.rekeyAbort q i) s
        ((((s.hw.abortGranules fun g => inRange g first (o.field 12 0 26)).pumpLast true 0 0).opUnitEnd q i .ok 0).settleRanges)))

/-- R144, R156 to R159, R280, R365, R372 to R375, R404: the commands of keys and measurements. The model's own choices in it: log entries 1, 5 and 43. -/
def Obligations.Keys : Prop := Claim.KeyOperations ∧ Claim.MeasureAndRandomWait ∧ Claim.RekeyCommands

/-- R20, R89, R97, R100, R282: CREATE that nothing refuses leaves an ACTIVE region at the lowest free index with the fields it names, and drops every negative entry, once its table writes have succeeded (R475); a refused one changes no table. -/
def Claim.RegionCreated : Prop :=
  ∀ (s : State) (q : Fin 64) (i : Nat) (o : QOp) (c : RClass), s.hw.admin q = true → s.hw.regionTurn q i 0 = some o → RClass.ofNum (o.field 5 0 2) = some c →
    let base := o.field 8 0 25
    let size := o.field 12 0 26
    let begun := s.hw.modOp q i fun x => { x with started := true }
    (∀ walk errs h1 k, s.hw.createRefusal o c = none →
      let maps := (begun.freeMaps (begun.mapsNeeded base size)).getD []
      let r : Region :=
        { cls := c, state := .creating, lqFull := o.field 5 2 1 == 1, lanes2 := o.field 5 3 1 == 1, probeOk := o.field 5 4 1 == 1
          gen := s.hw.regions.gens.get 0 s.hw.freeIndex % 65536, base := base, size := size
          fill := if o.field 5 5 1 = 1 then s.hw.policyFill else BitVec.ofNat 32 (o.field 16 0 32)
          family := o.field 20 0 16, shares := if o.field 24 0 4 = 0 then [] else [(0, o.field 22 0 10, BitVec.ofNat 4 (o.field 24 0 4))] }
      (begun.takeMaps (begun.mapGibs base size) maps).tableWrites
          (.entry s.hw.freeIndex (some r) :: begun.placeWrites s.hw.freeIndex base size (gibsOf base size) maps ++ [.entry s.hw.freeIndex (some { r with state := .active })])
          walk errs = (h1, k, true) → CarriesOut (.create q i walk errs) s fun h =>
      h.region s.hw.freeIndex = some { r with state := .active } ∧
      (h.op q i).map QOp.st = some (.done .ok 0 false (BitVec.ofNat 32 s.hw.freeIndex)) ∧ h.gate.negatives = [] ∧ h.gate.era = s.hw.gate.era + 1 ∧
      h.txns = s.hw.txns) ∧
    (∀ walk errs res, s.hw.createRefusal o c = some res → CarriesOut (.create q i walk errs) s fun h =>
      (h.op q i).map QOp.st = some (.done .stateRefused res.num false 0) ∧ h.regions.table = s.hw.regions.table ∧ h.regions.dir = s.hw.regions.dir ∧
      h.regions.maps = s.hw.regions.maps)

/-- R99, R100, R101: SHARE writes the slice's share and completes. UNSHARE and SET_FILL write their change at once and then wait for the requests granted before it; with nothing left to wait for they complete. -/
def Claim.RegionChanges : Prop :=
  ∀ (s : State) (q : Fin 64) (i : Nat) (o : QOp) (r : Region), s.hw.admin q = true → s.hw.region (o.field 6 0 16) = some r → r.state = .active →
    let index := o.field 6 0 16
    let slice := o.field 22 0 10
    let begun := s.hw.modOp q i fun x => { x with started := true }
    (∀ walk errs h1 n shares, s.hw.regionTurn q i 2 = some o → withShare r.shares slice (BitVec.ofNat 4 (o.field 24 0 4)) = some shares →
      ((∃ x ∈ r.shares, x.2.1 = slice) ∨ s.hw.sliceShares slice < 256) → begun.tableWrites [.entry index (some { r with shares := shares })] walk errs = (h1, n, true) →
      CarriesOut (.share q i walk errs) s fun h =>
        h.region index = some { r with shares := shares } ∧ (∀ k ≠ index, h.region k = s.hw.region k) ∧ (h.op q i).map QOp.st = some (.done .ok 0 false 0) ∧
        h.txns = s.hw.txns) ∧
    (∀ walk errs h1 n, s.hw.regionTurn q i 3 = some o → (∃ x ∈ r.shares, x.2.1 = slice) →
      begun.tableWrites [.entry index (some { r with shares := r.shares.filter fun x => x.2.1 != slice })] walk errs = (h1, n, true) → CarriesOut (.unshare q i walk errs) s fun h =>
      h.region index = some { r with shares := r.shares.filter fun x => x.2.1 != slice } ∧ (∀ k ≠ index, h.region k = s.hw.region k) ∧
      h.regions.running = some ⟨q, i, 3, index, s.hw.regionOpen index r (some slice)⟩ ∧ (∀ w ∈ h.gate.windows, w.region = index → w.slice ≠ slice)) ∧
    (∀ walk errs h1 n, s.hw.regionTurn q i 4 = some o →
      begun.tableWrites [.entry index (some { r with fill := BitVec.ofNat 32 (o.field 16 0 32) })] walk errs = (h1, n, true) → CarriesOut (.setFill q i walk errs) s fun h =>
      h.region index = some { r with fill := BitVec.ofNat 32 (o.field 16 0 32) } ∧ (∀ k ≠ index, h.region k = s.hw.region k) ∧
      h.regions.running = some ⟨q, i, 4, index, s.hw.regionOpen index r none⟩) ∧
    (∀ walk errs w, s.hw.regions.running = some w → w.queue = q.val → w.op = i → s.hw.regionReady w = true → s.hw.op q i = some o → o.opcode = 0x0E → o.started = true → o.ended = false →
      (w.subop = 3 → CarriesOut (.unshare q i walk errs) s fun h => h.regions.running = none ∧ (h.op q i).map QOp.st = some (.done .ok 0 false 0) ∧ h.regions.table = s.hw.regions.table) ∧
      (w.subop = 4 → CarriesOut (.setFill q i walk errs) s fun h => h.regions.running = none ∧ (h.op q i).map QOp.st = some (.done .ok 0 false 0) ∧ h.regions.table = s.hw.regions.table))

/-- R101, R473: DESTROY first turns its region DESTROYING and waits for the requests granted before; its end invalidates the entry. -/
def Claim.RegionDestroyed : Prop :=
  ∀ (s : State) (q : Fin 64) (i : Nat) (o : QOp),
    (∀ walk errs h1 n r, s.hw.admin q = true → s.hw.regionTurn q i 1 = some o → s.hw.region (o.field 6 0 16) = some r → r.cls ≠ .sealed →
      (s.hw.modOp q i fun x => { x with started := true }).tableWrites [.entry (o.field 6 0 16) (some { r with state := .destroying })] walk errs = (h1, n, true) →
      CarriesOut (.destroy q i walk errs) s fun h =>
        h.region (o.field 6 0 16) = some { r with state := .destroying } ∧ (∀ k ≠ o.field 6 0 16, h.region k = s.hw.region k) ∧
        h.regions.running = some ⟨q, i, 1, o.field 6 0 16, s.hw.regionOpen (o.field 6 0 16) r none⟩ ∧ h.txns = s.hw.txns) ∧
    ∀ walk errs h1 n w r, s.hw.regions.running = some w → w.queue = q.val → w.op = i → w.subop = 1 → s.hw.regionReady w = true → s.hw.region w.index = some r → r.cls ≠ .sealed →
      s.hw.op q i = some o → o.opcode = 0x0E → o.started = true → o.ended = false →
      s.hw.tableWrites (s.hw.clearWrites w.index r.base r.size ++ [.entry w.index none]) walk errs = (h1, n, true) → CarriesOut (.destroy q i walk errs) s fun h =>
        h.regions.table = s.hw.regions.table.put none w.index none ∧ h.regions.running = none ∧ (∀ x ∈ h.gate.windows, x.region ≠ w.index) ∧
        (h.op q i).map QOp.st = some (.done .ok 0 false 0)

/-- R20, R89, R97 to R101, R282, R473: the life of a region. The model's own choices in it: log entry 31. -/
def Obligations.Regions : Prop := Claim.RegionCreated ∧ Claim.RegionChanges ∧ Claim.RegionDestroyed

/-- R74, R75, R190, R191: keys of host links. The refresh timer delivers six fresh keys to every stream of a trusted host; a stream with a delivery in progress is answered BUSY and one of no trusted host NOT_TRUSTED; a key that is taken leaves the port with its slot erased, and the next is driven; one that fails raises KEY_DELIVERY_FAIL, and the rest of its stream's keys are not sent. The model's own choices in it: log entries 1, 4 and 38. -/
def Obligations.HostLinkKeys : Prop :=
  (∀ s : State, s.hw.regF Reg.LINK_IDE_REFRESH 0 16 ≠ 0 → s.hw.joined = true → s.hw.drbgReady = true → s.hw.dom.leaving = [] →
    Becomes .ideRefreshTimer s s.hw.ideAll ∧
    ∀ st, s.hw.ideStreams = [st] → s.hw.ideBusy st = false → CarriesOut .ideRefreshTimer s fun h =>
      h.ide.pending.length = s.hw.ide.pending.length + 6 ∧ h.txns = s.hw.txns ∧ h.fcu = s.hw.fcu) ∧
  (∀ (h : Hw) (a : LateAnswer) (st : Nat),
    (st ∉ h.ideStreams → h.ideRequest a st = h.scuLate a (.ideDone st 1)) ∧
    (st ∈ h.ideStreams → h.dom.leaving = [] → h.ideBusy st = true → h.ideRequest a st = h.scuLate a (.ideDone st 2))) ∧
  ∀ (s : State) (d : KeyDelivery) (rest : List KeyDelivery), s.hw.ide.pending = d :: rest → s.hw.dom.leaving = [] →
    (CarriesOut (.keyDeliveryAccept false) s fun h => h = s.hw.ideAccepted d ∧ h.ide.pending = rest ∧ h.txns = s.hw.txns ∧ h.fcu = s.hw.fcu) ∧
    (d.zero = false → CarriesOut .keyDeliveryFail s fun h => Reported s.hw h 201 ∧ h.ide.pending = rest.filter (fun x => x.stream != d.stream) ∧ h.txns = s.hw.txns) ∧
    (d.zero = false → CarriesOut (.keyDeliveryAccept true) s fun h => Reported s.hw h 201 ∧ h.ide.pending = rest.filter (fun x => x.stream != d.stream))

/-- R62, R294: a Device Memory Port transaction that completes is no longer open, and an operation that waited for its last write completes with it. One that ends with an error flag or is incomplete after 10 us raises
DMP_ERROR, and the operation that issued it completes ABORTED, or the slot operation with ERROR; one that has faulted in translation, for which BTT_FAULT has been raised, does the same without DMP_ERROR. The model's own choices in it: log entries 4 and 24. -/
def Obligations.DeviceMemoryEnds : Prop :=
  ∀ (s : State) (id : BitVec 8) (t : DmTxn) (write : Bool) (data : BitVec 64),
    let done := fun (err : Bool) => if write then Instr.dmpWriteDone id err else Instr.dmpReadDone id data err
    let rest := s.hw.dmp.open_.filter fun x => !(x == t)
    let live := fun (n i : Nat) (o : QOp) => s.hw.op n i = some o ∧ o.ended = false ∧ o.txns = [] ∧ o.fin = none ∧ o.code = .ok
    ((s.hw.dmp.open_.find? fun x => x.id == id.toNat && x.write == write) = some t →
      (t.fault = false → (∃ k, t.use = .slot k ∨ t.use = .ring k ∨ t.use = .partWrite k) ∨ t.use = .mailbox ∨ t.use = .scuImage →
        Becomes (done false) s { s.hw with dmp.open_ := rest }) ∧
      (∀ n i o x, t.fault = false → t.use = .op n i → t.write = true → s.hw.op n i = some o → o.ended = false → o.opcode ≠ 4 → o.opcode ≠ 5 → o.fin = some x →
        ({ s.hw with dmp.open_ := rest }.opWriting n i) = false → CarriesOut (done false) s fun h =>
          (h.op n i).map QOp.st = some (.done x.1 x.2.1 x.2.2.1 x.2.2.2)) ∧
      (∀ n i o, t.use = .op n i → live n i o → (write = true → t.fault = false) → CarriesOut (done true) s fun h =>
        (t.fault = false → ∃ r ∈ h.fcu.inflight, r.2.source = 200) ∧ t ∉ h.dmp.open_ ∧ (h.op n i).map QOp.st = some (.done .aborted 0 true 0)) ∧
      (∀ k, t.use = .slot k → t.fault = false → CarriesOut (done true) s fun h =>
        Reported s.hw h 200 ∧ h.dmp.open_ = rest ∧ h.sched.items = s.hw.sched.items.map (SlotItem.fail k)) ∧
      (∀ k, t.use = .slot k → t.fault = true → ∀ e, CarriesOut (done e) s fun h =>
        h.fcu = s.hw.fcu ∧ h.dmp.open_ = rest ∧ h.sched.items = s.hw.sched.items.map (SlotItem.fail k))) ∧
    ((s.hw.dmp.open_.find? fun x => x.id == id.toNat) = some t →
      ∀ n i o, t.use = .op n i → t.fault = false → live n i o → CarriesOut (.dmpTimeout id) s fun h =>
        (∃ r ∈ h.fcu.inflight, r.2.source = 200) ∧ t ∉ h.dmp.open_ ∧ (h.op n i).map QOp.st = some (.done .aborted 0 true 0))

/-- R197, R212 to R215: BLIND_REDUCE completes MALFORMED on illegal operands or an illegal descriptor, and otherwise opens a context that is OPENING. A collective whose granules the Gate has granted is refused FRESHNESS, with BLIND_STALE, where its step is not fresh; a fresh one writes its freshness entry, derives the group key into a slice slot, and begins to send or to receive. -/
def Claim.CollectivesOpen : Prop :=
  ∀ (s : State) (q : Fin 64) (i : Nat) (o : QOp) (h1 : Hw) (walk : BttWalk),
    (∀ d next : Line, s.hw.issuedOp q i 3 = some o →
      (o.descOperandOk = false → Becomes (.blindReduce q i d next walk) s (s.hw.opEnd q i .malformed .none)) ∧
      (o.descOperandOk = true → s.hw.bru.waiting = [] → s.hw.opAccess q i o.descAddr (if descRole d = .leader then 128 else 64) false walk = (h1, true) →
        (blindLegal d next = false → Becomes (.blindReduce q i d next walk) s
          (({ h1 with bru.waiting := [(q.val, i, d, next)] } : Hw).opEnd q i .malformed .none)) ∧
        (blindLegal d next = true → descSrcSlot d = false → descDstSlot d = false → descDstSlot next = false → s.hw.bru.ctxs.length + s.hw.bru.closing.length < 64 → s.hw.bruFenced = false →
          CarriesOut (.blindReduce q i d next walk) s fun h =>
            (∃ c, h.bru.ctxs = s.hw.bru.ctxs ++ [c] ∧ c.queue = q.val ∧ c.op = i ∧ c.st = .opening ∧ c.first = Coll.fresh d ∧ c.slice = s.hw.queueSlice q ∧
              c.second = (if descRole d = .leader then some (Coll.fresh next) else none)) ∧
            h.bru.waiting = [] ∧ (h.op q i).map (fun x => (x.st, x.started)) = some (.issued, true) ∧ h.sched = s.hw.sched ∧ h.txns = s.hw.txns))) ∧
    ∀ (c : Ctx) (first second : CollRead) (k : Nat), s.hw.ctx q i = some c → s.hw.op q i = some o → 1 ≤ s.hw.sliceFree → s.hw.freeSliceSlot = some k → c.st = .opening → c.granules.length ≤ c.lanes.length → o.aborting = false →
      c.second = none → (∀ x ∈ c.lanes, x = c.lanes.headD false) → descProbed c.first.desc = false → descScaleArray c.first.desc = false → s.hw.inject.remaining = 0 →
      let d := c.first.desc
      ((descRole d).contributes = true → descRole d ≠ .receive → first.fresh = .stored → (s.hw.bttCheck none (s.hw.freshAddr d) false walk).2 = none → freshCrcOk (s.hw.bru.fresh.get 0 (descColl d)) = true →
        (freshPasses (s.hw.bru.fresh.get 0 (descColl d)) (descEpoch d) (descStep d) = false → o.ended = false → CarriesOut (.collectiveOpened q i first second walk) s fun h =>
          (h.op q i).map QOp.st = some (.done .stateRefused 2 false 0) ∧ (∃ r ∈ h.fcu.inflight, r.2.source = 240) ∧ h.bru.fresh = s.hw.bru.fresh) ∧
        (freshPasses (s.hw.bru.fresh.get 0 (descColl d)) (descEpoch d) (descStep d) = true → CarriesOut (.collectiveOpened q i first second walk) s fun h =>
          (h.ctx q i).map (fun x => (x.st, x.first.key, x.first.slot)) = some (.sending, s.hw.groupKey d, some k) ∧ (h.slot k).key = s.hw.groupKey d ∧ (h.slot k).st = 1 ∧
          h.bru.fresh = s.hw.bru.fresh.put 0 (descColl d) (freshEntry (descEpoch d) (descStep d)) ∧ h.txns = s.hw.txns))

/-- R200, R204, R211, R214: the next block of a sending collective leaves in one BL_CONTRIB, masked and tagged under the group key, charged to master 9; the last of its blocks leaves it DRAINING; a block that holds no legal value ends it MALFORMED. -/
def Claim.ContributionLeaves : Prop :=
  ∀ (s : State) (q : Fin 64) (i : Nat) (c : Ctx) (o : QOp) (b0 : SrcBlock) (walk : BttWalk) (h1 h2 : Hw),
    s.hw.ctx q i = some c → s.hw.op q i = some o → c.st = .sending → o.aborting = false → c.putFed = false → descStochastic c.first.desc = false →
    messageBlocks c.first.desc c.first.next (min 1 c.holdRoom) = 1 → s.hw.opReads q i (sourceRanges c.first.desc c.first.next 1 [b0]) walk = (h1, true) →
    let d := c.first.desc
    let b := c.first.next
    (∀ xs, h1.convertBlock q c.first b b0 = (h2, some xs) → CarriesOut (.blContribSend q i [b0] walk) s fun h =>
      (h.ctx q i).map (fun x => (x.first.next, x.st)) = some (b + 1, if descBlocks d ≤ b + 1 then .draining else .sending) ∧
      ∃ w m, h.rgl.items = s.hw.rgl.items ++ [w] ∧ w.work = .message m ∧ w.master = 9 ∧ w.bytes = 256 ∧ m.hdr.op = 0x10 ∧ m.hdr.txn = BitVec.ofNat 32 s.hw.newTag ∧
        m.hdr.addr = BitVec.ofNat 46 (descAcc d + 256 * b) ∧
        m.lines = lanesLines (contribLanes c.first.key (descG d) (descRank d) b (c.lanes2 false) xs)) ∧
    (h1.convertBlock q c.first b b0 = (h2, none) → CarriesOut (.blContribSend q i [b0] walk) s fun h =>
      (h.ctx q i).map (fun x => x.st) = some .draining ∧ (h.op q i).map (fun x => x.code) = some (o.code.worse .malformed) ∧ h.rgl = s.hw.rgl)

/-- R197 to R215: a collective from its command to its last contribution. The model's own choices in it: log entries 4, 8, 25 and 26. -/
def Obligations.CollectivesRun : Prop := Claim.CollectivesOpen ∧ Claim.ContributionLeaves

/-- R202, R203, R216: an answer of one block to an open collective. A count below G ends the block INCOMPLETE with BLIND_INCOMPLETE; one above it, or sums that fail their tag, AUTH_FAIL with BLIND_TAG_FAIL; a full count with sums that pass demasks them. An answer that no collective awaits goes to the Stale Sump. -/
def Claim.CollectiveAnswers : Prop :=
  ∀ (s : State) (p : Fin 16) (m : Message) (walk : BttWalk),
    (s.hw.blindMatch m.hdr.txn.toNat = none → s.hw.bru.closing = [] → Becomes (.blindAnswer p m walk) s (s.hw.sump p m false) ∧ Becomes (.blExpmaxAnswer p m) s (s.hw.sump p m false)) ∧
    ∀ (c : Ctx) (x : CollMsg) (o : QOp), s.hw.blindMatch m.hdr.txn.toNat = some (c, false, x) → s.hw.ctx c.queue c.op = some c → s.hw.op c.queue c.op = some o →
      s.hw.drbgReady = true → o.aborting = false → o.total = 1 → o.next = 0 → c.st = .draining → x.count = 1 → m.hdr.op.toNat = x.op → m.hdr.status ≠ 2 →
      let d := c.first.desc
      let count := inlineField m.inlineArea 16 16
      (x.op ≠ 0x12 →
        (count < descG d → c.first.shortBad = false → CarriesOut (.blindAnswer p m walk) s fun h =>
          Reported s.hw h 243 ∧ (h.ctx c.queue c.op).map (fun y => (y.first.fate.get none x.first, y.first.sums)) = some (some .incomplete, c.first.sums) ∧ h.out = s.hw.out) ∧
        (descG d < count → c.first.tagBad = false → CarriesOut (.blindAnswer p m walk) s fun h =>
          Reported s.hw h 242 ∧ (h.ctx c.queue c.op).map (fun y => (y.first.fate.get none x.first, y.first.sums)) = some (some .authFail, c.first.sums) ∧ h.out = s.hw.out) ∧
        (count = descG d → (descRole d).receives = false → CarriesOut (.blindAnswer p m walk) s fun h =>
          h.fcu = s.hw.fcu ∧ (h.ctx c.queue c.op).map (fun y => y.first.fate.get none x.first) = some (some .ok) ∧ h.out = s.hw.out) ∧
        (count = descG d → (descRole d).receives = true → descRole d ≠ .leader → c.holds = true → descStochastic d = false → s.hw.inject.remaining = 0 →
          (sumCheck c.first.key x.first (c.lanes2 false) (lanesOfLines (m.lines.take 4)) = true → CarriesOut (.blindAnswer p m walk) s fun h =>
            h.fcu = s.hw.fcu ∧ h.out = s.hw.out ∧ (h.ctx c.queue c.op).map (fun y => (y.first.fate.get none x.first, y.first.sums)) =
              some (some .ok, c.first.sums.put [] x.first (demask c.first.key x.first (lanesOfLines (m.lines.take 4))))) ∧
          (sumCheck c.first.key x.first (c.lanes2 false) (lanesOfLines (m.lines.take 4)) = false → c.first.tagBad = false → CarriesOut (.blindAnswer p m walk) s fun h =>
            Reported s.hw h 242 ∧ h.out = s.hw.out ∧ (h.ctx c.queue c.op).map (fun y => (y.first.fate.get none x.first, y.first.sums)) = some (some .authFail, c.first.sums)))) ∧
      (x.op = 0x12 → count ≠ descG d → c.first.shortBad = false → CarriesOut (.blExpmaxAnswer p m) s fun h =>
        Reported s.hw h 243 ∧ (h.ctx c.queue c.op).map (fun y => y.st) = some .draining ∧ (h.op c.queue c.op).map (fun y => y.code) = some (if o.code = .ok then .incomplete else o.code.worse .incomplete)) ∧
      (x.op = 0x12 → count = descG d → CarriesOut (.blExpmaxAnswer p m) s fun h =>
        h.fcu = s.hw.fcu ∧ (h.ctx c.queue c.op).map (fun y => (y.st, y.first.scales)) =
          some (.draining, c.first.scales.put 0 x.first (inlineField m.inlineArea 18 8 + 1 - headroomOf (descG d) + 1)))

/-- R215, R216, R217: a draining collective whose every message has been answered closes with the first code of R217's list, and its context is free; T_GROUP after DRAINING a block that is still awaited ends INCOMPLETE. -/
def Claim.CollectivesClose : Prop :=
  ∀ (s : State) (q : Fin 64) (i : Nat) (c : Ctx) (o : QOp), s.hw.ctx q i = some c → s.hw.op q i = some o → c.st = .draining → o.st = .issued → o.opcode = 3 → c.slotsDone = true → s.hw.opWriting q i = false →
    (o.txns = [] → CarriesOut (.collectiveClose q i) s fun h =>
      (h.op q i).map QOp.st = some (.done (c.code o.code) ((blindResult (c.code o.code) 0 false).getD 0) false 0) ∧ h.ctx q i = none) ∧
    (∀ x, c.first.msgs = [x] → x.op = 0x10 → x.count = 1 → c.second = none → o.aborting = false → o.code = .ok → (∀ f ∈ c.first.fate, f.2 = some .ok ∨ f.2 = none) →
      CarriesOut (.tGroupExpiry q i) s fun h => (h.op q i).map QOp.st = some (.done .incomplete 8 false 0) ∧ h.ctx q i = none)

/-- R202 to R217: the answers of a collective and its end. The model's own choices in it: log entries 4, 8, 9 and 25. -/
def Obligations.CollectivesEnd : Prop := Claim.CollectiveAnswers ∧ Claim.CollectivesClose

/-- R237 to R241, R243: DISPATCH and COMBINE that are not stepped complete MALFORMED on illegal operands or an illegal descriptor; otherwise they run, DISPATCH with the section that R239 and R240 give each destination, COMBINE with the sections still to be received. In mode FIXED no section's shape depends on the routing. The model's own choices in it: log entries 8 and 27. -/
def Obligations.ShaperStarts : Prop :=
  (∀ (s : State) (q : Fin 64) (i : Nat) (o : QOp) (d : Line) (route members : List (BitVec 16)) (walk : BttWalk),
    s.hw.steppedQueue q = false → s.hw.slotCtxOf q i = none →
    (s.hw.issuedOp q i 4 = some o → o.descOperandOk = false → Becomes (.dispatch q i d route members walk) s (s.hw.opEnd q i .malformed .none)) ∧
    (s.hw.issuedOp q i 5 = some o → o.descOperandOk = false → Becomes (.combine q i d members walk) s (s.hw.opEnd q i .malformed .none)) ∧
    ∀ h1, o.descOperandOk = true → s.hw.drbgReady = true → s.hw.opAccess q i o.descAddr 64 false walk = (h1, true) →
      (s.hw.issuedOp q i 4 = some o →
        (shapeLegal d false = false → CarriesOut (.dispatch q i d route members walk) s fun h => (h.op q i).map QOp.st = some (.done .malformed 0 true 0)) ∧
        (shapeLegal d false = true → routeOk d route = true →
          (∀ rs, ∃ v, (({ h1 with shaper := rs } : Hw).drbgCall).opReads q i [(shapeMap d, 2 * shapeP d), (shapeRoute d, 2 * shapeRows d)] walk = (v, true)) → CarriesOut (.dispatch q i d route members walk) s fun h =>
            (∃ r ∈ h.shaper, r.queue = q.val ∧ r.op = i ∧ r.combine = false ∧ r.desc = d ∧ r.stepped = false ∧ r.parts = (List.range (shapeP d)).map (dispatchPart d route)) ∧
            (h.op q i).map (fun x => (x.st, x.started)) = some (.issued, true) ∧ h.txns = s.hw.txns)) ∧
      (s.hw.issuedOp q i 5 = some o →
        (shapeLegal d true = false → CarriesOut (.combine q i d members walk) s fun h => (h.op q i).map QOp.st = some (.done .malformed 0 true 0)) ∧
        (shapeLegal d true = true → (∀ rs, ∃ v, (({ h1 with shaper := rs } : Hw).drbgCall).opReads q i [(shapeMap d, 2 * shapeP d)] walk = (v, true)) → CarriesOut (.combine q i d members walk) s fun h =>
          (∃ r ∈ h.shaper, r.queue = q.val ∧ r.op = i ∧ r.combine = true ∧ r.desc = d ∧ r.parts = (List.range (shapeP d)).map fun _ => combinePart) ∧
          (h.op q i).map (fun x => (x.st, x.started)) = some (.issued, true) ∧ h.txns = s.hw.txns))) ∧
  ∀ (d : Line) (route route' : List (BitVec 16)) (k : Nat), shapeMode d = 2 →
    (dispatchPart d route k).shaped = (dispatchPart d route' k).shaped ∧ (dispatchPart d route k).readPos = (dispatchPart d route' k).readPos

/-- R296, R303: what any slot word but NOP and QUIET meets first. With 64 completions pending it is dropped with SCHED_PROTOCOL; a reserved op, a reserved bit, an id in use or a zero delta makes it complete MALFORMED with SCHED_PROTOCOL; and nothing else changes. -/
def Claim.SlotWordsJudged : Prop :=
  ∀ (s : State) (w : BitVec 64) (src : SrcBlock) (data : List Line) (walk : BttWalk) (c : Instr),
    ((slotOp w = 1 ∧ c = .blindPut w src walk) ∨ (slotOp w = 2 ∧ c = .blindTake w walk) ∨ (slotOp w = 3 ∧ c = .dispatchStep w data walk) ∨
      (slotOp w = 4 ∧ c = .combineStep w data walk) ∨ (slotOp w = 5 ∧ c = .fenceSig w) ∨ (slotOp w = 6 ∧ c = .fencePoll w) ∨
      (8 ≤ slotOp w ∧ c = .reservedSlotOp w)) → s.hw.slotsRun = true →
    (64 ≤ s.hw.slotPending.length → CarriesOut c s fun h => Reported s.hw h 250 ∧ h.sched = s.hw.sched ∧ h.txns = s.hw.txns ∧ h.bru = s.hw.bru ∧ h.obj = s.hw.obj) ∧
    (s.hw.slotPending.length < 64 → (8 ≤ slotOp w ∨ slotReservedOk w = false ∨ slotId w ∈ s.hw.slotPending ∨ (slotOp w = 5 ∧ slotDelta w = 0)) →
      CarriesOut c s fun h => Reported s.hw h 250 ∧ h.sched.items = s.hw.sched.items ++ [.op (slotOp w) (slotId w) 6 0] ∧
        h.txns = s.hw.txns ∧ h.bru = s.hw.bru ∧ h.obj = s.hw.obj ∧ h.shaper = s.hw.shaper)

/-- R297, R302, R303: FENCE.SIG adds its delta to the value of a fence that the port's slice may signal, and FENCE.POLL completes with the value of one that it may wait on; a fence of another owner is refused PERM and unchanged. -/
def Claim.SlotFences : Prop :=
  ∀ (s : State) (w : BitVec 64), s.hw.slotsRun = true → s.hw.blockFenced = false → s.hw.slotPending.length < 64 → s.hw.slotMalformed w = false → s.hw.pow.rung ≠ .u3 →
    (s.hw.slice s.hw.slotSlice).st = .active →
    let f := slotFence w
    let v := s.hw.fence f
    (slotOp w = 5 →
      (v.maySignal s.hw.slotSlice = true → CarriesOut (.fenceSig w) s fun h =>
        (h.fence f).value = v.value + BitVec.ofNat 64 (slotDelta w) ∧ (h.fence f).st = (if v.st = .error then .error else .signalled) ∧ (∀ g ≠ f, h.fence g = s.hw.fence g) ∧
        h.sched.items = s.hw.sched.items ++ [.op 5 (slotId w) 0 (v.value + BitVec.ofNat 64 (slotDelta w))] ∧ h.out = s.hw.out ++ [.gate .sched 0 .none] ∧ h.txns = s.hw.txns) ∧
      (v.maySignal s.hw.slotSlice = false → CarriesOut (.fenceSig w) s fun h =>
        h.obj = s.hw.obj ∧ h.sched.items = s.hw.sched.items ++ [.op 5 (slotId w) 2 3] ∧ h.out = s.hw.out ++ [.gate .sched 0 .perm])) ∧
    (slotOp w = 6 →
      (v.mayWait s.hw.slotSlice = true → CarriesOut (.fencePoll w) s fun h => h.obj = s.hw.obj ∧ h.cfe = s.hw.cfe ∧ h.out = s.hw.out ++ [.gate .sched 0 .none] ∧
        h.sched.items = s.hw.sched.items ++ [if v.st = .signalled then .op 6 (slotId w) 0 v.value else if v.st = .error then .op 6 (slotId w) 5 v.value
          else .op 6 (slotId w) 1 (256 * 3)]) ∧
      (v.mayWait s.hw.slotSlice = false → CarriesOut (.fencePoll w) s fun h => h.obj = s.hw.obj ∧ h.sched.items = s.hw.sched.items ++ [.op 6 (slotId w) 2 3]))

/-- R299, R302 to R304: BLIND.PUT of a slot-fed collective that is sending contributes its block, and a block put before is refused REPEATED; BLIND.TAKE takes a block with the outcome it has, and writes a released one; without a context both are refused. -/
def Claim.SlotBlocks : Prop :=
  ∀ (s : State) (w : BitVec 64) (src : SrcBlock) (walk : BttWalk), s.hw.slotsRun = true → s.hw.blockFenced = false → s.hw.slotPending.length < 64 → s.hw.slotMalformed w = false →
    let b := slotBlock w
    (s.hw.slotFed (slotColl w) = none → (slotOp w = 1 → Becomes (.blindPut w src walk) s (s.hw.slotEnd w .refused (256 * 5))) ∧
      (slotOp w = 2 → Becomes (.blindTake w walk) s (s.hw.slotEnd w .refused (256 * 5)))) ∧
    ∀ (c : Ctx) (h1 h2 h3 : Hw) (win : Option Window), s.hw.slotFed (slotColl w) = some c → b < descBlocks c.first.desc → s.hw.slotWorking < 32 →
      (slotOp w = 1 → c.putFed = true → s.hw.slotJudge .blindPut (descAcc c.first.desc + 256 * b) = (h1, .none, win) →
        (b ∈ c.put → Becomes (.blindPut w src walk) s (h1.slotEnd w .refused (256 * 6))) ∧
        (∀ xs, b ∉ c.put → c.st = .sending → descStochastic c.first.desc = false → c.holdRoom ≠ 0 → h1.slotFlits + 2 ≤ h1.egressRes →
          h1.readsFor (.slot (slotId w)) c.queue c.op (sourceRanges c.first.desc b 1 [src]) walk = (h2, true) → h2.convertBlock c.queue c.first b src = (h3, some xs) →
          Becomes (.blindPut w src walk) s ((h3.putBlock (slotId w) c b xs).slotEnd w .ok b)) ∧
        (b ∉ c.put → c.st = .sending → descStochastic c.first.desc = false → c.holdRoom ≠ 0 → h1.slotFlits + 2 ≤ h1.egressRes →
          h1.readsFor (.slot (slotId w)) c.queue c.op (sourceRanges c.first.desc b 1 [src]) walk = (h2, true) → h2.convertBlock c.queue c.first b src = (h3, none) →
          Becomes (.blindPut w src walk) s ((h3.collMalformed c.queue c.op).slotEnd w .error CC.malformed.num))) ∧
      (slotOp w = 2 → c.holds = true → s.hw.slotJudge .blindTake (descAcc (c.stage c.resultStage).desc + 256 * b) = (h1, .none, win) →
        let taken := fun (h : Hw) => h.modCtx c.queue c.op fun c => { c with taken := c.taken ++ [b] }
        (b ∈ c.taken → Becomes (.blindTake w walk) s (h1.slotEnd w .refused (256 * 6))) ∧
        (b ∉ c.taken → (c.stage c.resultStage).fate.get none b = none → Becomes (.blindTake w walk) s (h1.slotEnd w .busy (256 * 3))) ∧
        (b ∉ c.taken → (c.stage c.resultStage).fate.get none b = some .authFail → Becomes (.blindTake w walk) s (((taken h1).sendReads c.queue c.op 33).slotEnd w .authFail b)) ∧
        (b ∉ c.taken → (c.stage c.resultStage).fate.get none b = some .ok → (taken h1).writeResults c.queue c.op b (.slot (slotId w)) walk = h2 → (h2.ctx c.queue c.op).isSome = true →
          Becomes (.blindTake w walk) s ((h2.sendReads c.queue c.op 33).slotEnd w .ok b)))

/-- The words of the Scheduled Port: what each meets first, and the slot operations on fences and blocks (R296 to R303). The model's own choices in it: log entries 4, 8, 9 and 28. -/
def Obligations.SlotWords : Prop := Claim.SlotWordsJudged ∧ Claim.SlotFences ∧ Claim.SlotBlocks

/-- R300 to R304: a step of a DISPATCH or COMBINE writes its destination's whole section and completes with its lines; a section stepped before is refused REPEATED, and a queue without a slot context NO_CONTEXT. -/
def Claim.SlotSteps : Prop :=
  ∀ (s : State) (w : BitVec 64) (data : List Line) (walk : BttWalk) (combine : Bool), s.hw.slotsRun = true → s.hw.blockFenced = false → s.hw.slotPending.length < 64 → s.hw.slotMalformed w = false →
    slotOp w = (if combine then 4 else 3) →
    let cmd : Instr := if combine then .combineStep w data walk else .dispatchStep w data walk
    let k := slotPart w
    ((∀ c ∈ s.hw.sched.ctxs, c.blind = true ∨ c.key ≠ slotQueue w) → Becomes cmd s (s.hw.slotEnd w .refused (256 * 5))) ∧
    ∀ (c : SlotCtx) (o : QOp) (r : ShapeRun) (p : Part) (h1 h2 : Hw) (win : Option Window),
      (s.hw.sched.ctxs.find? fun c => !c.blind && c.key == slotQueue w) = some c → s.hw.op c.queue c.op = some o → o.opcode = (if combine then 5 else 4) →
      s.hw.slotWorking < 32 → s.hw.run c.queue c.op = some r → r.slabs = [] → r.parts[k]? = some p → s.hw.slotJudge .shapeWrite (sectionAddr r.desc k (shapeSelf r.desc)) = (h1, .none, win) →
      let lines := sectionLines r.desc p.shaped
      (p.stepped = true → Becomes cmd s (h1.slotEnd w .refused (256 * 6))) ∧
      (p.stepped = false → (∀ x ∈ r.parts, x.ready = true ∨ x.failed = true ∨ x.dead = true) → p.failed = false → p.dead = false → h1.drbgReady = true →
        (∀ g ∈ r.sectionGranules k p, (h1.cached g).isSome = true ∧ ∀ f ∈ h1.gkt.fills, f.granule ≠ g) →
        (h1.egressRes < 2 * ((lines + 3) / 4) → Becomes cmd s (h1.slotEnd w .refused (256 * 7))) ∧
        (h1.slotFlits + 2 * ((lines + 3) / 4) ≤ h1.egressRes → h1.readsFor (.slot (slotId w)) c.queue c.op (r.sources k p lines) walk = (h2, true) →
          Becomes cmd s (((h2.modPart c.queue c.op k fun p => { p with stepped := true, step := some (slotId w) }).stepWrites (slotId w) c.queue c.op k win data lines).slotEnd w .ok lines)))

/-- R298, R303, R305, R311, R313: the oldest slot operation completes on SCH_CPL once its work is done, while a later one does not; QUIET opens a window under DETERMINISTIC once every operation before it has completed, its end begins the tail, and the tail ends; a starved DETERMINISTIC raises SCHED_QUIET_STARVED; and the command issued first of those that wait takes a free slot context. -/
def Claim.SlotCompletions : Prop :=
  ∀ s : State,
    (∀ op id st data rest, s.hw.sched.items = .op op id st data :: rest →
      (s.hw.slotBusy id = true → ∀ miss, Becomes (.slotCompletion miss) s s.hw) ∧
      (s.hw.slotBusy id = false → op ≠ 3 → op ≠ 4 → (∀ c, rest.head? ≠ some (.quiet c)) → CarriesOut (.slotCompletion none) s fun h =>
        h.out = s.hw.out ++ [.schCpl id st data] ∧ h.sched.items = rest ∧ h.txns = s.hw.txns ∧ h.fcu = s.hw.fcu)) ∧
    (∀ w : BitVec 64, s.hw.slotsRun = true → slotOp w = 7 → s.hw.slotPending.length < 64 →
      ((slotCycles w = 0 ∨ slotId w ≠ 0 ∨ slotReservedOk w = false) → CarriesOut (.quiet w) s fun h => Reported s.hw h 250 ∧ h.sched = s.hw.sched) ∧
      (slotCycles w ≠ 0 → slotId w = 0 → slotReservedOk w = true →
        (s.hw.deterministic = false → Becomes (.quiet w) s s.hw) ∧
        (s.hw.deterministic = true → s.hw.sched.items = [] → s.hw.cnt.exporting = 0 → CarriesOut (.quiet w) s fun h => h.sched.items = [] ∧ h.quietOpen = true ∧ h.txns = s.hw.txns ∧ h.out = s.hw.out) ∧
        (∀ i rest, s.hw.deterministic = true → s.hw.sched.items = i :: rest → (∀ c, i ≠ .quiet c) →
          Becomes (.quiet w) s { s.hw with sched.items := s.hw.sched.items ++ [.quiet (slotCycles w)] }))) ∧
    (s.hw.quietOpen = true → Becomes .quietWindowEnd s ((s.hw.setF Reg.SCHED_STAT 31 1 0).setF Reg.SCHED_STAT 30 1 1)) ∧
    (s.hw.regBit Reg.SCHED_STAT 30 = true → Becomes .quietTailEnd s (s.hw.setF Reg.SCHED_STAT 30 1 0)) ∧
    (s.hw.deterministic = true → s.hw.regF Reg.SCHED_STARVE 0 16 ≠ 0 → CarriesOut .schedQuietStarved s fun h => Reported s.hw h 252 ∧ h.sched = s.hw.sched) ∧
    (∀ blind key n i, s.hw.sched.ctxs.length < 16 → s.hw.sched.waiting = [(blind, key, n, i)] → s.hw.slotKeyed blind key = false → CarriesOut .slotContextTaken s fun h =>
      h.sched.ctxs = s.hw.sched.ctxs ++ [⟨blind, key, n, i, []⟩] ∧ h.sched.waiting = [] ∧ h.sched.items = s.hw.sched.items ∧ h.cfe = s.hw.cfe)

/-- The stepped slot operations and the completions of the Scheduled Port (R296 to R305). The model's own choices in it: log entries 1, 4, 8, 9 and 28. -/
def Obligations.SlotWork : Prop := Claim.SlotSteps ∧ Claim.SlotCompletions

/-- R316: BIND takes a slice that is FREE, whose PASID no other slice has and that no Region Table share names; otherwise it is refused with 1, 2 or 3 in that order. -/
def Claim.SliceBound : Prop :=
  ∀ s : State,
    let i := s.hw.regF Reg.SLICE_SEL 0 10
    let v := s.hw.slice i
    let refuse := fun (n : Nat) => s.hw.setSlice i { v with refusal := n }
    (v.st ≠ .free → WritesOk .bind s (refuse 1)) ∧
    (v.st = .free → (s.hw.sliceOfPasid v.pasid).isSome = true → WritesOk .bind s (refuse 2)) ∧
    (v.st = .free → s.hw.sliceOfPasid v.pasid = none → s.hw.sliceShares i ≠ 0 → WritesOk .bind s (refuse 3)) ∧
    (v.st = .free → s.hw.sliceOfPasid v.pasid = none → s.hw.sliceShares i = 0 → s.hw.prime.ready = true → CarriesOut .bind s fun h =>
      h.slice i = { Slice.unbound with st := .active, pasid := v.pasid } ∧ (∀ j, j ≠ i → h.slice j = s.hw.slice j) ∧ h.obj.fences = s.hw.obj.fences ∧
      h.obj.events = s.hw.obj.events ∧ h.cfe.queues = s.hw.cfe.queues ∧ h.cfe.covers = s.hw.cfe.covers.put 0 i 0 ∧ h.regs = s.hw.regs ∧ h.txns = s.hw.txns ∧
      h.out = s.hw.out ++ [.regAnswer 0 0])

/-- R335, R336, R339: REMOVE or TEARDOWN closes an ACTIVE slice. Its queues go HALTED without their preloads, its slot contexts go, the fences it owns are orphaned, and its drain begins; any other slice, but a DEAD one that is removed, refuses with 1. -/
def Obligations.SliceClosed : Prop :=
  ∀ (s : State) (down : Bool),
    let c : Instr := if down then .teardown else .remove
    let i := s.hw.regF Reg.SLICE_SEL 0 10
    let v := s.hw.slice i
    (v.st ≠ .active → (down = true ∨ v.st ≠ .dead) → WritesOk c s (s.hw.setSlice i { v with refusal := 1 })) ∧
    (v.st = .dead → WritesOk .remove s ((s.hw.setSlice i { v with refusal := 0 }).finishSlice i false)) ∧
    (v.st = .active → s.hw.prime.ready = true → CarriesOut c s fun h =>
      h.slice i = { v with st := if down then .tearing else .removing, step := 2, refusal := 0, since := s.hw.clk.now } ∧ (∀ j, j ≠ i → h.slice j = s.hw.slice j) ∧
      (∀ n ∈ s.hw.queuesOf i, (h.queue n).st = .halted ∧ (h.queue n).pre = none) ∧ (∀ n, n ∉ s.hw.queuesOf i → (h.queue n).st = (s.hw.queue n).st) ∧
      (∀ x ∈ h.sched.ctxs, s.hw.queueSlice x.queue ≠ i) ∧
      (∀ f, (s.hw.fence f).allocated = true → (s.hw.fence f).owner = i → (h.fence f).st = .error ∧ ((s.hw.fence f).st ≠ .error → (h.fence f).status = .orphaned)) ∧
      h.txns.map (·.id) = s.hw.txns.map (·.id) ∧ h.gate.windows = s.hw.gate.windows)

/-- R336 to R338: at the end of the drain the slice's open Transaction Port requests are answered ABORTED with zeros and every operation of its buffers has completed; then the barrier clears, or after 100 us is reported and keeps waiting; then the slots are erased and the slice is finished, DEAD after a TEARDOWN and FREE after a REMOVE. -/
def Claim.SliceRemoved : Prop :=
  ∀ (s : State) (n : Fin 1024),
    let v := s.hw.slice n
    (v.step ≠ 2 → Becomes (.sliceDrainEnd n) s s.hw) ∧
    (v.step = 2 → CarriesOut (.sliceDrainEnd n) s fun h =>
      (h.slice n).st = v.st ∧ (h.slice n).step = 3 ∧ (h.slice n).since = s.hw.clk.now ∧ (∀ j, j ≠ n.val → h.slice j = s.hw.slice j) ∧
      (∀ q ∈ s.hw.queuesOf n, ∀ b, (h.queue q).run = some b → b.ops.all QOp.ended = true ∧ b.stage ≠ 0) ∧
      (∀ t ∈ s.hw.txns, t.slice = n.val → (∃ p, t.src = .utp p) → t.stage ≠ .ready → t.stage ≠ .window → ∀ u ∈ h.txns, u.id = t.id →
        u.stage = .ready ∧ u.status = .aborted ∧ ∀ l ∈ u.answer, l = 0)) ∧
    (v.step = 3 → s.hw.barrierOf n = 0 → Becomes (.sliceBarrierClear n) s (s.hw.setSlice n { v with step := 4, since := s.hw.clk.now })) ∧
    (s.hw.barrierOf n ≠ 0 → Becomes (.sliceBarrierClear n) s s.hw) ∧
    (v.step = 3 → s.hw.barrierOf n ≠ 0 → CarriesOut (.sliceBarrierSlow n) s fun h => Reported s.hw h 254 ∧ h.obj = s.hw.obj ∧ h.txns = s.hw.txns ∧ h.cfe = s.hw.cfe) ∧
    (v.step = 4 → s.hw.dom.leaving = [] → Becomes (.sliceSlotsErased n) s ((s.hw.eraseSlice n).keysChanged.finishSlice n (v.st == .tearing))) ∧
    (v.step ≠ 4 → s.hw.dom.leaving = [] → Becomes (.sliceSlotsErased n) s s.hw)

/-- R315, R316, R336 to R338: the life of a slice: BIND, and the steps of a removal or teardown once it has begun. The model's own choices in it: log entries 1, 4, 9, 29 and 48. -/
def Obligations.SlicesBoundAndRemoved : Prop := Claim.SliceBound ∧ Claim.SliceRemoved

/-- R324 to R326, R331: what a signal of a fence and a set of an event do. A signal lower than the value, by the serial comparison, changes no fence and raises FENCE_REGRESS; any other is the fence's value, its status if it bears an error, and satisfies the waits that it reaches. -/
def Claim.SignalsAndSets : Prop :=
  (∀ (h : Hw) (f : Nat) (x : BitVec 64) (err : Option CC) (m : Nat),
    let v := h.fence f
    let u := h.fenceSignal f x err m
    (1 ≤ (v.value - x).toNat ∧ (v.value - x).toNat < 2 ^ 63 → u.obj = h.obj ∧ u.cfe = h.cfe ∧ Reported h u 253) ∧
    (¬(1 ≤ (v.value - x).toNat ∧ (v.value - x).toNat < 2 ^ 63) →
      u.fence f = { v with value := x, st := if v.st = .error ∨ err.isSome then .error else .signalled, status := if v.st = .error then v.status else err.getD v.status } ∧
      (∀ g, g ≠ f → u.fence g = h.fence g) ∧ u.obj.slices = h.obj.slices ∧ u.fcu = h.fcu ∧
      ∀ n i o, h.op n i = some o → ∃ o', u.op n i = some o' ∧
        (o.waitsOn f = true → (u.fence f).satisfies (BitVec.ofNat 64 (o.field 8 0 64)) = true → o'.st = .satisfied (u.fence f).waitCode (BitVec.ofNat 32 x.toNat)) ∧
        ((o.waitsOn f = false ∨ (u.fence f).satisfies (BitVec.ofNat 64 (o.field 8 0 64)) = false) → o' = o))) ∧
  ∀ (h : Hw) (e : Nat),
    let v := h.event e
    (v.alloc = false → h.eventSet e = h) ∧
    (v.alloc = true → let u := h.setEvent e { v with count := (v.count + 1) % 65536, set := bit v.cfg 10 }
      h.eventSet e = if bit v.cfg 10 && v.set then u else u.icuAssert (448 + fld v.cfg 16 6))

/-- R322, R328, R329: FENCE.CMD ALLOC makes an unallocated fence UNSIGNALLED with its initial value, unless its notify event is not its owner's; FREE orphans its waiters and frees it; RESET returns an allocated one to UNSIGNALLED with its initial value. -/
def Claim.FenceCommands : Prop :=
  ∀ (s : State) (value : Word),
    let f := s.hw.regF Reg.FENCE_SEL 0 12
    let v := s.hw.fence f
    let e := fld value 16 10
    let owned := (s.hw.event e).alloc && fld (s.hw.event e).cfg 0 10 == v.owner
    (v.st ≠ .free → WritesOk (.fenceAlloc value) s s.hw) ∧
    (v.st = .free → bit v.cfg 23 = true → owned = false → WritesOk (.fenceAlloc value) s (s.hw.setFence f { v with refused := true })) ∧
    (v.st = .free → (bit v.cfg 23 = false ∨ owned = true) → s.hw.prime.ready = true → CarriesOut (.fenceAlloc value) s fun h =>
      h.fence f = { v with st := .unsignalled, value := v.init, status := .ok, event := e, refused := false, lastRemote := none } ∧ (∀ g, g ≠ f → h.fence g = s.hw.fence g) ∧
      h.obj.slices = s.hw.obj.slices ∧ h.obj.events = s.hw.obj.events ∧ h.cfe = s.hw.cfe ∧ h.regs = s.hw.regs ∧ h.out = s.hw.out ++ [.regAnswer 0 0]) ∧
    (v.st = .free → WritesOk .fenceFree s s.hw ∧ WritesOk .fenceReset s s.hw) ∧
    (v.st ≠ .free → v.st ≠ .error → s.hw.prime.ready = true → CarriesOut .fenceFree s fun h =>
      h.obj.fences = (s.hw.obj.fences.put Fence.unused f { v with st := .error, status := .orphaned }).put Fence.unused f { v with st := .free, status := .ok } ∧
      (∀ n i o, s.hw.op n i = some o → o.waitsOn f = true → h.op n i = some { o with st := .satisfied .orphaned (BitVec.ofNat 32 v.value.toNat) }) ∧
      (∀ n i o, s.hw.op n i = some o → o.waitsOn f = false → h.op n i = some o)) ∧
    (v.st = .error → s.hw.prime.ready = true → CarriesOut .fenceFree s fun h => h.obj.fences = s.hw.obj.fences.put Fence.unused f { v with st := .free, status := .ok } ∧ h.cfe = s.hw.cfe) ∧
    (v.st ≠ .free → s.hw.prime.ready = true → CarriesOut .fenceReset s fun h =>
      h.fence f = { v with st := .unsignalled, value := v.init, status := .ok } ∧ (∀ g, g ≠ f → h.fence g = s.hw.fence g) ∧ h.obj.events = s.hw.obj.events ∧
      h.obj.slices = s.hw.obj.slices ∧ h.regs = s.hw.regs ∧ h.out = s.hw.out ++ [.regAnswer 0 0])

/-- R318, R319, R323, R325, R328, R330, R331, R452: a slice window's writes signal, clear, set and clear only what the slice may; one that names an object it may not use, or that comes from no ACTIVE slice, is DENIED with cause 2 or 1. -/
def Claim.SliceWindowObjects : Prop :=
  ∀ (s : State) (pasid : BitVec 20) (value : Word),
    (s.hw.activeSlice pasid.toNat = none → s.hw.prime.ready = true →
      Becomes (.swFsig pasid value) s (s.hw.denied 0x034 true true pasid.toNat 1) ∧ Becomes (.swFclr pasid value) s (s.hw.denied 0x038 true true pasid.toNat 1) ∧
      Becomes (.swEset pasid value) s (s.hw.denied 0x048 true true pasid.toNat 1) ∧ ∀ g, Becomes (.eventClear (some pasid) g value) s (s.hw.denied 0x04C true true pasid.toNat 1)) ∧
    ∀ i, s.hw.activeSlice pasid.toNat = some i →
      let f := s.hw.swFence i
      let e := s.hw.swEvent i
      let v := s.hw.fence f
      ((s.hw.fence f).maySignal i = true → WritesOk (.swFsig pasid value) s
        (s.hw.fenceSignal f (BitVec.ofNat 64 (s.hw.obj.fsigLo.get 0 i + value.toNat * 2 ^ 32)) none s.hw.memberId)) ∧
      ((s.hw.fence f).maySignal i = false → s.hw.prime.ready = true → Becomes (.swFsig pasid value) s (s.hw.denied 0x034 true true pasid.toNat 2)) ∧
      ((v.st = .free ∨ v.owner ≠ i) → s.hw.prime.ready = true → Becomes (.swFclr pasid value) s (s.hw.denied 0x038 true true pasid.toNat 2)) ∧
      (v.st ≠ .free → v.owner = i → bit value 0 = false → WritesOk (.swFclr pasid value) s s.hw) ∧
      (v.st ≠ .free → v.owner = i → bit value 0 = true → s.hw.prime.ready = true → CarriesOut (.swFclr pasid value) s fun h =>
        h.fence f = { v with st := .unsignalled, value := v.init, status := .ok } ∧ (∀ g, g ≠ f → h.fence g = s.hw.fence g) ∧ h.regs = s.hw.regs ∧ h.out = s.hw.out ++ [.regAnswer 0 0]) ∧
      (s.hw.ownsEvent i e = false → s.hw.prime.ready = true → Becomes (.swEset pasid value) s (s.hw.denied 0x048 true true pasid.toNat 2) ∧
        ∀ g, Becomes (.eventClear (some pasid) g value) s (s.hw.denied 0x04C true true pasid.toNat 2)) ∧
      (s.hw.ownsEvent i e = true → WritesOk (.swEset pasid value) s (if bit value 0 then s.hw.eventSet e else s.hw) ∧
        ∀ g, WritesOk (.eventClear (some pasid) g value) s (if bit value 0 then s.hw.setEvent e { s.hw.event e with set := false } else s.hw))

/-- R330, R331: EVENT.CMD ALLOC allocates a free event, clear and with no sets counted, and FREE frees it; a W1C write of EVENT.STATEn clears the events of its bits and no other. -/
def Claim.EventCommands : Prop :=
  ∀ s : State,
    let e := s.hw.regF Reg.EVENT_SEL 0 10
    ((s.hw.event e).alloc = true → WritesOk .eventAlloc s s.hw) ∧
    ((s.hw.event e).alloc = false → s.hw.prime.ready = true → CarriesOut .eventAlloc s fun h =>
      h.event e = { s.hw.event e with alloc := true, set := false, count := 0 } ∧ (∀ d, d ≠ e → h.event d = s.hw.event d) ∧ h.obj.fences = s.hw.obj.fences ∧
      h.obj.slices = s.hw.obj.slices ∧ h.regs = s.hw.regs ∧ h.out = s.hw.out ++ [.regAnswer 0 0]) ∧
    WritesOk .eventFree s (s.hw.setEvent e { s.hw.event e with alloc := false, set := false }) ∧
    ∀ (g : Fin 32) (value : Word), s.hw.prime.ready = true → CarriesOut (.eventClear none g value) s fun h =>
      (∀ k, k < 32 → value.getLsbD k = true → (s.hw.event (32 * g + k)).alloc = true → h.event (32 * g + k) = { s.hw.event (32 * g + k) with set := false }) ∧
      (∀ d, (d / 32 ≠ g.val ∨ value.getLsbD (d % 32) = false) → h.event d = s.hw.event d) ∧ h.obj.fences = s.hw.obj.fences ∧ h.regs = s.hw.regs ∧
      h.out = s.hw.out ++ [.regAnswer 0 0]

/-- R322 to R331: fences and events, their commands, their signals and sets, and what a slice may do with them. The model's own choices in it: log entries 1, 4, 9 and 48. -/
def Obligations.FencesAndEvents : Prop := Claim.SignalsAndSets ∧ Claim.FenceCommands ∧ Claim.SliceWindowObjects ∧ Claim.EventCommands

/-- R33, R36, R37: PWR.PROFILE refuses the reserved profiles; another value is held as requested until it takes effect, DETERMINISTIC only in U0, to which a write of it wakes the block; a cluster that is out does not take it then (R248, R259). -/
def Claim.Profiles : Prop :=
  ∀ (s : State) (value : Word),
    let w := (s.hw.setReg Reg.PWR_PROFILE (value &&& 0x33)).setF Reg.PWR_PROFILE_ACT 31 1 1
    let p := s.hw.reg Reg.PWR_PROFILE
    (2 ≤ fld value 0 2 → WritesOk (.profileWrite value) s (s.hw.pageFault 0x02 .reservedWrite)) ∧
    (fld value 0 2 < 2 → (bit value 4 = false ∨ (s.hw.pow.rung = .u0 ∧ s.hw.pow.moving = none ∧ s.hw.pow.queued = none)) → WritesOk (.profileWrite value) s w) ∧
    (fld value 0 2 < 2 → bit value 4 = true → (s.hw.pow.rung = .u1 ∨ s.hw.pow.rung = .u2 ∨ s.hw.pow.rung = .u3) → s.hw.pow.moving = none → s.hw.prime.ready = true →
      CarriesOut (.profileWrite value) s fun h => h.pow = { s.hw.pow with moving := some .u0, auto := false } ∧ h.reg Reg.PWR_WAKE_CAUSE = 9 ∧ h.txns = s.hw.txns ∧
        h.out = s.hw.out ++ [.regAnswer 0 0]) ∧
    (s.hw.regBit Reg.PWR_PROFILE_ACT 31 = false → Becomes .profileEffect s s.hw) ∧
    (s.hw.regBit Reg.PWR_PROFILE_ACT 31 = true → bit p 4 = true → (s.hw.pow.rung = .u1 ∨ s.hw.pow.rung = .u2 ∨ s.hw.pow.rung = .u3) → s.hw.pow.moving = none →
      CarriesOut .profileEffect s fun h => h.pow = { s.hw.pow with moving := some .u0, auto := false } ∧ h.reg Reg.PWR_WAKE_CAUSE = 9 ∧ h.reg Reg.PWR_PROFILE_ACT = s.hw.reg Reg.PWR_PROFILE_ACT) ∧
    (s.hw.regBit Reg.PWR_PROFILE_ACT 31 = true → (bit p 4 = false ∨ (s.hw.pow.rung = .u0 ∧ s.hw.entering = false)) → CarriesOut .profileEffect s fun h =>
      h.reg Reg.PWR_PROFILE_ACT = p ∧ h.reg Reg.PWR_GATED_PIPES = (if fld p 0 2 = 1 then 210 else 0) ∧
      (∀ n < 16, h.clu n = if s.hw.cluState n = 0 then { s.hw.clu n with gated := fld p 0 2 == 1 } else s.hw.clu n) ∧ h.pow = s.hw.pow ∧ h.txns = s.hw.txns)

/-- R37 to R40, R42, R46, R80: RUNG_REQ is refused with 4 for a reserved rung, 2 for U4 or U5 while joined, 3 for any rung but U0 under DETERMINISTIC; otherwise the entry, or the exit to U0, begins. A request during a transition waits for its end, but one for U0 during an entry ends it. -/
def Claim.RungRequests : Prop :=
  ∀ (s : State) (value : Word),
    let v := fld value 0 3
    let w := s.hw.setReg Reg.PWR_RUNG_REQ (BitVec.ofNat 32 v)
    let p := s.hw.pow
    (6 ≤ v → WritesOk (.rungReq value) s ((s.hw.pageFault 0x02 .reservedWrite).rungRefusal 4)) ∧
    (p.moving = none →
      (v = 4 ∨ v = 5 → s.hw.joined = true → WritesOk (.rungReq value) s (w.rungRefusal 2)) ∧
      (1 ≤ v → v < 6 → ((v ≠ 4 ∧ v ≠ 5) ∨ s.hw.joined = false) → s.hw.deterministic = true → WritesOk (.rungReq value) s (w.rungRefusal 3)) ∧
      (1 ≤ v → v < 6 → ((v ≠ 4 ∧ v ≠ 5) ∨ s.hw.joined = false) → s.hw.deterministic = false → Rung.ofNum v ≠ p.rung → s.hw.prime.ready = true → CarriesOut (.rungReq value) s fun h =>
        h.pow = { p with moving := some (Rung.ofNum v), auto := false } ∧ h.pump.rungPause = (s.hw.pump.rungPause || decide (3 ≤ v)) ∧ h.txns = s.hw.txns ∧ h.cfe = s.hw.cfe) ∧
      (v = 0 → p.rung = .u1 ∨ p.rung = .u2 ∨ p.rung = .u3 → s.hw.prime.ready = true → CarriesOut (.rungReq value) s fun h =>
        h.pow = { p with moving := some .u0, auto := false } ∧ h.reg Reg.PWR_WAKE_CAUSE = 8) ∧
      (v = 0 → p.rung = .u4 ∨ p.rung = .u5 → s.hw.prime.ready = true → CarriesOut (.rungReq value) s fun h =>
        h.pow = { p with moving := some .u0, clockWait := true, auto := false })) ∧
    (p.moving.isSome = true → v < 6 → (v ≠ 0 ∨ p.moving = some .u0) → WritesOk (.rungReq value) s { w with pow := { p with queued := some (BitVec.ofNat 3 v) } }) ∧
    (∀ r, p.moving = some r → r ≠ .u0 → p.rung = .u0 → v = 0 → s.hw.prime.ready = true → CarriesOut (.rungReq value) s fun h =>
      h.pow = { p with moving := none, queued := none, clockWait := false, auto := false })

/-- R38, R39, R40, R45, R80: an automatic entry begins only where its setting is not 0 and its conditions hold; a rung is in force once the conditions of its entry are met, and is refused with 1 where they are not met in time; an exit without its clocks is refused with 5. U4 loses the caches, the queues and the SCU; U5 the keys and the domain too. -/
def Claim.RungEntries : Prop :=
  ∀ s : State,
    let p := s.hw.pow
    let go := fun (r : Rung) (set : Nat) (c : Instr) =>
      ((set = 0 ∨ s.hw.deterministic = true ∨ s.hw.deterministicDue = true ∨ p.moving ≠ none ∨ s.hw.pipelineWork = true ∨ r.num ≤ p.rung.num ∨ s.hw.entryOk r = false) → Becomes c s s.hw) ∧
      (set ≠ 0 → s.hw.deterministic = false → s.hw.deterministicDue = false → p.moving = none → s.hw.pipelineWork = false → p.rung.num < r.num → s.hw.entryOk r = true →
        Becomes c s { s.hw with pow := { p with moving := some r, auto := true } })
    go .u1 (s.hw.regF Reg.PWR_IDLE_U1 0 16) .autoU1Entry ∧ go .u2 (s.hw.regF Reg.PWR_IDLE_U2 0 16) .autoU2Entry ∧
    (∀ r, p.moving = some r → r ≠ .u0 →
      (s.hw.entryOk r = false → Becomes .rungEntryDone s s.hw) ∧
      (s.hw.entryOk r = true → Becomes .rungEntryTimeout s s.hw) ∧
      (s.hw.entryOk r = true → p.queued = none → r = .u1 ∨ r = .u2 ∨ r = .u3 → Becomes .rungEntryDone s
        (({ s.hw with pow := { p with rung := r, moving := none, auto := false } }.setIrq 0x02 0).emit (.rung r))) ∧
      (s.hw.entryOk r = true → p.queued = none → r = .u4 ∨ r = .u5 → CarriesOut .rungEntryDone s fun h =>
        h.pow = { p with rung := r, moving := none, auto := false } ∧ h.gate.windows = [] ∧ h.gkt.cache = [] ∧ h.cfe.queues = [] ∧ h.cfe.btt = [] ∧ h.scu.running = none ∧
        h.scu.sessions = [] ∧ h.scu.meas = [] ∧ h.out = s.hw.out ++ [.rung r] ∧ (r = .u5 → h.cis.sets = [] ∧ h.dom.policy = none ∧ h.ide.pending = [])) ∧
      (s.hw.entryOk r = false → p.auto = true → Becomes .rungEntryTimeout s s.hw) ∧
      (s.hw.entryOk r = false → p.auto = false → p.queued = none → Becomes .rungEntryTimeout s
        ({ s.hw with pow := { p with moving := none, clockWait := false, auto := false }, pump.rungPause := s.hw.pump.rungPause && p.rung == Rung.u3 }.rungRefusal 1))) ∧
    (p.clockWait = false → Becomes .clockPresenceTimeout s s.hw) ∧
    (p.clockWait = true → p.queued = none → Becomes .clockPresenceTimeout s
      ({ s.hw with pow := { p with moving := none, clockWait := false, auto := false }, pump.rungPause := s.hw.pump.rungPause && p.rung == Rung.u3 }.rungRefusal 5))

/-- R38, R39, R41, R42, R44: a wake event of the rung in force begins the exit to U0 with its cause, one of a rung that is being entered ends the entry, and one that is none of the rung changes nothing; at its end U0 is in force, and an exit from U4 or U5 boots the SCU. -/
def Claim.Wakes : Prop :=
  ∀ (s : State) (cause : BitVec 4) (port : Fin 16),
    let p := s.hw.pow
    (p.moving = none → wakesFrom p.rung cause.toNat = false → Becomes (.wakeEvent cause port) s s.hw) ∧
    (p.moving = none → wakesFrom p.rung cause.toNat = true → Becomes (.wakeEvent cause port) s
      ({ s.hw with pow := { p with moving := some .u0, auto := false } }.setReg Reg.PWR_WAKE_CAUSE
        (BitVec.ofNat 32 (cause.toNat + 65536 * (if cause = 1 ∨ cause = 3 then port.val else 0))))) ∧
    (∀ r, p.moving = some r → p.rung = .u0 → p.queued = none → wakesFrom r cause.toNat = true → CarriesOut (.wakeEvent cause port) s fun h =>
      h.pow = { p with moving := none, clockWait := false, auto := false } ∧ h.regs = s.hw.regs ∧ h.txns = s.hw.txns) ∧
    (∀ r, p.moving = some r → r ≠ .u0 → p.rung = .u1 ∨ p.rung = .u2 ∨ p.rung = .u3 → p.queued = none → wakesFrom p.rung cause.toNat = true ∨ wakesFrom r cause.toNat = true →
      CarriesOut (.wakeEvent cause port) s fun h => h.pow = { p with moving := some .u0, clockWait := false, auto := false } ∧ h.txns = s.hw.txns) ∧
    (p.moving ≠ some .u0 → s.hw.scu.held = [] → Becomes .rungExitDone s s.hw) ∧
    (p.moving = some .u0 → p.queued = none → s.hw.scu.held = [] → (∀ k, (s.hw.port k).waiting = []) → CarriesOut .rungExitDone s fun h =>
      h.pow = { p with rung := .u0, moving := none, clockWait := false } ∧ h.pump.rungPause = false ∧ (∃ l, h.out = s.hw.out ++ .rung .u0 :: l) ∧ h.txns = s.hw.txns ∧
      (∀ r ∈ h.resets, r.phase ≠ .fence) ∧ h.scu.booting = (s.hw.scu.booting || p.rung == .u4 || p.rung == .u5))

/-- R33 to R46, R80: profiles and the power ladder. The model's own choices in it: log entries 1, 9, 23 and 48. -/
def Obligations.ProfilesAndRungs : Prop := Claim.Profiles ∧ Claim.RungRequests ∧ Claim.RungEntries ∧ Claim.Wakes

/-- R26, R27, R47: a measurement window raises CLOCK_RANGE for each clock that runs and is outside its range by more than 2 %, and for no other; CK_ENG, which the block gates itself, runs in U0 and U1 only. -/
def Claim.ClockWindows : Prop :=
  ∀ (s : State) (host eng mgt : Option (BitVec 16)) (lnk : List (Option (BitVec 16))),
    let out := fun (lo hi : Nat) (r : Option (BitVec 16)) => ∃ k, r = some k ∧ (k.toNat < lo ∨ hi < k.toNat)
    CarriesOut (.clockWindow host eng mgt lnk) s fun h =>
      (∃ l : List (Nat × Raise), h.fcu.inflight = s.hw.fcu.inflight ++ l ∧ (176 ∈ l.map (·.2.source) ↔ out 7840 20400 host) ∧
        (177 ∈ l.map (·.2.source) ↔ (s.hw.pow.rung = .u0 ∨ s.hw.pow.rung = .u1) ∧ out 14700 16320 eng) ∧
        (178 ∈ l.map (·.2.source) ↔ out 1225 1275 mgt) ∧ ∀ n, n < 16 → (160 + n ∈ l.map (·.2.source) ↔ out 15305 15945 (lnk.getD n none))) ∧
      (∀ r, host = some r → h.reg Reg.CLK_MEAS_HOST = BitVec.ofNat 32 (r.toNat + 2 ^ 31)) ∧ h.txns = s.hw.txns ∧ h.pow = s.hw.pow ∧ h.out = s.hw.out

/-- R76, R77: network time as the Time Port gives it, with TIME_STEP where it falls or jumps by more than 1,000 ns; TIME_SRC_LOST when TP_VALID falls; a rail sample outside the thresholds raises RAIL_GLITCH, and 10 us without a sample RAIL_SENSE_LOST. -/
def Claim.TimeAndRail : Prop :=
  ∀ (s : State) (ns : BitVec 64) (mv : BitVec 16),
    let now := s.hw.clk.now
    let t := s.hw.perVal 0x013
    let samples := (mv.toNat :: s.hw.rail.samples).take 7
    (s.hw.clk.tpValid = false → Becomes (.timeStep ns) s s.hw ∧ Becomes .timeLost s s.hw) ∧
    (s.hw.clk.tpValid = true → Becomes (.timeRegained ns) s s.hw) ∧
    (s.hw.clk.tpValid = true → now ≤ ns.toNat → ns.toNat ≤ now + 1000 → Becomes (.timeStep ns) s { s.hw with clk.now := ns.toNat }) ∧
    (s.hw.clk.tpValid = true → (ns.toNat < now ∨ now + 1000 < ns.toNat) → CarriesOut (.timeStep ns) s fun h =>
      h.clk = { s.hw.clk with now := ns.toNat } ∧ Reported { s.hw with clk.now := ns.toNat } h 202 ∧ h.txns = s.hw.txns) ∧
    (s.hw.clk.tpValid = true → CarriesOut .timeLost s fun h => h.clk = { s.hw.clk with tpValid := false } ∧ Reported s.hw h 203 ∧ h.txns = s.hw.txns) ∧
    (s.hw.clk.tpValid = false → now ≤ ns.toNat + 1000 → ns.toNat ≤ now + 1000 → Becomes (.timeRegained ns) s { s.hw with clk.now := ns.toNat, clk.tpValid := true }) ∧
    (s.hw.clk.tpValid = false → (ns.toNat + 1000 < now ∨ now + 1000 < ns.toNat) → CarriesOut (.timeRegained ns) s fun h =>
      h.clk = { s.hw.clk with now := ns.toNat, tpValid := true } ∧ Reported { s.hw with clk.now := ns.toNat } h 202 ∧ h.txns = s.hw.txns) ∧
    (fld t 0 16 ≤ mv.toNat → mv.toNat ≤ fld t 16 16 → Becomes (.railSample mv) s { s.hw with rail.samples := samples }) ∧
    ((mv.toNat < fld t 0 16 ∨ fld t 16 16 < mv.toNat) → CarriesOut (.railSample mv) s fun h =>
      h.rail.samples = samples ∧ h.lcs = { s.hw.lcs with railAt := some now } ∧ Reported s.hw h 204 ∧ h.txns = s.hw.txns) ∧
    CarriesOut .railSenseLost s fun h => Reported s.hw h 205 ∧ h.rail = s.hw.rail ∧ h.lcs = s.hw.lcs ∧ h.txns = s.hw.txns

/-- R45, R73, R362, R373, R374: a failed health test stops the source until it restarts, and the third within 1 s until cold reset; a reseed waits while the source does not run; a refresh changes every LIVE slot's shares and no key; FU_BUSY held for 1 ms raises FUSE_FAIL once. -/
def Claim.RandomSources : Prop :=
  ∀ s : State,
    let stat := Reg.CISTERN_TRNG_STAT
    (∀ rct : Bool,
      let count := fun (h : Hw) => h.regF stat (if rct then 8 else 16) 8
      let recent := (s.hw.cis.healthFails.filter fun t => decide (s.hw.clk.now ≤ t + 1000000000)).length
      (s.hw.regBit stat 1 = true → Becomes (.trngHealth rct) s s.hw) ∧
      (s.hw.regBit stat 1 = false → CarriesOut (.trngHealth rct) s fun h =>
        h.regBit stat 0 = false ∧ count h = min (count s.hw + 1) 255 ∧ h.regBit stat 1 = decide (2 ≤ recent) ∧ h.cis.slots = s.hw.cis.slots ∧
        (∃ l, h.fcu.inflight = s.hw.fcu.inflight ++ l ∧ l.map (·.2.source) = if 2 ≤ recent then [266, 267] else [266]))) ∧
    (s.hw.regBit Reg.CISTERN_DRBG_STAT 0 = false → Becomes .drbgReseed s s.hw) ∧
    (s.hw.regBit Reg.CISTERN_DRBG_STAT 0 = true → s.hw.regBit stat 0 = false → Becomes .drbgReseed s (s.hw.setF Reg.CISTERN_DRBG_STAT 1 1 1)) ∧
    (s.hw.regBit Reg.CISTERN_DRBG_STAT 0 = true → s.hw.regBit stat 0 = true → CarriesOut .drbgReseed s fun h =>
      h.drbgReady = true ∧ h.cis = { s.hw.cis with calls := 0 } ∧ h.regF Reg.CISTERN_DRBG_STAT 8 24 = min (s.hw.regF Reg.CISTERN_DRBG_STAT 8 24 + 1) 0xFFFFFF) ∧
    ((s.hw.regBit stat 1 = true ∨ s.hw.regBit stat 0 = true) → Becomes .trngStartupPass s s.hw) ∧
    (s.hw.regBit stat 1 = false → s.hw.regBit stat 0 = false → CarriesOut .trngStartupPass s fun h =>
      h.regBit stat 0 = true ∧ h.regBit Reg.CISTERN_DRBG_STAT 1 = false ∧ (s.hw.regBit Reg.CISTERN_DRBG_STAT 1 = true → h.cis.calls = 0) ∧ h.cis.slots = s.hw.cis.slots) ∧
    (s.hw.pow.rung = .u5 → Becomes .shareRefresh s s.hw) ∧
    (s.hw.pow.rung ≠ .u5 → CarriesOut .shareRefresh s fun h =>
      (∀ k, ∃ m, h.slot k = { s.hw.slot k with share0 := (s.hw.slot k).share0 ^^^ m, share1 := (s.hw.slot k).share1 ^^^ m }) ∧
      (∀ k, (s.hw.slot k).live = false → h.slot k = s.hw.slot k) ∧ h.cis.sets = s.hw.cis.sets ∧ h.txns = s.hw.txns ∧ h.out = s.hw.out) ∧
    ((s.hw.lcs.prog = [] ∨ s.hw.lcs.stalled = true ∨ s.hw.eraseOpen = true) → Becomes .fuBusyStall s s.hw) ∧
    (s.hw.lcs.prog ≠ [] → s.hw.lcs.stalled = false → s.hw.lcs.target = none → CarriesOut .fuBusyStall s fun h =>
      Reported s.hw h 206 ∧ h.lcs = { s.hw.lcs with stalled := true, prog := s.hw.lcs.prog.take 1 } ∧ h.out = s.hw.out) ∧
    (∀ t, s.hw.lcs.prog ≠ [] → s.hw.lcs.stalled = false → s.hw.lcs.target = some t → s.hw.eraseOpen = false → CarriesOut .fuBusyStall s fun h =>
      Reported s.hw h 206 ∧ h.lcs.prog = s.hw.lcs.prog.take 1 ∧ h.lcs.target = none ∧ h.reg Reg.LCS_TRANS_STAT = BitVec.ofNat 32 (t.num + 80))

/-- R26, R45, R47, R73, R76, R77, R362, R373, R374: clocks, network time, the rail, the random sources and the fuse port's stall. The model's own choices in it: log entries 1, 3, 4 and 9. -/
def Obligations.ClocksSensorsAndRandom : Prop := Claim.ClockWindows ∧ Claim.TimeAndRail ∧ Claim.RandomSources

/-- R248, R250, R252, R254, R256, R257: a failed check is reported with its cluster, but for one of a pipeline that is clock-gated, which there is not. One under test fails its test. A cluster that carries traffic leaves it for a repair, its
partner serving both ports and processing its blocks again, or is HELD once it has had its repairs within 1 s; with its partner out too the pair is fenced and the work on its ports is re-routed. -/
def Claim.ClusterFails : Prop :=
  ∀ (s : State) (n : Fin 16) (c : CluCheck) (blocks : Nat),
    let cmd : Instr := .clusterCheckFail n c blocks
    let src := 16 * (cluCheckKind c - 1) + n.val
    let q := partner n
    (s.hw.pipeGated n c = true → Becomes cmd s s.hw) ∧
    (s.hw.pipeGated n c = false →
      (s.hw.cluIn n 1 = true → CarriesOut cmd s fun h =>
        Reported s.hw h src ∧ h.reg (Reg.CLU_STAT n) = s.hw.reg (Reg.CLU_STAT n) ∧ h.clu n = { s.hw.clu n with checkFailed := true } ∧ h.txns = s.hw.txns) ∧
      (s.hw.cluIn n 1 = false → s.hw.cluAble n = false → CarriesOut cmd s fun h =>
        Reported s.hw h src ∧ h.reg (Reg.CLU_STAT n) = s.hw.reg (Reg.CLU_STAT n) ∧ h.clus = s.hw.clus ∧ h.txns = s.hw.txns) ∧
      (s.hw.cluAble n = true → s.hw.repairsFull n = false → s.hw.cluAble q = true → CarriesOut cmd s fun h =>
        Reported s.hw h src ∧ h.cluState n = 1 ∧ h.cluPhase n = 0 ∧ h.regBit (Reg.CLU_STAT q) 8 = true ∧ h.cluState q = s.hw.cluState q ∧ (h.clu n).since = s.hw.clk.now ∧
        h.reg (Reg.CLU_RERUN_CNT q) = s.hw.reg (Reg.CLU_RERUN_CNT q) + BitVec.ofNat 32 ((s.hw.clu q).redo + ((s.hw.clu n).redo + blocks)) ∧ h.txns = s.hw.txns) ∧
      (s.hw.cluAble n = true → s.hw.repairsFull n = true → s.hw.cluAble q = true → CarriesOut cmd s fun h =>
        h.cluState n = 3 ∧ h.regBit (Reg.CLU_STAT q) 8 = true ∧ h.txns = s.hw.txns ∧
        ∃ l : List (Nat × Raise), h.fcu.inflight = s.hw.fcu.inflight ++ l ∧ l.map (·.2.source) = [src, 64 + n.val]) ∧
      (s.hw.cluAble n = true → s.hw.repairsFull n = false → s.hw.cluAble q = false → s.hw.regBit (Reg.CLU_STAT (2 * (n / 2))) 9 = false → CarriesOut cmd s fun h =>
        h.cluState n = 1 ∧ h.regBit (Reg.CLU_STAT n) 9 = true ∧ h.regBit (Reg.CLU_STAT q) 9 = true ∧
        (∀ t ∈ h.txns, (t.port.map (·.val) = some n.val ∨ t.port.map (·.val) = some q) → t.stage ≠ .inFlight ∧ t.stage ≠ .egress ∧ t.stage ≠ .passed) ∧
        ∃ l : List (Nat × Raise), h.fcu.inflight = s.hw.fcu.inflight ++ l ∧ l.map (·.2.source) = [src, 80 + n.val / 2]))

/-- R249, R253, R254, R255, R257, R259: a repair goes through ZEROISE, KAT, RELOAD and READMIT, each at the end of the one before. ZEROISE leaves no key in the cluster, and RELOAD gives it those of its partner; a test that fails, or in which a check
failed, is tried three times, and then the cluster is FAILED and reported; a reload lifts the pair's fence. -/
def Claim.ClusterRepairs : Prop :=
  ∀ (s : State) (n : Fin 16) (pipes : BitVec 30) (units : BitVec 3),
    let c := s.hw.clu n
    (s.hw.cluIn n 0 = false → Becomes (.zeroiseDone n) s s.hw) ∧ (s.hw.cluIn n 1 = false → Becomes (.katDone n pipes units) s s.hw) ∧
    (s.hw.cluIn n 2 = false → Becomes (.reloadDone n) s s.hw) ∧ (s.hw.cluIn n 3 = false → Becomes (.readmit n) s s.hw) ∧
    (s.hw.cluIn n 0 = true → s.hw.resets = [] → CarriesOut (.zeroiseDone n) s fun h =>
      h.cluIn n 1 = true ∧ h.clu n = { c with keys := [], attempts := 1, checkFailed := false } ∧ h.fcu = s.hw.fcu) ∧
    (s.hw.cluIn n 1 = true → pipes = 0 → units = 0 → c.checkFailed = false → CarriesOut (.katDone n pipes units) s fun h =>
      h.fcu = s.hw.fcu ∧ if c.manual && s.hw.regBit (Reg.CLU_CTL n) 0 then h.cluState n = 2 else h.cluIn n 2 = true) ∧
    (s.hw.cluIn n 1 = true → (pipes ≠ 0 ∨ units ≠ 0 ∨ c.checkFailed = true) → c.attempts < 3 → CarriesOut (.katDone n pipes units) s fun h =>
      h.cluIn n 1 = true ∧ h.clu n = { c with attempts := c.attempts + 1, checkFailed := false } ∧ h.fcu = s.hw.fcu) ∧
    (s.hw.cluIn n 1 = true → (pipes ≠ 0 ∨ units ≠ 0 ∨ c.checkFailed = true) → 3 ≤ c.attempts → CarriesOut (.katDone n pipes units) s fun h =>
      h.cluState n = 4 ∧ Reported s.hw h (48 + n.val)) ∧
    (s.hw.cluIn n 2 = true → s.hw.regBit (Reg.CLU_STAT n) 9 = false → s.hw.cluAble (partner n) = true → CarriesOut (.reloadDone n) s fun h =>
      h.cluIn n 3 = true ∧ (h.clu n).keys = (s.hw.clu (partner n)).keys ∧ h.txns = s.hw.txns ∧ h.ports = s.hw.ports) ∧
    (s.hw.cluIn n 2 = true → s.hw.regBit (Reg.CLU_STAT n) 9 = true → Becomes (.reloadDone n) s (((s.hw.reloadKeys n).cluGo n 1 3).unfencePair n)) ∧
    (s.hw.cluIn n 3 = true → CarriesOut (.readmit n) s fun h =>
      h.cluState n = 0 ∧ h.regBit (Reg.CLU_STAT n) 8 = decide (s.hw.cluState (partner n) ≠ 0) ∧ h.regBit (Reg.CLU_STAT (partner n)) 8 = false ∧
      h.cluState (partner n) = s.hw.cluState (partner n) ∧ h.reg (Reg.CLU_PIPE_FAULT n) = 0 ∧ h.reg (Reg.CLU_UNIT_FAULT n) = 0 ∧ (h.clu n).gated = s.hw.frugal ∧
      h.txns = s.hw.txns ∧ h.fcu = s.hw.fcu ∧ h.ports = s.hw.ports)

/-- R255, R258: CLU.CTL isolates a cluster while its partner is in service and refuses otherwise; isolate written 0 puts a MANUAL_OUT cluster back through RELOAD; retest begins a repair of a HELD or FAILED one. -/
def Claim.ClusterControls : Prop :=
  ∀ (s : State) (n : Fin 16) (value : Word) (c : Instr), (c = .isolate n value ∨ c = .retest n value) → s.hw.prime.ready = true →
    let q := partner n
    (bit value 0 = true → bit value 1 = false →
      (s.hw.cluState q ≠ 0 → CarriesOut c s fun h => h.regBit (Reg.CLU_STAT n) 10 = true ∧ h.cluState n = s.hw.cluState n ∧ h.clus = s.hw.clus ∧ h.txns = s.hw.txns) ∧
      (s.hw.cluState q = 0 → s.hw.cluState n = 0 → CarriesOut c s fun h =>
        h.cluIn n 0 = true ∧ (h.clu n).manual = true ∧ h.regBit (Reg.CLU_CTL n) 0 = true ∧ h.regBit (Reg.CLU_STAT q) 8 = true ∧ h.txns = s.hw.txns ∧ h.fcu = s.hw.fcu)) ∧
    (bit value 0 = false → bit value 1 = false → s.hw.cluState n = 2 → CarriesOut c s fun h => h.cluIn n 2 = true ∧ h.clus = s.hw.clus ∧ h.txns = s.hw.txns) ∧
    (bit value 0 = false → bit value 1 = true → s.hw.cluState n = 3 ∨ s.hw.cluState n = 4 → CarriesOut c s fun h =>
      h.cluIn n 0 = true ∧ (h.clu n).since = s.hw.clk.now ∧ (h.clu n).attempts = 0 ∧ h.txns = s.hw.txns ∧ h.fcu = s.hw.fcu)

/-- R250 to R258: the repair of a cipher cluster. The model's own choices in it: log entries 1, 4 and 30. -/
def Obligations.ClusterRepair : Prop := Claim.ClusterFails ∧ Claim.ClusterRepairs ∧ Claim.ClusterControls

/-- R409, R412 to R414, R417, R418: the raise detected first reaches the FCU, or one that a checker reports does; of those detected at one time the one of the smallest source. It sets the source pending, is counted, is FIRST where none is, and takes each reaction in its class's mask; while its source was not pending it enters the history. A source that does not exist does nothing. -/
def Claim.RaiseTaken : Prop :=
  (∀ (f : Fcu) (x : Nat × Raise), f.first = some x → x ∈ f.inflight ∧ (∀ y, f.inflight.head? = some y → x.1 = y.1) ∧
    ∀ y ∈ f.inflight.takeWhile (fun y => y.1 == x.1), x.2.source ≤ y.2.source) ∧
  (∀ s : State, s.hw.fcu.inflight = [] → Becomes (.faultRaise none) s s.hw) ∧
  ∀ (s : State) (r : Raise) (rest : List (Nat × Raise)) (c : Instr), r.source ≠ 273 → r.source ≠ 275 → r.source ≠ 277 →
    ((c = .faultRaise none ∧ ∃ x, s.hw.fcu.first = some x ∧ x.2 = r ∧ rest = s.hw.fcu.inflight.erase x) ∨
      (c = .faultRaise (some r) ∧ s.hw.fcu.inflight = rest ∧ s.hw.inject.remaining = 0 ∧ r.source ≠ 287)) →
    let k := r.source
    let mask := s.hw.reactOf (s.hw.classOf k)
    let n := s.hw.fcu.counts.get 0 k
    (sourceExists k = false → Becomes c s { s.hw with fcu.inflight := rest }) ∧
    (sourceExists k = true → CarriesOut c s fun h =>
      h.pending k = true ∧ h.fcu.counts.get 0 k = min (n + 1) 0xFFFF ∧ (∀ j, j ≠ k → h.fcu.counts.get 0 j = s.hw.fcu.counts.get 0 j) ∧ rest <+: h.fcu.inflight ∧
      h.reg Reg.FAULT_FIRST = (if s.hw.regBit Reg.FAULT_FIRST 31 then s.hw.reg Reg.FAULT_FIRST else BitVec.ofNat 32 (k + 2 ^ 31)) ∧
      (bit mask 0 = true → h.regBit (Reg.ICU_PEND (k / 32)) (k % 32) = true) ∧ (bit mask 1 = true → h.regBit Reg.ICU_TRAP_STAT 31 = true) ∧
      (bit mask 3 = true → h.fcu.chipRst = true) ∧ (bit mask 2 = false → h.resets = s.hw.resets ∧ h.cfe = s.hw.cfe ∧ h.txns = s.hw.txns ∧ h.obj = s.hw.obj) ∧
      (∀ d, bit mask 2 = true → k ≠ 248 → k ≠ 249 → k ≠ 257 → domainOf k = some d → s.hw.inReset d = false → s.hw.inReset .block = false →
        ∃ run, h.resets = run :: (if d = .block then [] else s.hw.resets) ∧ run.dom = d ∧ run.source = some k ∧ run.start = s.hw.clk.now) ∧
      (s.hw.pending k = true → h.fcu.hist = s.hw.fcu.hist ∧ h.fcu.lost = s.hw.fcu.lost) ∧
      (s.hw.pending k = false → s.hw.fcu.hist.length < 16 → ∃ e, h.fcu.hist = s.hw.fcu.hist ++ [e] ∧ fld e.w0 0 9 = k ∧ e.w1 = r.detail) ∧
      (s.hw.pending k = false → 16 ≤ s.hw.fcu.hist.length → h.fcu.hist = s.hw.fcu.hist ∧ h.fcu.lost = min (s.hw.fcu.lost + 1) 255))

/-- R415, R417, R418: a W1C write of FAULT.PENDn clears the bits written 1, HIST_POP takes the oldest history entry away, CLEAR_ALL clears every pending bit, count and FIRST; ERR_OUT follows the pending sources whose class asserts it. -/
def Claim.FaultsCleared : Prop :=
  (∀ (s : State) (i : Fin 12) (value : Word), s.hw.prime.ready = true →
    CarriesOut (.faultClear i value) s fun h =>
      h.reg (Reg.FAULT_PEND i) = s.hw.reg (Reg.FAULT_PEND i) &&& ~~~value ∧ (∀ j, j < 12 → j ≠ i.val → h.reg (Reg.FAULT_PEND j) = s.hw.reg (Reg.FAULT_PEND j)) ∧
      h.fcu = s.hw.fcu ∧ h.reg Reg.FAULT_FIRST = s.hw.reg Reg.FAULT_FIRST ∧
      h.out = s.hw.out ++ (if decide (0 < h.errHolders) != decide (0 < s.hw.errHolders) && s.hw.fcu.errValid then [.errOut true (decide (0 < h.errHolders) == s.hw.fcu.errHigh)] else []) ++
        [.regAnswer 0 0]) ∧
  (∀ (s : State) (value : Word),
    WritesOk (.histPop value) s (if bit value 0 then { s.hw with fcu.hist := s.hw.fcu.hist.drop 1 } else s.hw) ∧
    (bit value 0 = false → WritesOk (.clearAll value) s s.hw) ∧
    (bit value 0 = true → s.hw.prime.ready = true → CarriesOut (.clearAll value) s fun h =>
      (∀ k, k < 384 → h.pending k = false) ∧ h.fcu = { s.hw.fcu with counts := [] } ∧ h.reg Reg.FAULT_FIRST = 0))

/-- R419, R420, R421: injection is refused by the Register Port while the block is joined; otherwise CTL arms the checker that SEL names, or disarms, and RAISE raises a source that exists, flagged as injected. -/
def Claim.Injection : Prop :=
  ∀ (s : State) (value : Word),
    (s.hw.joined = true → WritesOk (.injectArm value) s (s.hw.pageFault 0x22 .denied) ∧ WritesOk (.injectRaise value) s (s.hw.pageFault 0x22 .denied)) ∧
    (s.hw.joined = false → s.hw.prime.ready = true →
      (bit value 0 = true → badSelect (s.hw.reg Reg.INJECT_SEL) = false → CarriesOut (.injectArm value) s fun h =>
        h.inject = { s.hw.inject with sel := s.hw.reg Reg.INJECT_SEL, remaining := max (fld value 8 8) 1, disarmed := false } ∧ h.regBit Reg.INJECT_CTL 0 = true ∧ h.fcu = s.hw.fcu) ∧
      (bit value 0 = true → badSelect (s.hw.reg Reg.INJECT_SEL) = true → CarriesOut (.injectArm value) s fun h => h.inject = s.hw.inject ∧ h.fcu = s.hw.fcu) ∧
      (bit value 0 = false → CarriesOut (.injectArm value) s fun h => h.inject = { s.hw.inject with remaining := 0 } ∧ h.regBit Reg.INJECT_CTL 0 = false ∧ h.fcu = s.hw.fcu) ∧
      (bit value 31 = true → sourceExists (fld value 0 9) = true → CarriesOut (.injectRaise value) s fun h =>
        ∃ r, h.fcu.inflight = s.hw.fcu.inflight ++ [r] ∧ r.2.source = fld value 0 9 ∧ r.2.injected = true) ∧
      ((bit value 31 = false ∨ sourceExists (fld value 0 9) = false) → WritesOk (.injectRaise value) s s.hw))

/-- R422 to R425: a pass with the detector off, or with no cycle, names none; a cycle is counted until a pass beyond the third finds it with the grace past, and then its last-issued wait completes TIMEOUT, its queue becomes guilty and HANG_CYCLE is raised. A unit that holds work and stands still is named and raised; an idle one is not. The model's own choices in it: log entries 1, 4 and 34. -/
def Obligations.HangDetector : Prop :=
  ∀ s : State,
    (s.hw.regBit Reg.HANG_CTL 0 = false → Becomes .hangPass s { s.hw with hangs := [] }) ∧
    (s.hw.regBit Reg.HANG_CTL 0 = true →
      (s.hw.hangCycles = [] → Becomes .hangPass s ({ s.hw with hangs := [] }.setReg Reg.HANG_STAT (BitVec.ofNat 32 (min s.hw.hangEdges 4095)))) ∧
      ∀ c, s.hw.hangCycles = [c] →
        (s.hw.hangConfirmed (s.hw.hangCount c) = false → Becomes .hangPass s
          ({ s.hw with hangs := [s.hw.hangCount c] }.setReg Reg.HANG_STAT (BitVec.ofNat 32 (min s.hw.hangEdges 4095 + 65536)))) ∧
        ∀ g rest o, s.hw.hangConfirmed (s.hw.hangCount c) = true → fromGuilty c = g :: rest → s.hw.op g.queue g.op = some o → o.ended = false → (s.hw.queue g.queue).st = .active →
          CarriesOut .hangPass s fun h => h.hangs = [] ∧ (h.op g.queue g.op).map QOp.st = some (.done .timeout 0 true (BitVec.ofNat 32 (s.hw.fence g.fence).value.toNat)) ∧
            (h.queue g.queue).st = .resetting ∧ ∃ r ∈ h.fcu.inflight, r.2.source = 257) ∧
    ∀ u : Fin 5, (s.hw.unitBusy u = false → Becomes (.unitHang u) s s.hw) ∧
      (s.hw.unitBusy u = true → CarriesOut (.unitHang u) s fun h =>
        Reported s.hw h (258 + u.val) ∧ h.reg Reg.HANG_LAST_UNIT = BitVec.ofNat 32 (u.val + 2 ^ 31) ∧ h.txns = s.hw.txns ∧ h.cfe = s.hw.cfe)

/-- R426 to R428: RESET.CMD starts the reset of a domain that none covers; at the end of its drain what it held is answered ABORTED with zeros and the domain is cleared, the block once the completion records of its drain have been written (R268), then tested, and released once it has passed. -/
def Claim.DomainResets : Prop :=
  (∀ (s : State) (value : Word),
    (Domain.ofNum (fld value 0 4) = none → WritesOk (.resetCmd value) s (s.hw.pageFault 0x1D .reservedWrite)) ∧
    ∀ d, Domain.ofNum (fld value 0 4) = some d →
      ((bit value 31 = false ∨ s.hw.inReset d = true ∨ s.hw.inReset .block = true) → WritesOk (.resetCmd value) s s.hw) ∧
      (bit value 31 = true → s.hw.inReset d = false → s.hw.inReset .block = false → s.hw.prime.ready = true → CarriesOut (.resetCmd value) s fun h =>
        h.resets = { dom := d, phase := if s.hw.pow.rung == .u0 && s.hw.pow.moving == none then .drain else .fence, start := s.hw.clk.now, source := none } ::
          (if d = .block then [] else s.hw.resets))) ∧
  (∀ (s : State) (d : Domain),
    let go := fun (p : ResetPhase) => s.hw.resets.map fun r => if r.dom = d then { r with phase := p } else r
    (((∀ r ∈ s.hw.resets, r.dom = d → r.phase ≠ .fence ∧ r.phase ≠ .drain) ∨ s.hw.pow.rung ≠ .u0) → Becomes (.resetDrainEnd d) s s.hw) ∧
    ((∃ r ∈ s.hw.resets, r.dom = d ∧ (r.phase = .fence ∨ r.phase = .drain)) → s.hw.pow.rung = .u0 → CarriesOut (.resetDrainEnd d) s fun h =>
      h.resets = go .clear ∧ ∀ t ∈ s.hw.txns, t.inDomain d = true → (∃ p, t.src = .utp p) → ∀ u ∈ h.txns, u.id = t.id → u.stage = .ready ∧ u.status = .aborted ∧ ∀ l ∈ u.answer, l = 0) ∧
    ((∀ r ∈ s.hw.resets, r.dom = d → r.phase ≠ .clear) → s.hw.dom.leaving = [] → Becomes (.resetClearDone d) s s.hw) ∧
    ((∃ r ∈ s.hw.resets, r.dom = d ∧ r.phase = .clear) → s.hw.dom.leaving = [] → d = .block → (∃ q ∈ s.hw.cfe.queues, s.hw.statusOpen q.1 = true) → Becomes (.resetClearDone d) s s.hw) ∧
    ((∃ r ∈ s.hw.resets, r.dom = d ∧ r.phase = .clear) → s.hw.dom.leaving = [] → (d = .block → ∀ q ∈ s.hw.cfe.queues, s.hw.statusOpen q.1 = false) → CarriesOut (.resetClearDone d) s fun h =>
      h.resets = go .test ∧
      (d = .pump → h.pump.ranges = [] ∧ h.pump.wet = none ∧ h.gkt.rounds = [] ∧ ∀ t ∈ h.txns, t.src ≠ .pump) ∧
      (d = .bru → ∀ c ∈ h.sched.ctxs, c.blind = false) ∧
      (d = .scu → h.scu.booting = true ∧ h.scu.sessions = [] ∧ h.scu.join = none ∧ h.scuUp = false ∧ h.reg Reg.SCU_RESET_GEN = s.hw.reg Reg.SCU_RESET_GEN + 1) ∧
      (∀ k : Fin 8, d = .pair k → ∀ n, n / 2 = k.val → h.cluIn n 1 = true ∧ (h.clu n).keys = [] ∧ ((s.hw.port n).sess = .up → (h.port n).sess = .ending)) ∧
      (d = .block → h.prime.phase = some (match s.hw.prime.phase with | some (.cold, _) => .cold | _ => .block, 1) ∧ h.prime.ready = false ∧ h.txns = [] ∧ h.pow = Hw.reset.pow ∧ h.cfe.queues = [] ∧ h.gate = Hw.reset.gate ∧
        h.rgl = Hw.reset.rgl ∧ h.bru.ctxs = [] ∧ h.regions.table = s.hw.regions.table ∧ h.per = s.hw.per ∧ h.well = s.hw.well)) ∧
    ((∀ r ∈ s.hw.resets, r.dom = d → r.phase ≠ .test) → Becomes (.resetRelease d) s s.hw) ∧
    (s.hw.tested d = false → Becomes (.resetRelease d) s s.hw) ∧
    ∀ r, (s.hw.resets.find? fun x => x.dom == d && x.phase == .test) = some r → s.hw.tested d = true → (∀ p, (s.hw.port p).waiting = []) → CarriesOut (.resetRelease d) s fun h =>
      h.resets = s.hw.resets.filter (fun x => x.dom != d) ∧ h.reg Reg.RESET_LAST =
        BitVec.ofNat 32 (d.num + 16 * r.source.getD 0 + 8192 * b2n r.source.isNone + 65536 * min ((s.hw.clk.now - r.start) / 1000) 0xFFFF))

/-- R81, R429, R430: what the reset pins do. A cold reset loses everything but what no reset clears; a warm reset keeps faults, history, the Well, regions and persistent words, loses what is in flight, and gives way to a cold one that is held; one that meets a cold priming begins it again. Priming begins when the pin is released. -/
def Claim.PinResets : Prop :=
  ∀ s : State,
    (CarriesOut .rstCold s fun h => h.regs = [] ∧ h.txns = [] ∧ h.cis = Hw.reset.cis ∧ h.obj = Hw.reset.obj ∧ h.cfe = Hw.reset.cfe ∧ h.fcu = Hw.reset.fcu ∧ h.well = Hw.reset.well ∧
      h.regions = Hw.reset.regions ∧ h.gkt = Hw.reset.gkt ∧ h.scu = Hw.reset.scu ∧ h.dom = Hw.reset.dom ∧ h.prime.pinHeld = some .cold ∧ h.prime.ready = false ∧ h.prime.phase = none) ∧
    (s.hw.prime.pinHeld = some .cold → Becomes .rstWarm s s.hw) ∧
    (s.hw.prime.pinHeld ≠ some .cold → CarriesOut .rstWarm s fun h =>
      h.prime.pinHeld = some (match s.hw.prime.phase with | some (.cold, _) => .cold | _ => .warm) ∧ h.prime.ready = false ∧ h.prime.phase = none ∧ h.resets = [] ∧ h.fcu.chipRst = false ∧ h.fcu.hist = s.hw.fcu.hist ∧ h.fcu.counts = s.hw.fcu.counts ∧ h.txns = [] ∧ h.pow = Hw.reset.pow ∧
      h.cfe.queues = [] ∧ h.gate = Hw.reset.gate ∧ (∀ k, k < 384 → h.pending k = s.hw.pending k) ∧ h.well = s.hw.well ∧ h.regions.table = s.hw.regions.table ∧ h.per = s.hw.per) ∧
    (s.hw.prime.pinHeld = none → Becomes .resetPinRelease s s.hw) ∧
    ∀ k, s.hw.prime.pinHeld = some k → s.hw.prime.phase = none → Becomes .resetPinRelease s
      { s.hw with prime := { s.hw.prime with pinHeld := none, phase := some (k, 1), ready := false, entropyFailed := false } }

/-- R363, R373, R378, R411, R467 to R471: the phases of priming. Cold priming reads the fuses and settles the life-cycle state; then the persistent words come into force, the random sources start or are stopped for good, each cluster is tested up to three times and is FAILED where the last test fails, and BLK_READY is driven. The first write of FW_BASE_LO starts the SCU's boot. The model's own choices in it: log entries 1, 4, 9, 14 and 48. -/
def Obligations.Priming : Prop :=
  ∀ (s : State) (svn : Nat) (used : BitVec 16) (kats : List (Fin 16 × List (BitVec 30 × BitVec 3))) (reads : List (Fin 512 × Bool × Bool)) (value : Word),
    let c : Instr := .primingPhaseEnd svn used kats reads
    (s.hw.prime.phase = none → Becomes c s s.hw) ∧
    (s.hw.prime.phase = some (.cold, 1) → CarriesOut c s fun h =>
      h.prime = { s.hw.prime with phase := some (.cold, 2) } ∧ h.lcs.fuses = s.nv.fuses ∧
      h.lcsState = (lcsSettled (s.nv.fuses.get 0 0) (s.nv.fuses.get 0 1) (s.nv.fuses.get 0 2)).1 ∧ h.regBit Reg.LCS_STATE 3 = (lcsSettled (s.nv.fuses.get 0 0) (s.nv.fuses.get 0 1) (s.nv.fuses.get 0 2)).2) ∧
    (∀ k, k ≠ .cold → s.hw.prime.phase = some (k, 1) → CarriesOut c s fun h =>
      h.prime = { s.hw.prime with phase := some (k, 2) } ∧ h.reg Reg.SCU_RESET_GEN = s.hw.reg Reg.SCU_RESET_GEN + 1 ∧ h.lcs = s.hw.lcs) ∧
    (∀ k, s.hw.prime.phase = some (k, 2) → CarriesOut c s fun h =>
      h.prime = { s.hw.prime with phase := some (k, 3) } ∧ h.fcu.errValid = true ∧ h.fcu.errHigh = bit (h.perVal 0) 0 ∧
      (k = .cold → ∀ i, i < 48 → h.reg (Reg.SEVTAB_CLASS i) = sevClassBits i (h.perVal (0x020 + i)))) ∧
    (∀ k, s.hw.prime.phase = some (k, 3) → CarriesOut c s fun h => h.prime.phase = some (k, 4) ∧
      (s.hw.regBit Reg.CISTERN_TRNG_STAT 1 = false → h.regBit Reg.CISTERN_TRNG_STAT 0 = true ∧ h.drbgReady = true ∧ h.cis.slots = s.hw.cis.slots ∧ h.prime.entropyFailed = s.hw.prime.entropyFailed) ∧
      (s.hw.regBit Reg.CISTERN_TRNG_STAT 1 = true → h.prime.entropyFailed = true ∧ h.cis.sets = [] ∧ h.joined = false ∧ ∀ j, h.slot j = .free)) ∧
    (∀ k, s.hw.prime.phase = some (k, 4) → CarriesOut c s fun h =>
      h.prime = { s.hw.prime with phase := none, ready := true } ∧ h.regF Reg.CAP_PORTS 0 16 = used.toNat ∧ h.scu.booting = s.hw.prime.fwBaseSeen ∧ (∃ l, h.out = s.hw.out ++ l ++ [.ready]) ∧
      ∀ n : Fin 16, let r := katTries (((kats.find? fun x => x.1 == n).map (·.2)).getD [])
        (r.1 = (0, 0) → h.cluState n = s.hw.cluState n) ∧ (r.1 ≠ (0, 0) → h.cluState n = 4 ∧ ∃ r ∈ h.fcu.inflight, r.2.source = 48 + n.val)) ∧
    (∀ w e l, s.hw.prime.phase = some (.cold, 2) → reads = [(w, e, l)] → CarriesOut c s fun h =>
      (l = true → ∃ r ∈ h.fcu.inflight, r.2.source = 207) ∧ (e = true → ∃ r ∈ h.fcu.inflight, r.2.source = 208)) ∧
    (s.hw.locked 0x15 = true → WritesOk (.fwBaseWrite value) s (s.hw.pageFault 0x15 .lockWrite)) ∧
    (s.hw.locked 0x15 = false → s.hw.prime.ready = true → CarriesOut (.fwBaseWrite value) s fun h =>
      h.reg Reg.SCU_FW_BASE_LO = value &&& 0xFFF00000 ∧ h.prime = { s.hw.prime with fwBaseSeen := true } ∧ h.scu = { s.hw.scu with booting := s.hw.scu.booting || !s.hw.prime.fwBaseSeen } ∧
      h.out = s.hw.out ++ [.regAnswer 0 0])

/-- R432, R437, R438: the oldest staged record is written at wr_ptr. The TRIGGER record's place goes to TRIG_INFO and the post records begin, each marked post; the last of them freezes the Well, and what is staged then is lost. -/
def Claim.WellWrites : Prop :=
  ∀ (s : State) (r : WellRec) (rest : List Staged),
    let w := s.hw.well
    let at_ := w.seq % 8192
    let put := fun (r : WellRec) => { w with ring := w.ring.put WellRec.empty at_ r, bad := w.bad.filter (· ≠ at_), seq := w.seq + 1, staging := rest }
    let post := { r with w0 := setBits r.w0 22 1 1 }
    let count := fld (s.hw.perVal 0x01A) 0 13
    (w.staging = [] → Becomes .wellRecordWrite s s.hw) ∧
    (w.staging = .record r :: rest → w.postLeft = none → Becomes .wellRecordWrite s { s.hw with well := put r }) ∧
    (∀ n, w.staging = .record r :: rest → w.postLeft = some (n + 2) → Becomes .wellRecordWrite s { s.hw with well := { put post with postLeft := some (n + 1) } }) ∧
    (∀ n, w.staging = .record r :: rest → w.postLeft = some n → n ≤ 1 → CarriesOut .wellRecordWrite s fun h =>
      h.well = { put post with frozen := true, staging := [], postLeft := none, lost := min (w.lost + (rest.filter Staged.isRecord).length) 0xFFFFFFFF }) ∧
    (w.staging = .trigger r :: rest → count ≠ 0 → CarriesOut .wellRecordWrite s fun h =>
      h.well = { put r with postLeft := some count } ∧ h.regF Reg.WELL_TRIG_INFO 12 13 = at_) ∧
    (w.staging = .trigger r :: rest → count = 0 → CarriesOut .wellRecordWrite s fun h => h.well.frozen = true ∧ h.well.seq = w.seq + 1 ∧ h.regF Reg.WELL_TRIG_INFO 12 13 = at_) ∧
    (w.staging = .lostTrigger :: rest → rest = [] → count ≠ 0 → CarriesOut .wellRecordWrite s fun h =>
      h.well = { w with staging := rest, postLeft := some count } ∧ h.regF Reg.WELL_TRIG_INFO 12 13 = at_)

/-- R434, R437 to R439: TRIG_NOW fires an armed Well with cause 5; REARM unfreezes and arms it for the operator (R9); MARK_GO stages a MARK record of the four mark words, or loses it while the Well is frozen. -/
def Claim.WellCommands : Prop :=
  ∀ (s : State) (value : Word),
    let w := s.hw.well
    let mark := s.hw.wellRec 7 0 0 false 0 (s.hw.reg (Reg.WELL_MARK 0)) (s.hw.reg (Reg.WELL_MARK 1)) (s.hw.reg (Reg.WELL_MARK 2)) (s.hw.reg (Reg.WELL_MARK 3))
    ((bit value 0 = false ∨ s.hw.wellArmed = false) → WritesOk (.trigNow value) s s.hw) ∧
    (bit value 0 = true → s.hw.wellArmed = true → s.hw.prime.ready = true → CarriesOut (.trigNow value) s fun h =>
      h.well.triggered = true ∧ h.reg Reg.WELL_TRIG_INFO = BitVec.ofNat 32 (5 + 2 ^ 31) ∧ h.well.ring = w.ring ∧ ∃ i, h.well.staging = w.staging ++ [i] ∧ ∀ r, i ≠ .record r) ∧
    (s.hw.prime.ready = true → s.hw.operatorIn = false → Becomes (.rearm value) s s.hw) ∧
    (s.hw.prime.ready = true → s.hw.operatorIn = true → Becomes (.rearm value) s
      (if bit value 0 then { s.hw with well := { w with triggered := false, frozen := false, postLeft := none, staging := w.staging.filterMap Staged.past } } else s.hw)) ∧
    (bit value 0 = false → WritesOk (.markGo value) s s.hw) ∧
    (bit value 0 = true → w.frozen = true → WritesOk (.markGo value) s { s.hw with well := { w with lost := min (w.lost + 1) 0xFFFFFFFF } }) ∧
    (bit value 0 = true → w.frozen = false → w.gapNext = false → (w.staging.filter Staged.isRecord).length < 16 →
      WritesOk (.markGo value) s { s.hw with well := { w with staging := w.staging ++ [.record mark] } })

/-- R442 to R445: a snapshot copies every counter into the shadow set and CLEAR zeroes the counters; CNT_CLR zeroes its page's counts and no register of another page; an export period latches the counters and begins to write them, under DETERMINISTIC once a quiet window is open (R311), counts one that falls into a running export as missed, and does nothing where the export is off, forbidden or failed. -/
def Claim.CounterCommands : Prop :=
  ∀ (s : State) (value : Word),
    WritesOk (.cntSnap value) s (if bit value 0 then { s.hw with cnt := { s.hw.cnt with shadow := s.hw.cnt.live } } else s.hw) ∧
    WritesOk (.cntClear value) s (if bit value 2 then { s.hw with cnt := { s.hw.cnt with live := [] } } else s.hw) ∧
    (∀ page : BitVec 7, let p := page.toNat
      (pagePresent p = false → s.hw.prime.ready = true → Becomes (.cntClr page value) s s.hw.unmapped) ∧
      (pagePresent p = true → p ≠ 0x22 → (bit value 0 = false ∨ cntClrOff p = none) → WritesOk (.cntClr page value) s s.hw) ∧
      (pagePresent p = true → bit value 0 = true → (cntClrOff p).isSome = true → s.hw.prime.ready = true → CarriesOut (.cntClr page value) s fun h =>
        (∀ off ∈ counterRegs p, h.reg (p * 0x1000 + off) = 0) ∧ (∀ a, a / 0x1000 ≠ p → h.reg a = s.hw.reg a) ∧ h.cnt = s.hw.cnt ∧ h.out = s.hw.out ++ [.regAnswer 0 0])) ∧
    let on := s.hw.regBit Reg.CNT_EXP_CTL 0 && bit s.hw.debugStat 2 && !s.hw.regBit Reg.CNT_EXP_STAT 1
    let taken : Hw := { s.hw with cnt := { s.hw.cnt with exporting := 1, latched := s.hw.clk.now, snap := s.hw.cnt.live } }
    (on = false → Becomes .counterExport s s.hw) ∧
    (on = true → 0 < s.hw.cnt.exporting → Becomes .counterExport s (s.hw.incReg Reg.CNT_EXP_MISS)) ∧
    (on = true → s.hw.cnt.exporting = 0 → s.hw.backgroundNow = false → Becomes .counterExport s taken) ∧
    (on = true → s.hw.cnt.exporting = 0 → s.hw.backgroundNow = true → Becomes .counterExport s
      (({ taken with cnt.exporting := 2 } : Hw).dmWrite .snapshot none 0 (taken.exportAddr + 64) ((List.range 256).flatMap fun c => leBytes (s.hw.cnt.live.get 0 c) 8)))

/-- R432 to R445: the Event Well and the counter unit. The model's own choices in it: log entries 1, 9, 39 and 48. -/
def Obligations.WellAndCounters : Prop := Claim.WellWrites ∧ Claim.WellCommands ∧ Claim.CounterCommands

/-- R78, R447 to R450: a vector whose count or timer is due becomes ready and is presented when nothing is; the core's acknowledgement takes what is presented away; writes of PEND and MASK replace the bits. -/
def Claim.Interrupts : Prop :=
  ∀ s : State,
    (∀ v : Fin 64,
      let cfg := Reg.ICU_VCFGv v
      let due := max (s.hw.regF cfg 0 16) 1 ≤ s.hw.icu.since.get 0 v ∨ (0 < s.hw.regF cfg 16 16 ∧ 0 < s.hw.icu.timer.get 0 v)
      let up := s.hw.pow.rung ≠ .u4 ∧ s.hw.pow.rung ≠ .u5
      (¬due → Becomes (.vectorFire v) s s.hw) ∧
      (due → CarriesOut (.vectorFire v) s fun h =>
        h.icu.since.get 0 v = 0 ∧ h.icu.timer.get 0 v = 0 ∧ h.icu.ready = (s.hw.icu.ready ||| ((1 : BitVec 64) <<< v.val)) ∧ h.regs = s.hw.regs ∧
        ((s.hw.icu.presented.isSome = true ∨ ¬up) → h.icu.presented = s.hw.icu.presented ∧ h.out = s.hw.out) ∧
        (s.hw.icu.presented = none → up → s.hw.regBit Reg.ICU_TRAP_STAT 31 = false → (∀ k, k < v.val → s.hw.icu.ready.getLsbD k = false) →
          h.icu.presented = some (some v.val, s.hw.icuVector v) ∧ h.out = s.hw.out ++ [.irq (s.hw.icuVector v) v false]))) ∧
    (s.hw.icu.presented = none → Becomes .irqAck s s.hw) ∧
    (∀ v a, s.hw.icu.presented = some (some v, a) → s.hw.regBit Reg.ICU_TRAP_STAT 31 = false → s.hw.icu.ready = (1 : BitVec 64) <<< v → CarriesOut .irqAck s fun h =>
      h.icu = { s.hw.icu with presented := none, ready := 0 } ∧ h.regs = s.hw.regs ∧ h.out = s.hw.out) ∧
    (∀ a, s.hw.icu.presented = some (none, a) → s.hw.icu.ready = 0 → CarriesOut .irqAck s fun h =>
      h.icu = { s.hw.icu with presented := none } ∧ h.regBit Reg.ICU_TRAP_STAT 31 = false ∧ h.out = s.hw.out) ∧
    ∀ (n : Fin 16) (value : Word), s.hw.prime.ready = true →
      ((n.val ≠ 10 ∧ n.val ≠ 11) → WritesOk (.icuPendWrite n value) s (s.hw.setReg (Reg.ICU_PEND n) (value &&& BitVec.ofNat 32 (icuLive n)))) ∧
      (CarriesOut (.icuPendWrite n value) s fun h => h.icu.presented = s.hw.icu.presented ∧ ∀ k, k < 32 → bit value k = true → bit (BitVec.ofNat 32 (icuLive n)) k = true →
        h.regBit (Reg.ICU_PEND n) k = true) ∧
      (CarriesOut (.icuMaskWrite n value) s fun h => h.reg (Reg.ICU_MASK n) = value ∧ (∀ k, k < 16 → h.reg (Reg.ICU_PEND k) = s.hw.reg (Reg.ICU_PEND k)) ∧
        h.icu.presented = s.hw.icu.presented ∧ h.icu.ready = s.hw.icu.ready)

/-- R8, R453, R456, R457: the header of a page that is present. IRQ_SET sets the bits that the page defines, fault_clr clears PAGE_FAULT, PAGE_LOCK locks a page that has fields to lock; a page that is not present is UNMAPPED. -/
def Claim.PageHeaders : Prop :=
  ∀ (s : State) (page : BitVec 7) (value : Word), s.hw.prime.ready = true →
    let p := page.toNat
    let base := p * 0x1000
    (pagePresent p = false → Becomes (.irqSet page value) s s.hw.unmapped ∧ Becomes (.faultClr page value) s s.hw.unmapped ∧ Becomes (.pageLock page value) s s.hw.unmapped) ∧
    (p = 0x22 → s.hw.joined = true → Becomes (.irqSet page value) s ((s.hw.pageFault 0x22 .denied).emit (.regAnswer 0 0))) ∧
    (pagePresent p = true → (p = 0x22 → s.hw.joined = false) →
      (CarriesOut (.irqSet page value) s fun h => h.reg (base + offIrqStat) = (s.hw.reg (base + offIrqStat) ||| (value &&& BitVec.ofNat 32 (irqBits p))) ∧
        h.fcu = s.hw.fcu ∧ h.out = s.hw.out ++ [.regAnswer 0 0]) ∧
      (CarriesOut (.faultClr page value) s fun h => h.reg (base + offCtl) = (if p = 0x20 then 0 else value &&& 1) ∧
        h.reg (base + offFault) = (if bit value 1 then 0 else s.hw.reg (base + offFault)) ∧ (∀ a, a ≠ base + offCtl → a ≠ base + offFault → h.reg a = s.hw.reg a)) ∧
      WritesOk (.pageLock page value) s (if bit value 0 && pageLockable p then s.hw.setReg (base + offLock) 1 else s.hw))

/-- R8, R67, R452, R453, R457, R466: an access of the Register Port that is no other command. A page that is not present is UNMAPPED, a management-only register DENIED; a write takes effect under the access codes, and a read answers the register's value. -/
def Claim.RegisterPort : Prop :=
  (∀ (s : State) (addr : BitVec 19), s.hw.prime.ready = true →
    let a := addr.toNat
    (pagePresent (pageOf a) = false → ∀ w, Becomes (.registerWrite none addr w) s s.hw.unmapped) ∧
    (pagePresent (pageOf a) = true → mgmtOnly a = true → ∀ w, Becomes (.registerWrite none addr w) s ((s.hw.pageFault (pageOf a) .denied).denied a w.isSome false 0 0)) ∧
    (pagePresent (pageOf a) = true → mgmtOnly a = false →
      (∀ v, WritesOk (.registerWrite none addr (some v)) s (s.hw.regWrite a v false none)) ∧
      ∀ u v, s.hw.regRead a false = (u, v) → Becomes (.registerWrite none addr none) s (u.emit (.regAnswer 0 v))) ∧
    ∀ (p : BitVec 20) w, Becomes (.registerWrite (some p) addr w) s (s.hw.swAccess p.toNat (a / 4 * 4) w)) ∧
  ∀ (h : Hw) (a : Nat) (v : Word) (r : RegRow), rowOf a = some r → h.locked (pageOf a) = false → takenAs a = [] →
    (∀ k, k < 32 → bit ((h.plainWrite a v).reg a) k =
      if r.w1c.testBit k && bit v k then false else if (r.rw ||| r.rwl).testBit k then bit v k else bit (h.reg a) k) ∧
    (∀ b, b ≠ a → (h.plainWrite a v).reg b = h.reg b)

/-- R72, R459, R462 to R466: a write of a persistent word, with the operator's credentials (R9), is refused as LAST_ERR records it, or is in force at once and queued for the NVM macro with its mirror's; the writes are issued one at a time, and when one ends the macro holds it, with its fault where it failed. The model's own choices in it: log entries 1, 4 and 9. -/
def Obligations.PersistentWrites : Prop :=
  ∀ s : State,
    (∀ (addr : BitVec 19) (value : Word), s.hw.prime.ready = true → s.hw.operatorIn = false → Becomes (.mval addr value) s s.hw) ∧
    (∀ (addr : BitVec 19) (value : Word), s.hw.prime.ready = true → s.hw.operatorIn = true →
      (s.hw.rwpWord addr.toNat = none → Becomes (.mval addr value) s s.hw) ∧
      ∀ w src, s.hw.rwpWord addr.toNat = some (w, src) →
        let v := value &&& (match rowOf addr.toNat with | some r => BitVec.ofNat 32 r.rw | none => 0)
        (∀ k, s.hw.perRefusal src w v = some k → Becomes (.mval addr value) s ((s.hw.pageFault (pageOf addr.toNat) .persist).perErr w k)) ∧
        (s.hw.perRefusal src w v = none → (∀ m, mirrorOf w = some m → s.hw.perWorn m = false) → CarriesOut (.mval addr value) s fun h =>
          h.perVal w = v ∧ (∀ x, x ≠ w → h.perVal x = s.hw.perVal x) ∧ h.regs = s.hw.regs ∧
          ∃ q, h.per.queue = s.hw.per.queue ++ q ∧ q.map (fun x => (x.word, x.value)) = (w, v) :: (mirrorOf w).toList.map fun m => (m, v))) ∧
    ((s.hw.per.issued ≠ none ∨ s.hw.per.queue = []) → Becomes .psWriteIssue s s.hw) ∧
    (∀ w rest, s.hw.per.issued = none → s.hw.per.queue = w :: rest → CarriesOut .psWriteIssue s fun h =>
      h.per = { s.hw.per with queue := rest, issued := some w } ∧ h.out = s.hw.out ++ [.persist true w.word (persistWord w.value w.count)]) ∧
    (∀ err late, s.hw.per.issued = none → Becomes (.psDone err late) s s.hw) ∧
    ∀ err late w, s.hw.per.issued = some w → w.answer = none → ∃ t, exec (.psDone err late) s = .next t ∧ t.pending = s.pending ∧ t.nv.fuses = s.nv.fuses ∧
      (err = false → t.nv.words = s.nv.words.put 0 w.word (persistWord w.value w.count)) ∧ (∀ k, k ≠ w.word → t.nv.words.get 0 k = s.nv.words.get 0 k) ∧
      t.hw.per.issued = none ∧ t.hw.per.counts.get 0 w.word = min w.count 1000000 ∧ t.hw.per.vals = s.hw.per.vals ∧ w.word ∈ t.hw.per.written ∧
      ∃ l, t.hw.fcu.inflight = s.hw.fcu.inflight ++ l ∧ l.map (fun (x : Nat × Raise) => x.2.source) = (if late then [207] else []) ++ (if err then [208] else []) ++ (if w.count = 1000000 then [210] else [])

/-- R82, R367, R377: an instruction that is loaded acts where the state opens it, and any other acts as BYPASS; IDCODE is always open and shifts the identification code out, bit 0 first. TRST_N resets the TAP, which then holds IDCODE,
and is ignored while the block is joined. -/
def Claim.TestPort : Prop :=
  ∀ (s : State) (code : BitVec 5),
    let id := BitVec.ofNat 32 (1 + 2 * fld (s.hw.fuse 3) 0 11 + 2 ^ 12 * 0x0C31 + 2 ^ 28 * 3)
    let put := fun (acts : Nat) => CarriesOut (.tapInstruction code []) s fun h => h.tap.ctrl = .runTestIdle ∧ h.tap.instr = code.toNat ∧
      (∃ l, h.out = s.hw.out ++ l ++ [.tap acts (if acts = 1 then some id else none)]) ∧ h.regs = s.hw.regs ∧ h.txns = s.hw.txns
    (code = 1 → put 1) ∧
    (code = 2 → put (if s.hw.joined ∨ s.hw.lcsState = .scrap then 0x1F else 2)) ∧
    (code = 0 → put (if s.hw.joined ∨ s.hw.lcsState = .scrap then 0x1F else 0)) ∧
    (code = 0x10 ∨ code = 0x11 → put (if s.hw.joined ∨ s.hw.lcsState = .scrap ∨ s.hw.lcsState = .prod then 0x1F else code.toNat)) ∧
    (code ≠ 0 → code ≠ 1 → code ≠ 2 → code ≠ 0x10 → code ≠ 0x11 → put 0x1F) ∧
    (CarriesOut (.tapInstruction 1 ([(true, false), (false, false), (false, false)] ++ List.replicate 32 (false, false))) s fun h =>
      ∃ l, h.out = s.hw.out ++ l ++ (List.range 32).map fun k => .tdo (id.getLsbD k)) ∧
    (s.hw.joined = true → Becomes .trstN s s.hw) ∧
    (s.hw.joined = false → Becomes .trstN s ({ s.hw with tap := Tap.fresh }.emit (.tap 1 (some id))))

/-- R385, R386, R389, R399, R405: a command that hands the SCU a message does nothing while no such message waits on its path, or while the DRBG that it needs does not run, or the SCU is halted (R38). A message that is taken waits while the firmware does not serve, and during PROBATION where R389 holds it; a ROM-only block answers it ERROR Unspecified; and one of a session that is not secured is answered InvalidSession. -/
def Claim.ScuTakesMessages : Prop :=
  ∀ (s : State) (c : Instr) (r : ScuReq), asks c = some r →
    (s.hw.scu.frames = [] → (r.path = .host ∧ s.hw.mbxWaits = false) ∨ (r.path = .mgmt ∧ s.hw.scu.inbox.head?.map (·.1) ≠ some r.frameType) ∨
        (r.needsDrbg = true ∧ s.hw.drbgReady = false) ∨ s.hw.scuClocked = false → Becomes c s s.hw) ∧
    ∀ msg u, ScuTakes s.hw r msg u →
      (s.hw.romServes = false → (s.hw.scuUp = false ∨ (s.hw.updPhase = 3 ∧ r.heldInProbation = true ∧ r.attests = none)) →
        Becomes c s { u with scu := { u.scu with held := [⟨msg, r⟩] } }) ∧
      (s.hw.romServes = true → (∀ o st, r ≠ .rom o st) → Becomes c s (u.scuError ⟨msg, r⟩ .unspecified)) ∧
      (∀ path id m, r = .app path id m → ScuServes s.hw r → s.hw.secured path id = none → Becomes c s (u.scuError ⟨msg, r⟩ .invalidSession))

/-- R399, R405: how the SCU answers. On the host path the answer's bytes go to the mailbox, with their length, and the mailbox is free again; on the management path they leave in frames of up to 1,492 bytes. -/
def Claim.ScuAnswers : Prop :=
  ∀ (h : Hw) (session : Option Nat) (type msg : Nat) (r : Reply),
    let bytes := Config.replyBytes session r
    let u := h.scuReply .host session type msg r
    let v := h.scuReply .mgmt session type msg r
    u.regBit Reg.ATTEST_MBX_STAT 0 = false ∧ u.reg Reg.ATTEST_MBX_RSP_LEN = BitVec.ofNat 32 (min bytes.length 65536) ∧ u.scu = h.scu ∧
    (∃ l, u.out = h.out ++ .reply .host session r :: l) ∧
    v.scu = h.scu ∧ v.regs = h.regs ∧ v.out = h.out ++ .reply .mgmt session r ::
      (List.range (max 1 ((bytes.length + 1491) / 1492))).map fun k => .mgmtFrame type msg k (max 1 ((bytes.length + 1491) / 1492)) ((bytes.drop (1492 * k)).take 1492)

/-- R397 to R403: the SPDM requests that the block serves, and their answers. The model's own choices in it: log entries 5, 32 and 46. -/
def Obligations.SpdmAnswers : Prop :=
  ∀ (s : State) (path : Path) (c : Instr) (r : SpdmReq) (msg : Nat) (u : Hw), asks c = some (.spdm path r) → ScuTakes s.hw (.spdm path r) msg u → ScuServes s.hw (.spdm path r) →
    let x : Held := ⟨msg, .spdm path r⟩
    let say := fun (v : Hw) (p : Reply) => Becomes c s (v.scuAnswer x none p)
    let no := fun (e : SpdmErr) => Becomes c s (u.scuError x e)
    (r = .getVersion → say u (.version [0x12, 0x13])) ∧
    (r = .getCapabilities → say u (.capabilities ["CERT_CAP", "CHAL_CAP", "MEAS_CAP", "KEY_EX_CAP", "ENCRYPT_CAP", "MAC_CAP"] 65536 65536)) ∧
    (r = .negotiateAlgorithms → say u (.algorithms ["ECDSA_P384", "SHA_384", "secp384r1", "AES_256_GCM", "SPDM", "DMTF"])) ∧
    (r = .getDigests → say u (.digests ((List.range 3).filterMap fun k => (u.certChain k).map fun x => (k, Config.sha384 x)))) ∧
    (∀ k, r = .getCertificate k → (∀ b, u.certChain k = some b → say u (.certificate k b)) ∧ (u.certChain k = none → no .invalidRequest)) ∧
    (∀ k n, r = .challenge k n → (∀ b, u.certChain k = some b → say u (.challengeAuth k n (u.signEc (leafSlot k) (n ++ b)))) ∧ (u.certChain k = none → no .invalidRequest)) ∧
    (∀ k n, r = .getMeasurements k n →
      (s.hw.hasAlias = false → no .unspecified) ∧
      (s.hw.hasAlias = true → k = 0xF0 → say (u.signReport 1 n none).1 (u.signReport 1 n none).2) ∧
      (s.hw.hasAlias = true → k = 0xFD → say (u.signReport 0 n none).1 (u.signReport 0 n none).2) ∧
      (s.hw.hasAlias = true → 0x81 ≤ k → k ≤ 0xBF → say (u.signReport 1 n (some (k - 0x80))).1 (u.signReport 1 n (some (k - 0x80))).2) ∧
      (s.hw.hasAlias = true → k < 0x81 → u.measIndex k = none → no .invalidRequest) ∧
      (∀ b, s.hw.hasAlias = true → k < 0x81 → u.measIndex k = some b → say u (.measurements [(k, b)] (u.signEc 6 (n ++ beBytes k 1 ++ b))))) ∧
    (∀ k e, r = .keyExchange k e →
      (2 < k → no .invalidRequest) ∧
      (k ≤ 2 → CarriesOut c s fun h => ∃ z, h.scu.sessions = (if s.hw.scu.sessions.length < 4 then s.hw.scu.sessions else s.hw.scu.sessions.drop 1) ++ [z] ∧
        z.id = s.hw.scu.nextSession ∧ z.path = path ∧ z.up = false ∧ z.auth = false ∧ z.slot = k ∧ h.scu.nextSession = s.hw.scu.nextSession + 1 ∧ h.txns = s.hw.txns ∧ h.cis = s.hw.cis)) ∧
    (∀ id m z, r = .finish id m → (s.hw.scu.sessions.find? fun y => y.id == id && y.path == path && !y.up) = some z →
      (Config.finishOk z.th2 m = true → say ((u.modSession id fun y => { y with up := true }).touchSession id) (.finish id)) ∧ (Config.finishOk z.th2 m = false → no .invalidRequest)) ∧
    (∀ id m, r = .finish id m → (s.hw.scu.sessions.find? fun y => y.id == id && y.path == path && !y.up) = none → no .invalidRequest) ∧
    (r = .unsupported → no .unsupportedRequest)

/-- R70, R386, R399, R405, R468: a frame that fails the filter, or finds no room in the receive buffer, is dropped and counted; while the SCU is halted it waits in the buffer; the SCU drops and counts one whose header is wrong, and queues one that is a whole message. A doorbell hands the SCU the mailbox, and one while a request is handled is counted. -/
def Claim.MessagesArrive : Prop :=
  (∀ (s : State) (f : MgmtFrame),
    let msg := imgField f.body 2 2
    (s.hw.prime.ready = false → Becomes (.mgmtFrame f) s s.hw) ∧
    (s.hw.prime.ready = true → s.hw.frameOk f = false ∨ s.hw.frameFits f = false → Becomes (.mgmtFrame f) s (s.hw.incReg Reg.MGMT_DROP_CNT)) ∧
    (s.hw.prime.ready = true → s.hw.frameOk f = true → s.hw.frameFits f = true → s.hw.scuClocked = false → Becomes (.mgmtFrame f) s
      { s.hw.incReg Reg.MGMT_RX_CNT with scu := { s.hw.scu with frames := s.hw.scu.frames ++ [f] } }) ∧
    (s.hw.prime.ready = true → s.hw.frameOk f = true → s.hw.scuClocked = true → s.hw.scu.frames = [] → s.hw.frameFits f = true → s.hw.lcsState ≠ .scrap → 8 ≤ f.body.length → f.body.length ≤ 1500 → imgField f.body 0 1 = 1 →
      imgField f.body 1 1 = 1 ∨ imgField f.body 1 1 = 2 → imgField f.body 4 2 = 0 → imgField f.body 6 2 = 1 → s.hw.scu.frag = none → CarriesOut (.mgmtFrame f) s fun h =>
        h.scu = { s.hw.scu with inbox := s.hw.scu.inbox ++ [(imgField f.body 1 1, msg, f.body.drop 8)] } ∧ h.out = s.hw.out ∧ h.fcu = s.hw.fcu) ∧
    (s.hw.prime.ready = true → s.hw.frameOk f = true → s.hw.scuClocked = true → s.hw.scu.frames = [] → s.hw.frameFits f = true → s.hw.lcsState ≠ .scrap → (f.body.length < 8 ∨ imgField f.body 0 1 ≠ 1 ∨ imgField f.body 6 2 = 0 ∨ 44 < imgField f.body 6 2) →
      Becomes (.mgmtFrame f) s ((s.hw.incReg Reg.MGMT_RX_CNT).incReg Reg.MGMT_DROP_CNT))) ∧
  ∀ (s : State) (value : Word),
    (bit value 0 = false → WritesOk (.mbxDoorbell value) s s.hw) ∧
    (bit value 0 = true → s.hw.regBit Reg.ATTEST_MBX_STAT 0 = false → WritesOk (.mbxDoorbell value) s (s.hw.setF Reg.ATTEST_MBX_STAT 0 1 1)) ∧
    (bit value 0 = true → s.hw.regBit Reg.ATTEST_MBX_STAT 0 = true → WritesOk (.mbxDoorbell value) s
      (s.hw.setF Reg.ATTEST_MBX_STAT 8 8 (min (s.hw.regF Reg.ATTEST_MBX_STAT 8 8 + 1) 255)))

/-- R393, R394, R408: JOIN_REQ and JOIN_KEY. A code other than 0 ends the join in progress without effect; JOIN_REQ of code 0 keeps the join, and JOIN_KEY of code 0 makes the block the member that it names, under the policy with the operator's floors, and locks the pages of R393. -/
def Claim.Joins : Prop :=
  (∀ (s : State) (path : Path) (id : Nat) (digest : BitVec 384) (ecdh kem signature image : List Byte) (z : Session) (x : Held) (w : Hw),
    let c : Instr := .joinReq path id digest ecdh kem signature image
    let policy := (w.reg Reg.ATTEST_POLICY_BASE_LO).toNat + 2 ^ 32 * w.regF Reg.ATTEST_POLICY_BASE_HI 0 10
    let v := w.dmRead .mailbox none 0 policy image.length
    let code := v.joinReqCode z digest (beBytes digest.toNat 48 ++ ecdh ++ kem) signature image
    InSession c s.hw z x w →
      (code ≠ 0 → Becomes c s ((v.joinFailed code).scuAnswer x (some z.id) (.joinResp code [] [] [] []))) ∧
      (code = 0 → CarriesOut c s fun h => ∃ j p n, h.scu.join = some j ∧ j.session = z.id ∧ j.path = z.path ∧ j.digest = digest ∧ Config.policyOf image = some (p, n) ∧ j.policy = p ∧
        h.joined = s.hw.joined ∧ h.cis = s.hw.cis ∧ h.txns = s.hw.txns)) ∧
  ∀ (s : State) (path : Path) (id : Nat) (text : List Byte) (tag : BitVec 128) (z : Session) (x : Held) (w : Hw),
    let c : Instr := .joinKey path id text tag
    let code := w.joinKeyCode z text tag
    InSession c s.hw z x w →
      (code ≠ 0 → Becomes c s ((w.joinFailed code).scuAnswer x (some z.id) (.joinDone code none [] []))) ∧
      (∀ j dms m, code = 0 → s.hw.scu.join = some j → joinKeyOpen j.key text tag = some (dms, m) → CarriesOut c s fun h =>
        h.joined = true ∧ h.memberId = m % 65536 ∧ h.dom.policy = some (s.hw.withFloor j.policy) ∧ h.scu.join = none ∧ h.scu.policyDigest = j.digest ∧ h.scu.meas = [] ∧
        (∀ p ∈ lockedPages, h.locked p = true) ∧ h.reg Reg.DEBUG_CTL = 0 ∧ h.regF Reg.ATTEST_JOIN_STAT 0 5 = 16)

/-- R395: LEAVE, signed by a sponsor, and DOMAIN_LEAVE. A bad signature is refused with 1, an update or another leave with 2, a block that is not joined with 3; otherwise the leave begins, and every ACTIVE slice is torn down. -/
def Claim.Leaves : Prop :=
  ∀ (s : State) (path : Path) (id : Nat) (signature : List Byte) (c : Instr) (z : Session) (x : Held) (w : Hw), InSession c s.hw z x w →
    let signed := !s.hw.joined || (match s.hw.dom.policy with | some p => p.sponsors | none => []).any fun k => Config.verify k ((0x45 : Byte) :: beBytes z.th2.toNat 48) signature
    (c = .leave path id signature → signed = false → Becomes c s (w.opResult (x.late (some z.id) (appOp 0x45)) 1 0 [])) ∧
    ∀ a, (c = .leave path id signature ∧ signed = true ∧ a = x.late (some z.id) (appOp 0x45)) ∨
        (c = .domainLeave path id ∧ z.auth = true ∧ z.path = .mgmt ∧ a = x.late (some z.id) 10) →
      ((2 ≤ s.hw.updPhase ∨ s.hw.dom.leaving ≠ []) → Becomes c s (w.opResult a 2 0 [])) ∧
      (s.hw.updPhase < 2 → s.hw.dom.leaving = [] → s.hw.joined = false → Becomes c s (w.opResult a 3 0 [])) ∧
      (s.hw.updPhase < 2 → s.hw.dom.leaving = [] → s.hw.joined = true → (∃ i, (s.hw.slice i).st = .active) → CarriesOut c s fun h =>
        h.dom.leaving = [2, 3, 4, 5] ∧ h.scu.leaver = some a ∧ h.regBit Reg.ATTEST_JOIN_STAT 5 = true ∧ (∀ i, (s.hw.slice i).st = .active → (h.slice i).st = .tearing) ∧
        h.joined = true ∧ h.txns.map (·.id) = s.hw.txns.map (·.id) ∧ h.memberId = s.hw.memberId)

/-- R191, R398, R406, R407, R451: the other messages of a secured session. MGMT_AUTH authenticates a session of the management path and is dropped on the host path; IDE_REFRESH_REQ is served on the host path; a management operation other than STATE is refused with 1 in a session that is not authenticated; and codes that are not assigned are refused with 4. -/
def Claim.SessionMessages : Prop :=
  ∀ (s : State) (path : Path) (id : Nat) (c : Instr) (z : Session) (x : Held) (w : Hw), InSession c s.hw z x w →
    let a := fun (op : Nat) => x.late (some z.id) op
    let rule := z.auth && z.path == .mgmt
    (∀ chain sig, c = .mgmtAuth path id chain sig →
      (z.path = .host → Becomes c s (w.setF Reg.ATTEST_MBX_STAT 0 1 0)) ∧
      (z.path = .mgmt → w.operatorOk z chain sig = true → Becomes c s ((w.modSession z.id fun y => { y with auth := true }).opResult (a (appOp 0x50)) 0 0 [])) ∧
      (z.path = .mgmt → w.operatorOk z chain sig = false → Becomes c s (((w.incReg Reg.MGMT_AUTH_FAIL_CNT).setIrq 0x19 1).opResult (a (appOp 0x50)) 1 0 []))) ∧
    (∀ stream, c = .ideRefreshReq path id stream →
      (path = .mgmt → Becomes c s (w.opResult (a (appOp 0x47)) 4 0 [])) ∧
      (path = .host → (stream.toNat ∉ s.hw.ideStreams ∨ s.hw.dom.leaving ≠ []) → Becomes c s (w.scuLate (a 0x47) (.ideDone stream.toNat 1))) ∧
      (path = .host → stream.toNat ∈ s.hw.ideStreams → s.hw.dom.leaving = [] → s.hw.ideBusy stream.toNat = true → Becomes c s (w.scuLate (a 0x47) (.ideDone stream.toNat 2))) ∧
      (path = .host → stream.toNat ∈ s.hw.ideStreams → s.hw.dom.leaving = [] → s.hw.ideBusy stream.toNat = false → CarriesOut c s fun h =>
        h.ide.asked = s.hw.ide.asked ++ [(stream.toNat, a 0x47)] ∧ (∃ ds, h.ide.pending = s.hw.ide.pending ++ ds ∧ ds.map (fun d => (d.stream, d.sub, d.dir)) =
          [(0, false), (0, true), (1, false), (1, true), (2, false), (2, true)].map fun y => (stream.toNat, y)))) ∧
    (∀ type, c = .spdmUnsupported path (some (id, type, none)) → Becomes c s (w.opResult (a (appOp type)) 4 0 [])) ∧
    (∀ type op, c = .spdmUnsupported path (some (id, type, some op)) → Becomes c s (w.opResult (a op) (if rule then 4 else 1) 0 [])) ∧
    (∀ o, asks c = some (.app path id (.op o)) → o ≠ .state → rule = false → Becomes c s (w.opResult (a o.code) 1 0 [])) ∧
    (c = .state path id → Becomes c s (w.opResult (a 0) 0 0 [w.regValue Reg.LCS_STATE true, w.regValue Reg.SCU_FW_STAT true, w.regValue Reg.SCU_UPD_STAT true, w.regValue Reg.CAP_MEMBER true])) ∧
    (rule = true →
      (∀ first count, c = .wellRead path id first count → (8191 < first ∨ count = 0 ∨ 1024 < count) → Becomes c s (w.opResult (a 6) 4 0 [])) ∧
      (∀ first count, c = .wellRead path id first count → first ≤ 8191 → 0 < count → count ≤ 1024 → Becomes c s (w.opResult (a 6) 0 0
        ([BitVec.ofNat 32 w.well.seq, BitVec.ofNat 32 w.well.seq,
          BitVec.ofNat 32 (w.well.seq % 8192 + 65536 * (b2n (decide (8192 ≤ w.well.seq)) + 2 * b2n w.well.triggered + 4 * b2n w.well.frozen)), BitVec.ofNat 32 w.well.lost] ++
          (List.range count).flatMap fun k => (List.range 8).map fun j => (w.wellRead ((first + k) % 8192)).word j))) ∧
      (∀ addr, c = .regRead path id addr → (pagePresent (pageOf addr.toNat) = false → Becomes c s (w.opResult (a 7) 4 0 [])) ∧
        (pagePresent (pageOf addr.toNat) = true → Becomes c s ((w.regRead addr.toNat true).1.opResult (a 7) 0 0 [(w.regRead addr.toNat true).2]))) ∧
      (∀ addr value, c = .regWrite path id addr value →
        (pagePresent (pageOf addr.toNat) = false → Becomes c s (w.opResult (a 8) 4 0 [])) ∧
        (pagePresent (pageOf addr.toNat) = true → w.rwpWord (addr.toNat / 4 * 4) = none → Becomes c s ((w.regWrite addr.toNat value true none).opResult (a 8) 0 0 []).scuSettle) ∧
        (∀ y src, pagePresent (pageOf addr.toNat) = true → w.rwpWord (addr.toNat / 4 * 4) = some (y, src) →
          let v := value &&& (match rowOf (addr.toNat / 4 * 4) with | some r => BitVec.ofNat 32 r.rw | none => 0)
          (w.perRefusal src y v = none → Becomes c s (w.regWrite addr.toNat value true (some (a 8))).scuSettle) ∧
          (∀ k, w.perRefusal src y v = some k → Becomes c s ((w.regWrite addr.toNat value true none).opResult (a 8) (if k = 3 then 6 else 3) 0 []).scuSettle))) ∧
      (∀ offset data store, c = .certStore path id offset data store →
        ((61440 < data.length ∨ 0x10000 < offset + data.length) → Becomes c s (w.opResult (a 9) 4 0 [])) ∧
        (data.length ≤ 61440 → offset + data.length ≤ 0x10000 → Becomes c s (((w.partitionWrite (0x90000 + offset) data).takeCert store).opResult (a 9) 0 0 []))))

/-- R191, R391, R393 to R395, R398, R406 to R408, R440, R451: joining and leaving, and the management operations. The model's own choices in it: log entries 5, 32 and 44. -/
def Obligations.DomainAndManagement : Prop := Claim.Joins ∧ Claim.Leaves ∧ Claim.SessionMessages

/-- R385, R389, R390, R409, R469: the ROM boots the first bank that passes, the one that FW_BANK names before the other, and with none the block is ROM-only and SCU_BOOT_FAIL is raised; the switch to a staged image leaves it on PROBATION or turns it away; PROBATION that is not committed ends with the old image; an exception of the SCU is raised. -/
def Claim.FirmwareRuns : Prop :=
  ∀ (s : State) (b0 b1 image : FwImage) (store : List Byte), s.hw.scu.held = [] → s.hw.scuClocked = true →
    let k := s.hw.activeBank
    let first := if k = 0 then b0 else b1
    let second := if k = 0 then b1 else b0
    let boot : Instr := .scuBoot b0 b1 store
    (s.hw.scu.booting = false → Becomes boot s s.hw) ∧
    (s.hw.scu.booting = true → s.hw.prime.entropyFailed = false → s.hw.dom.leaving = [] → s.hw.lcs.target = none →
      (s.hw.imageOk first = true → CarriesOut boot s fun h => h.scu.running = some (fwInfo k first) ∧ h.scu.booting = false ∧ h.scuUp = true ∧ h.txns = s.hw.txns) ∧
      (s.hw.imageOk first = false → s.hw.imageOk second = true → CarriesOut boot s fun h =>
        h.scu.running = some (fwInfo (1 - k) second) ∧ h.scu.booting = false ∧ h.scuUp = true ∧ h.txns = s.hw.txns)) ∧
    (s.hw.scu.booting = true → s.hw.imageOk first = false → s.hw.imageOk second = false → CarriesOut boot s fun h =>
      h.scu = { s.hw.scu with booting := false, running := none } ∧ h.romServes = true ∧ h.scuUp = false ∧ ∃ r ∈ h.fcu.inflight, r.2.source = 264) ∧
    (s.hw.scu.running = none → Becomes .scuException s s.hw) ∧
    (∀ f, s.hw.scu.running = some f → CarriesOut .scuException s fun h => Reported s.hw h 265 ∧ h.scu = s.hw.scu ∧ h.txns = s.hw.txns) ∧
    (s.hw.updPhase ≠ 2 → Becomes (.fwSwitchDone image) s s.hw) ∧
    (∀ f, s.hw.updPhase = 2 → s.hw.scu.staged = some f →
      (s.hw.imageOk image = true → fwInfo f.bank image = f → CarriesOut (.fwSwitchDone image) s fun h =>
        h.updPhase = 3 ∧ h.scu.running = some f ∧ h.scu.old = s.hw.scu.running ∧ h.scuUp = true ∧ h.reg Reg.SCU_RESET_GEN = s.hw.reg Reg.SCU_RESET_GEN + 1 ∧ h.scu.late = false) ∧
      ((s.hw.imageOk image = false ∨ fwInfo f.bank image ≠ f) → CarriesOut (.fwSwitchDone image) s fun h =>
        h.updPhase = 0 ∧ h.regF Reg.SCU_UPD_STAT 4 3 = 4 ∧ h.scu.running = s.hw.scu.running ∧ h.scu.staged = none ∧ h.scuUp = true)) ∧
    (s.hw.updPhase ≠ 3 → Becomes .probationExpiry s s.hw ∧ Becomes .probationHoldTimeout s s.hw) ∧
    (s.hw.updPhase = 3 → CarriesOut .probationExpiry s fun h =>
      h.updPhase = 0 ∧ h.regF Reg.SCU_UPD_STAT 4 3 = 3 ∧ h.scu.running = s.hw.scu.old ∧ h.scu.old = none ∧ h.scu.staged = none ∧ h.scu.sessions = []) ∧
    (∀ (t : State) x, t.hw.updPhase = 3 → t.hw.scuClocked = true → (t.hw.scu.held.filter fun y => y.req.attests.isSome).head? = some x → Becomes .probationHoldTimeout t
      ({ t.hw with scu := { t.hw.scu with held := t.hw.scu.held.erase x, late := true } }.inTransition x (x.req.attests.getD [])))

/-- R388, R390, R407: FW_STAGE writes a chunk into the bank that does not run; FW_ACTIVATE is refused with 2 while anything is under way, with 5 for an image that fails, and otherwise the switch begins; FW_COMMIT and FW_ROLLBACK are for PROBATION alone, and end it with the running image kept or the old one back. -/
def Claim.FirmwareUpdates : Prop :=
  ∀ (s : State) (path : Path) (id : Nat) (c : Instr) (z : Session) (x : Held) (w : Hw), InSession c s.hw z x w → z.auth = true → z.path = .mgmt →
    let a := fun (op : Nat) => x.late (some z.id) op
    let last := s.hw.regF Reg.SCU_UPD_STAT 4 3
    (∀ offset data, c = .fwStage path id offset data →
      ((61440 < data.length ∨ 0x40000 < offset + data.length) → Becomes c s (w.opResult (a 1) 4 0 [])) ∧
      (data.length ≤ 61440 → offset + data.length ≤ 0x40000 → Becomes c s (((w.partitionWrite (0x40000 * (1 - s.hw.activeBank) + offset) data).setPhase 1).opResult (a 1) 0 0 []))) ∧
    (∀ image, c = .fwActivate path id image →
      let busy := s.hw.scu.join.isSome = true ∨ s.hw.dom.leaving ≠ [] ∨ s.hw.lcs.target.isSome = true ∨ 2 ≤ s.hw.updPhase
      (busy → Becomes c s (w.opResult (a 2) 2 0 [])) ∧
      (¬busy → s.hw.imageOk image = false → CarriesOut c s fun h => h.updPhase = 0 ∧ h.regF Reg.SCU_UPD_STAT 4 3 = 4 ∧ h.scu.running = s.hw.scu.running ∧ h.scuUp = true) ∧
      (¬busy → s.hw.imageOk image = true → CarriesOut c s fun h =>
        h.updPhase = 2 ∧ h.scuUp = false ∧ h.scu.sessions = [] ∧ h.scu.staged = some (fwInfo (1 - s.hw.activeBank) image) ∧ h.scu.running = s.hw.scu.running ∧ h.txns = s.hw.txns)) ∧
    (∀ f raise, c = .fwCommit path id raise → s.hw.updPhase = 3 → s.hw.scu.running = some f → s.hw.perRefusal .scu 2 (BitVec.ofNat 32 f.bank) = none → CarriesOut c s fun h =>
      h.updPhase = 0 ∧ h.regF Reg.SCU_UPD_STAT 4 3 = 1 ∧ h.perVal 2 = BitVec.ofNat 32 f.bank ∧ h.scu.old = none ∧ h.scu.staged = none ∧ h.scu.running = some f ∧
      (raise = false → h.perVal 1 = s.hw.perVal 1) ∧
      (raise = true → (s.hw.perVal 1).toNat < f.svn → s.hw.perRefusal .scu 1 (BitVec.ofNat 32 f.svn) = none → h.perVal 1 = BitVec.ofNat 32 f.svn)) ∧
    (∀ raise, c = .fwCommit path id raise → s.hw.updPhase ≠ 3 → Becomes c s (w.opResult (a 3) 3 last [])) ∧
    (c = .fwRollback path id → s.hw.updPhase ≠ 3 → Becomes c s (w.opResult (a 4) 3 last [])) ∧
    (c = .fwRollback path id → s.hw.updPhase = 3 → CarriesOut c s fun h =>
      h.updPhase = 0 ∧ h.regF Reg.SCU_UPD_STAT 4 3 = 2 ∧ h.scu.running = s.hw.scu.old ∧ h.scu.old = none ∧ h.scu.sessions = [])

/-- R386: a ROM-only block answers STATE, takes FW_STAGE chunks, and boots the image of FW_ACTIVATE that passes, with FW_BANK naming its bank; FW_COMMIT without an image that passes is refused with 5, and any other operation with 3. -/
def Claim.RomOnly : Prop :=
  ∀ (s : State) (op : MgmtOp) (store : List Byte) (msg : Nat) (u : Hw), ScuTakes s.hw (.rom op store) msg u → s.hw.romServes = true →
    let c : Instr := .romRecovery op store
    let a : LateAnswer := ⟨.mgmt, none, msg, op.code, 0⟩
    (op = .state → Becomes c s (u.opResult a 0 0 [u.regValue Reg.LCS_STATE true, u.regValue Reg.SCU_FW_STAT true, u.regValue Reg.SCU_UPD_STAT true, u.regValue Reg.CAP_MEMBER true])) ∧
    (∀ offset data, op = .fwStage offset data → data.length ≤ 61440 → offset + data.length ≤ 0x40000 → Becomes c s
      ((u.partitionWrite (0x40000 * (1 - s.hw.activeBank) + offset) data).opResult a 0 0 [])) ∧
    (∀ image, op = .fwActivate image → s.hw.imageOk image = false → Becomes c s ((u.bankRead (1 - s.hw.activeBank) image).opResult a 5 0 [])) ∧
    (∀ image, op = .fwActivate image → s.hw.imageOk image = true → s.hw.perRefusal .scu 2 (BitVec.ofNat 32 (1 - s.hw.activeBank)) = none → s.hw.prime.entropyFailed = false →
      s.hw.dom.leaving = [] → s.hw.lcs.target = none → CarriesOut c s fun h =>
        h.scu.running = some (fwInfo (1 - s.hw.activeBank) image) ∧ h.scuUp = true ∧ h.perVal 2 = BitVec.ofNat 32 (1 - s.hw.activeBank)) ∧
    (∀ raise staged other, op = .fwCommit raise staged other → s.hw.imageOk staged = false → s.hw.imageOk other = false → Becomes c s
      (((u.bankRead (1 - s.hw.activeBank) staged).bankRead s.hw.activeBank other).opResult a 5 0 [])) ∧
    ((op = .fwRollback ∨ op = .domainLeave) → Becomes c s (u.opResult a 3 0 []))

/-- R73, R379, R380, R407: LCS_TRANSITION is refused with 2 while an update or a transition is under way, with 4 for a target that is no state, and with its result where R379 does not permit it; otherwise the target's transition runs. A fuse operation that ends sets its bits, and never clears one; the last of a transition leaves the new state pending, and one that fails ends it. The model's own choices in it: log entries 1, 4, 13 and 36. -/
def Obligations.LifeCycle : Prop :=
  (∀ (s : State) (path : Path) (id target : Nat) (token : Option Token) (z : Session) (x : Held) (w : Hw),
    let c : Instr := .lcsTransition path id target token
    let a := x.late (some z.id) 5
    let t := Lcs.ofNum target
    let busy := 2 ≤ s.hw.updPhase ∨ s.hw.lcs.target.isSome = true ∨ s.hw.regBit Reg.LCS_STATE 4 = true
    InSession c s.hw z x w → z.auth = true → z.path = .mgmt →
      (busy → Becomes c s (w.opResult a 2 0 [])) ∧
      (¬busy → 6 < target → Becomes c s (w.opResult a 4 0 [])) ∧
      (∀ r, ¬busy → target ≤ 6 → s.hw.lcsRefusal t token = some r → CarriesOut c s fun h =>
        h.reg Reg.LCS_TRANS_STAT = BitVec.ofNat 32 (t.num + 16 * r) ∧ h.lcs.target = none ∧ h.lcs.prog = s.hw.lcs.prog ∧ h.cis = s.hw.cis ∧ h.lcsState = s.hw.lcsState) ∧
      (¬busy → target ≤ 6 → s.hw.lcsRefusal t token = none → CarriesOut c s fun h =>
        h.lcs.target = some t ∧ h.reg Reg.LCS_TRANS_STAT = BitVec.ofNat 32 (t.num + 128) ∧ h.lcs.answer = some a ∧ (∃ ops, h.lcs.prog = s.hw.lcs.prog ++ ops) ∧ h.lcsState = s.hw.lcsState)) ∧
  (∀ (s : State) (err : Bool), s.hw.lcs.prog = [] ∨ s.hw.eraseOpen = true → Becomes (.fuseProgramDone err) s s.hw) ∧
  ∀ (s : State) (o : FuseOp) (rest : List FuseOp) (err : Bool), s.hw.lcs.prog = o :: rest → s.hw.eraseOpen = false → ∃ t, exec (.fuseProgramDone err) s = .next t ∧ t.pending = s.pending ∧
    t.nv.words = s.nv.words ∧ t.hw.lcs.fuses = t.nv.fuses ∧ (∀ k, k ≠ o.word → t.nv.fuses.get 0 k = s.nv.fuses.get 0 k) ∧
    (err = false → t.nv.fuses.get 0 o.word = s.nv.fuses.get 0 o.word ||| o.data) ∧
    (err = true → Reported s.hw t.hw 206 ∧ t.hw.lcs.prog = [] ∧ t.hw.lcs.target = none ∧
      s.nv.fuses.get 0 o.word &&& t.nv.fuses.get 0 o.word = s.nv.fuses.get 0 o.word ∧ t.nv.fuses.get 0 o.word &&& ~~~(s.nv.fuses.get 0 o.word ||| o.data) = 0) ∧
    (err = false → s.hw.lcs.target = none → t.hw.lcs.prog = rest) ∧
    (∀ g, err = false → s.hw.lcs.target = some g → rest = [] → s.hw.scuUp = true →
      t.hw.lcs.target = none ∧ t.hw.regBit Reg.LCS_STATE 4 = true ∧ t.hw.fcu.chipRst = true ∧ t.hw.reg Reg.LCS_TRANS_STAT = BitVec.ofNat 32 (g.num + 16))

/-- R67, R68, R468: RP_READY is 0 and the Management Port takes no frame until BLK_READY has been driven. Before that a write or read of the register window, of a slice window or of a page, and a management frame, change nothing. The model's own choices in it: log entry 1. -/
def Obligations.NoAccessBeforeReady : Prop :=
  ∀ s : State, s.hw.prime.ready = false →
    let same := fun (c : Instr) => Becomes c s s.hw
    (∀ (v : Word), same (.wcacheInvAll v) ∧ same (.wcacheInvBySlice v) ∧ same (.quarRel v) ∧ same (.qreset v) ∧ same (.bttInv v) ∧ same (.fenceAlloc v) ∧ same (.profileWrite v) ∧ same (.rungReq v) ∧ same (.mbxDoorbell v) ∧ same (.histPop v) ∧ same (.clearAll v) ∧ same (.injectArm v) ∧ same (.injectRaise v) ∧ same (.resetCmd v) ∧ same (.fwBaseWrite v) ∧ same (.trigNow v) ∧ same (.rearm v) ∧ same (.markGo v) ∧ same (.cntSnap v) ∧ same (.cntClear v)) ∧
    (∀ (n : Fin 16) (v : Word), same (.sessCtlRestart n v)) ∧
    (∀ (n : Fin 64) (v : Word), same (.queueEnable n v) ∧ same (.queueResume n v)) ∧
    (same (.bind) ∧ same (.remove) ∧ same (.teardown) ∧ same (.fenceFree) ∧ same (.fenceReset) ∧ same (.eventAlloc) ∧ same (.eventFree)) ∧
    (∀ (p : BitVec 20) (v : Word), same (.swFsig p v) ∧ same (.swFclr p v) ∧ same (.swEset p v)) ∧
    (∀ (n : Fin 16) (v : Word), same (.isolate n v) ∧ same (.retest n v)) ∧
    (∀ (n : Fin 12) (v : Word), same (.faultClear n v)) ∧
    (∀ (n : Fin 16) (v : Word), same (.icuPendWrite n v) ∧ same (.icuMaskWrite n v)) ∧
    (∀ (a : BitVec 19) (v : Word), same (.mval a v)) ∧
    (∀ (n : BitVec 7) (v : Word), same (.irqSet n v) ∧ same (.faultClr n v) ∧ same (.pageLock n v) ∧ same (.cntClr n v)) ∧
    (∀ (p : Option (BitVec 20)) (a : BitVec 19) (w : Option Word), same (.registerWrite p a w)) ∧
    (∀ (f : MgmtFrame), same (.mgmtFrame f)) ∧
    (∀ (v : Word), same (.pumpPause (some v))) ∧
    (∀ (n : Fin 64) (v : Word), same (.queueDoorbell n .host v)) ∧
    (∀ (p : Option (BitVec 20)) (n : Fin 32) (v : Word), same (.eventClear p n v))

/-- R177: a switch-compute request with REQ_ATYPE 3 is not sent to the fabric. When its write data beat comes no work of it waits in the Regulator and no port's egress queue changes, FABOP_OPERAND is raised, and it has RD_STATUS OK and zeros to drive; and its read data beat drives them. -/
def Obligations.ReservedComputeType : Prop :=
  (∀ (s : State) (p : Fin 8) (beat : BitVec 2048) (t : Txn), s.hw.awaiting p = some t → t.kind.compute = true → t.atype = 3 →
    CarriesOut (.writeDataBeat p beat) s fun h => Reported s.hw h 231 ∧ (∀ i ∈ h.rgl.items, i.isTxn t.id = false) ∧ h.ports = s.hw.ports ∧ h.out = s.hw.out ∧
      ∀ x ∈ h.txns, x.id = t.id → x.stage = .ready ∧ x.status = .ok ∧ x.answer = List.replicate 4 0) ∧
  ∀ (s : State) (p : Fin 8) (tag : BitVec 10) (t : Txn), s.hw.readyTxn p tag true = some t → t.kind.compute = true → t.status = .ok → t.answer = List.replicate 4 0 →
    Becomes (.readDataBeat p tag) s ((s.hw.emit (.readBeat p tag .ok (List.replicate 4 0))).dropTxn t.id)

/-- R193: a signed integer v with |v| at most (p - 1) / 2 is encoded as v mod p, a canonical lane, which decodes to v; and a canonical x decodes to x up to 0x3FFF_FFFF and to x - p beyond. -/
def Obligations.SignedLanes : Prop :=
  (∀ v : Int, -((sbiP : Int) - 1) / 2 ≤ v → v ≤ ((sbiP : Int) - 1) / 2 →
    (sbiEncode v : Int) = v % (sbiP : Int) ∧ sbiCanonical (sbiEncode v) = true ∧ sbiDecode (sbiEncode v) = v) ∧
  ∀ x : Nat, sbiCanonical x = true → sbiDecode x = (if x ≤ 0x3FFFFFFF then (x : Int) else (x : Int) - (sbiP : Int)) ∧ sbiEncode (sbiDecode x) = x

/-- R324: a fence with value c reaches v when (c - v) mod 2^64 is below 2^63; a signal of s is lower than c when (c - s) mod 2^64 lies in 1 to 2^63 - 1. Every other signal leaves a fence that reaches what was signalled, and a lower one a fence that has the value it had. -/
def Obligations.FencesCompareSerially : Prop :=
  (∀ c v : BitVec 64, fenceReaches c v = true ↔ (c.toNat + 2 ^ 64 - v.toNat) % 2 ^ 64 < 2 ^ 63) ∧
  (∀ c s : BitVec 64, fenceLower c s = true ↔ 1 ≤ (c.toNat + 2 ^ 64 - s.toNat) % 2 ^ 64 ∧ (c.toNat + 2 ^ 64 - s.toNat) % 2 ^ 64 ≤ 2 ^ 63 - 1) ∧
  ∀ (h : Hw) (f : Nat) (x : BitVec 64) (err : Option CC) (m : Nat),
    (fenceLower (h.fence f).value x = true → ((h.fenceSignal f x err m).fence f).value = (h.fence f).value) ∧
    (fenceLower (h.fence f).value x = false → ∀ v, fenceReaches ((h.fenceSignal f x err m).fence f).value v = fenceReaches x v)

/-- R409 to R421: the Fault Control Unit and injection. The model's own choices in it: log entries 1, 4, 9 and 48. -/
def Obligations.Faults : Prop := Claim.RaiseTaken ∧ Claim.FaultsCleared ∧ Claim.Injection

/-- R81, R426 to R430: resets of a domain and the reset pins. The model's own choices in it: log entries 1, 33 and 48. -/
def Obligations.Resets : Prop := Claim.DomainResets ∧ Claim.PinResets

/-- R78, R82, R367, R377, R447 to R450: interrupts and the TAP. The model's own choices in it: log entries 1, 9, 35 and 48. -/
def Obligations.InterruptsAndTestPort : Prop := Claim.Interrupts ∧ Claim.TestPort

/-- R8, R67, R452, R453, R456, R457, R466: the pages of the register window. The model's own choices in it: log entries 1, 9 and 48. -/
def Obligations.RegisterWindow : Prop := Claim.PageHeaders ∧ Claim.RegisterPort

/-- R385 to R390, R407, R409, R469: SCU firmware, its update, and a ROM-only block. The model's own choices in it: log entries 1, 4 and 45. -/
def Obligations.Firmware : Prop := Claim.FirmwareRuns ∧ Claim.FirmwareUpdates ∧ Claim.RomOnly

/-- R70, R385, R386, R389, R399, R405, R468: messages to the SCU, and its answers. The model's own choices in it: log entries 1, 5, 9, 32 and 48. -/
def Obligations.ScuMessages : Prop := Claim.ScuTakesMessages ∧ Claim.ScuAnswers ∧ Claim.MessagesArrive
end

