-- ==== Sys2Proof/Laws/State.lean ====
section
/-! SUPPORT. What each shared operation leaves as it was: one lemma for each field and each operation. -/

namespace Sys2Proof.Machine

variable (h : Hw)

/-- What each step of a fold keeps, the fold keeps. -/
theorem foldl_keeps {α β : Type} (f : Hw → β) (g : Hw → α → Hw) (hk : ∀ h a, f (g h a) = f h) (l : List α) (h : Hw) : f (l.foldl g h) = f h := by
  induction l generalizing h with
  | nil => rfl
  | cons x xs ih => rw [List.foldl_cons, ih, hk]

/-- Interrupt bits of a list set one after another keep a field that one of them keeps. -/
theorem foldl_setIrq_keeps {β : Type} (f : Hw → β) (hk : ∀ (h : Hw) p k, f (h.setIrq p k) = f h) (l : List (Nat × Nat)) (h : Hw) :
    f (l.foldl (fun h pb => h.setIrq pb.1 pb.2) h) = f h := by
  induction l generalizing h with
  | nil => rfl
  | cons x xs ih => rw [List.foldl_cons, ih, hk]

@[simp] theorem Hw.setReg_latch (a : Nat) (w : Word) : (h.setReg a w).latch = h.latch := rfl
@[simp] theorem Hw.setReg_pow (a : Nat) (w : Word) : (h.setReg a w).pow = h.pow := rfl
@[simp] theorem Hw.setReg_clk (a : Nat) (w : Word) : (h.setReg a w).clk = h.clk := rfl
@[simp] theorem Hw.setReg_gate (a : Nat) (w : Word) : (h.setReg a w).gate = h.gate := rfl
@[simp] theorem Hw.setReg_regions (a : Nat) (w : Word) : (h.setReg a w).regions = h.regions := rfl
@[simp] theorem Hw.setReg_txns (a : Nat) (w : Word) : (h.setReg a w).txns = h.txns := rfl
@[simp] theorem Hw.setReg_nextTxn (a : Nat) (w : Word) : (h.setReg a w).nextTxn = h.nextTxn := rfl
@[simp] theorem Hw.setReg_rgl (a : Nat) (w : Word) : (h.setReg a w).rgl = h.rgl := rfl
@[simp] theorem Hw.setReg_sumpWords (a : Nat) (w : Word) : (h.setReg a w).sumpWords = h.sumpWords := rfl
@[simp] theorem Hw.setReg_ports (a : Nat) (w : Word) : (h.setReg a w).ports = h.ports := rfl
@[simp] theorem Hw.setReg_gkt (a : Nat) (w : Word) : (h.setReg a w).gkt = h.gkt := rfl
@[simp] theorem Hw.setReg_pump (a : Nat) (w : Word) : (h.setReg a w).pump = h.pump := rfl
@[simp] theorem Hw.setReg_gw (a : Nat) (w : Word) : (h.setReg a w).gw = h.gw := rfl
@[simp] theorem Hw.setReg_bru (a : Nat) (w : Word) : (h.setReg a w).bru = h.bru := rfl
@[simp] theorem Hw.setReg_shaper (a : Nat) (w : Word) : (h.setReg a w).shaper = h.shaper := rfl
@[simp] theorem Hw.setReg_sched (a : Nat) (w : Word) : (h.setReg a w).sched = h.sched := rfl
@[simp] theorem Hw.setReg_cfe (a : Nat) (w : Word) : (h.setReg a w).cfe = h.cfe := rfl
@[simp] theorem Hw.setReg_obj (a : Nat) (w : Word) : (h.setReg a w).obj = h.obj := rfl
@[simp] theorem Hw.setReg_fcu (a : Nat) (w : Word) : (h.setReg a w).fcu = h.fcu := rfl
@[simp] theorem Hw.setReg_clus (a : Nat) (w : Word) : (h.setReg a w).clus = h.clus := rfl
@[simp] theorem Hw.setReg_dom (a : Nat) (w : Word) : (h.setReg a w).dom = h.dom := rfl
@[simp] theorem Hw.setReg_hangs (a : Nat) (w : Word) : (h.setReg a w).hangs = h.hangs := rfl
@[simp] theorem Hw.setReg_resets (a : Nat) (w : Word) : (h.setReg a w).resets = h.resets := rfl
@[simp] theorem Hw.setReg_inject (a : Nat) (w : Word) : (h.setReg a w).inject = h.inject := rfl
@[simp] theorem Hw.setReg_well (a : Nat) (w : Word) : (h.setReg a w).well = h.well := rfl
@[simp] theorem Hw.setReg_cnt (a : Nat) (w : Word) : (h.setReg a w).cnt = h.cnt := rfl
@[simp] theorem Hw.setReg_icu (a : Nat) (w : Word) : (h.setReg a w).icu = h.icu := rfl
@[simp] theorem Hw.setReg_per (a : Nat) (w : Word) : (h.setReg a w).per = h.per := rfl
@[simp] theorem Hw.setReg_dmp (a : Nat) (w : Word) : (h.setReg a w).dmp = h.dmp := rfl
@[simp] theorem Hw.setReg_ide (a : Nat) (w : Word) : (h.setReg a w).ide = h.ide := rfl
@[simp] theorem Hw.setReg_bulk (a : Nat) (w : Word) : (h.setReg a w).bulk = h.bulk := rfl
@[simp] theorem Hw.setReg_cis (a : Nat) (w : Word) : (h.setReg a w).cis = h.cis := rfl
@[simp] theorem Hw.setReg_scu (a : Nat) (w : Word) : (h.setReg a w).scu = h.scu := rfl
@[simp] theorem Hw.setReg_lcs (a : Nat) (w : Word) : (h.setReg a w).lcs = h.lcs := rfl
@[simp] theorem Hw.setReg_rail (a : Nat) (w : Word) : (h.setReg a w).rail = h.rail := rfl
@[simp] theorem Hw.setReg_prime (a : Nat) (w : Word) : (h.setReg a w).prime = h.prime := rfl
@[simp] theorem Hw.setReg_tap (a : Nat) (w : Word) : (h.setReg a w).tap = h.tap := rfl
@[simp] theorem Hw.setReg_free (a : Nat) (w : Word) : (h.setReg a w).free = h.free := rfl
@[simp] theorem Hw.setReg_out (a : Nat) (w : Word) : (h.setReg a w).out = h.out := rfl

@[simp] theorem Hw.setF_latch (a lo len v : Nat) : (h.setF a lo len v).latch = h.latch := rfl
@[simp] theorem Hw.setF_pow (a lo len v : Nat) : (h.setF a lo len v).pow = h.pow := rfl
@[simp] theorem Hw.setF_clk (a lo len v : Nat) : (h.setF a lo len v).clk = h.clk := rfl
@[simp] theorem Hw.setF_gate (a lo len v : Nat) : (h.setF a lo len v).gate = h.gate := rfl
@[simp] theorem Hw.setF_regions (a lo len v : Nat) : (h.setF a lo len v).regions = h.regions := rfl
@[simp] theorem Hw.setF_txns (a lo len v : Nat) : (h.setF a lo len v).txns = h.txns := rfl
@[simp] theorem Hw.setF_nextTxn (a lo len v : Nat) : (h.setF a lo len v).nextTxn = h.nextTxn := rfl
@[simp] theorem Hw.setF_rgl (a lo len v : Nat) : (h.setF a lo len v).rgl = h.rgl := rfl
@[simp] theorem Hw.setF_sumpWords (a lo len v : Nat) : (h.setF a lo len v).sumpWords = h.sumpWords := rfl
@[simp] theorem Hw.setF_ports (a lo len v : Nat) : (h.setF a lo len v).ports = h.ports := rfl
@[simp] theorem Hw.setF_gkt (a lo len v : Nat) : (h.setF a lo len v).gkt = h.gkt := rfl
@[simp] theorem Hw.setF_pump (a lo len v : Nat) : (h.setF a lo len v).pump = h.pump := rfl
@[simp] theorem Hw.setF_gw (a lo len v : Nat) : (h.setF a lo len v).gw = h.gw := rfl
@[simp] theorem Hw.setF_bru (a lo len v : Nat) : (h.setF a lo len v).bru = h.bru := rfl
@[simp] theorem Hw.setF_shaper (a lo len v : Nat) : (h.setF a lo len v).shaper = h.shaper := rfl
@[simp] theorem Hw.setF_sched (a lo len v : Nat) : (h.setF a lo len v).sched = h.sched := rfl
@[simp] theorem Hw.setF_cfe (a lo len v : Nat) : (h.setF a lo len v).cfe = h.cfe := rfl
@[simp] theorem Hw.setF_obj (a lo len v : Nat) : (h.setF a lo len v).obj = h.obj := rfl
@[simp] theorem Hw.setF_fcu (a lo len v : Nat) : (h.setF a lo len v).fcu = h.fcu := rfl
@[simp] theorem Hw.setF_clus (a lo len v : Nat) : (h.setF a lo len v).clus = h.clus := rfl
@[simp] theorem Hw.setF_dom (a lo len v : Nat) : (h.setF a lo len v).dom = h.dom := rfl
@[simp] theorem Hw.setF_hangs (a lo len v : Nat) : (h.setF a lo len v).hangs = h.hangs := rfl
@[simp] theorem Hw.setF_resets (a lo len v : Nat) : (h.setF a lo len v).resets = h.resets := rfl
@[simp] theorem Hw.setF_inject (a lo len v : Nat) : (h.setF a lo len v).inject = h.inject := rfl
@[simp] theorem Hw.setF_well (a lo len v : Nat) : (h.setF a lo len v).well = h.well := rfl
@[simp] theorem Hw.setF_cnt (a lo len v : Nat) : (h.setF a lo len v).cnt = h.cnt := rfl
@[simp] theorem Hw.setF_icu (a lo len v : Nat) : (h.setF a lo len v).icu = h.icu := rfl
@[simp] theorem Hw.setF_per (a lo len v : Nat) : (h.setF a lo len v).per = h.per := rfl
@[simp] theorem Hw.setF_dmp (a lo len v : Nat) : (h.setF a lo len v).dmp = h.dmp := rfl
@[simp] theorem Hw.setF_ide (a lo len v : Nat) : (h.setF a lo len v).ide = h.ide := rfl
@[simp] theorem Hw.setF_bulk (a lo len v : Nat) : (h.setF a lo len v).bulk = h.bulk := rfl
@[simp] theorem Hw.setF_cis (a lo len v : Nat) : (h.setF a lo len v).cis = h.cis := rfl
@[simp] theorem Hw.setF_scu (a lo len v : Nat) : (h.setF a lo len v).scu = h.scu := rfl
@[simp] theorem Hw.setF_lcs (a lo len v : Nat) : (h.setF a lo len v).lcs = h.lcs := rfl
@[simp] theorem Hw.setF_rail (a lo len v : Nat) : (h.setF a lo len v).rail = h.rail := rfl
@[simp] theorem Hw.setF_prime (a lo len v : Nat) : (h.setF a lo len v).prime = h.prime := rfl
@[simp] theorem Hw.setF_tap (a lo len v : Nat) : (h.setF a lo len v).tap = h.tap := rfl
@[simp] theorem Hw.setF_free (a lo len v : Nat) : (h.setF a lo len v).free = h.free := rfl
@[simp] theorem Hw.setF_out (a lo len v : Nat) : (h.setF a lo len v).out = h.out := rfl

@[simp] theorem Hw.addReg_latch (a n : Nat) : (h.addReg a n).latch = h.latch := rfl
@[simp] theorem Hw.addReg_pow (a n : Nat) : (h.addReg a n).pow = h.pow := rfl
@[simp] theorem Hw.addReg_clk (a n : Nat) : (h.addReg a n).clk = h.clk := rfl
@[simp] theorem Hw.addReg_gate (a n : Nat) : (h.addReg a n).gate = h.gate := rfl
@[simp] theorem Hw.addReg_regions (a n : Nat) : (h.addReg a n).regions = h.regions := rfl
@[simp] theorem Hw.addReg_txns (a n : Nat) : (h.addReg a n).txns = h.txns := rfl
@[simp] theorem Hw.addReg_nextTxn (a n : Nat) : (h.addReg a n).nextTxn = h.nextTxn := rfl
@[simp] theorem Hw.addReg_rgl (a n : Nat) : (h.addReg a n).rgl = h.rgl := rfl
@[simp] theorem Hw.addReg_sumpWords (a n : Nat) : (h.addReg a n).sumpWords = h.sumpWords := rfl
@[simp] theorem Hw.addReg_ports (a n : Nat) : (h.addReg a n).ports = h.ports := rfl
@[simp] theorem Hw.addReg_gkt (a n : Nat) : (h.addReg a n).gkt = h.gkt := rfl
@[simp] theorem Hw.addReg_pump (a n : Nat) : (h.addReg a n).pump = h.pump := rfl
@[simp] theorem Hw.addReg_gw (a n : Nat) : (h.addReg a n).gw = h.gw := rfl
@[simp] theorem Hw.addReg_bru (a n : Nat) : (h.addReg a n).bru = h.bru := rfl
@[simp] theorem Hw.addReg_shaper (a n : Nat) : (h.addReg a n).shaper = h.shaper := rfl
@[simp] theorem Hw.addReg_sched (a n : Nat) : (h.addReg a n).sched = h.sched := rfl
@[simp] theorem Hw.addReg_cfe (a n : Nat) : (h.addReg a n).cfe = h.cfe := rfl
@[simp] theorem Hw.addReg_obj (a n : Nat) : (h.addReg a n).obj = h.obj := rfl
@[simp] theorem Hw.addReg_fcu (a n : Nat) : (h.addReg a n).fcu = h.fcu := rfl
@[simp] theorem Hw.addReg_clus (a n : Nat) : (h.addReg a n).clus = h.clus := rfl
@[simp] theorem Hw.addReg_dom (a n : Nat) : (h.addReg a n).dom = h.dom := rfl
@[simp] theorem Hw.addReg_hangs (a n : Nat) : (h.addReg a n).hangs = h.hangs := rfl
@[simp] theorem Hw.addReg_resets (a n : Nat) : (h.addReg a n).resets = h.resets := rfl
@[simp] theorem Hw.addReg_inject (a n : Nat) : (h.addReg a n).inject = h.inject := rfl
@[simp] theorem Hw.addReg_well (a n : Nat) : (h.addReg a n).well = h.well := rfl
@[simp] theorem Hw.addReg_cnt (a n : Nat) : (h.addReg a n).cnt = h.cnt := rfl
@[simp] theorem Hw.addReg_icu (a n : Nat) : (h.addReg a n).icu = h.icu := rfl
@[simp] theorem Hw.addReg_per (a n : Nat) : (h.addReg a n).per = h.per := rfl
@[simp] theorem Hw.addReg_dmp (a n : Nat) : (h.addReg a n).dmp = h.dmp := rfl
@[simp] theorem Hw.addReg_ide (a n : Nat) : (h.addReg a n).ide = h.ide := rfl
@[simp] theorem Hw.addReg_bulk (a n : Nat) : (h.addReg a n).bulk = h.bulk := rfl
@[simp] theorem Hw.addReg_cis (a n : Nat) : (h.addReg a n).cis = h.cis := rfl
@[simp] theorem Hw.addReg_scu (a n : Nat) : (h.addReg a n).scu = h.scu := rfl
@[simp] theorem Hw.addReg_lcs (a n : Nat) : (h.addReg a n).lcs = h.lcs := rfl
@[simp] theorem Hw.addReg_rail (a n : Nat) : (h.addReg a n).rail = h.rail := rfl
@[simp] theorem Hw.addReg_prime (a n : Nat) : (h.addReg a n).prime = h.prime := rfl
@[simp] theorem Hw.addReg_tap (a n : Nat) : (h.addReg a n).tap = h.tap := rfl
@[simp] theorem Hw.addReg_free (a n : Nat) : (h.addReg a n).free = h.free := rfl
@[simp] theorem Hw.addReg_out (a n : Nat) : (h.addReg a n).out = h.out := rfl

@[simp] theorem Hw.incReg_latch (a : Nat) : (h.incReg a).latch = h.latch := rfl
@[simp] theorem Hw.incReg_pow (a : Nat) : (h.incReg a).pow = h.pow := rfl
@[simp] theorem Hw.incReg_clk (a : Nat) : (h.incReg a).clk = h.clk := rfl
@[simp] theorem Hw.incReg_gate (a : Nat) : (h.incReg a).gate = h.gate := rfl
@[simp] theorem Hw.incReg_regions (a : Nat) : (h.incReg a).regions = h.regions := rfl
@[simp] theorem Hw.incReg_txns (a : Nat) : (h.incReg a).txns = h.txns := rfl
@[simp] theorem Hw.incReg_nextTxn (a : Nat) : (h.incReg a).nextTxn = h.nextTxn := rfl
@[simp] theorem Hw.incReg_rgl (a : Nat) : (h.incReg a).rgl = h.rgl := rfl
@[simp] theorem Hw.incReg_sumpWords (a : Nat) : (h.incReg a).sumpWords = h.sumpWords := rfl
@[simp] theorem Hw.incReg_ports (a : Nat) : (h.incReg a).ports = h.ports := rfl
@[simp] theorem Hw.incReg_gkt (a : Nat) : (h.incReg a).gkt = h.gkt := rfl
@[simp] theorem Hw.incReg_pump (a : Nat) : (h.incReg a).pump = h.pump := rfl
@[simp] theorem Hw.incReg_gw (a : Nat) : (h.incReg a).gw = h.gw := rfl
@[simp] theorem Hw.incReg_bru (a : Nat) : (h.incReg a).bru = h.bru := rfl
@[simp] theorem Hw.incReg_shaper (a : Nat) : (h.incReg a).shaper = h.shaper := rfl
@[simp] theorem Hw.incReg_sched (a : Nat) : (h.incReg a).sched = h.sched := rfl
@[simp] theorem Hw.incReg_cfe (a : Nat) : (h.incReg a).cfe = h.cfe := rfl
@[simp] theorem Hw.incReg_obj (a : Nat) : (h.incReg a).obj = h.obj := rfl
@[simp] theorem Hw.incReg_fcu (a : Nat) : (h.incReg a).fcu = h.fcu := rfl
@[simp] theorem Hw.incReg_clus (a : Nat) : (h.incReg a).clus = h.clus := rfl
@[simp] theorem Hw.incReg_dom (a : Nat) : (h.incReg a).dom = h.dom := rfl
@[simp] theorem Hw.incReg_hangs (a : Nat) : (h.incReg a).hangs = h.hangs := rfl
@[simp] theorem Hw.incReg_resets (a : Nat) : (h.incReg a).resets = h.resets := rfl
@[simp] theorem Hw.incReg_inject (a : Nat) : (h.incReg a).inject = h.inject := rfl
@[simp] theorem Hw.incReg_well (a : Nat) : (h.incReg a).well = h.well := rfl
@[simp] theorem Hw.incReg_cnt (a : Nat) : (h.incReg a).cnt = h.cnt := rfl
@[simp] theorem Hw.incReg_icu (a : Nat) : (h.incReg a).icu = h.icu := rfl
@[simp] theorem Hw.incReg_per (a : Nat) : (h.incReg a).per = h.per := rfl
@[simp] theorem Hw.incReg_dmp (a : Nat) : (h.incReg a).dmp = h.dmp := rfl
@[simp] theorem Hw.incReg_ide (a : Nat) : (h.incReg a).ide = h.ide := rfl
@[simp] theorem Hw.incReg_bulk (a : Nat) : (h.incReg a).bulk = h.bulk := rfl
@[simp] theorem Hw.incReg_cis (a : Nat) : (h.incReg a).cis = h.cis := rfl
@[simp] theorem Hw.incReg_scu (a : Nat) : (h.incReg a).scu = h.scu := rfl
@[simp] theorem Hw.incReg_lcs (a : Nat) : (h.incReg a).lcs = h.lcs := rfl
@[simp] theorem Hw.incReg_rail (a : Nat) : (h.incReg a).rail = h.rail := rfl
@[simp] theorem Hw.incReg_prime (a : Nat) : (h.incReg a).prime = h.prime := rfl
@[simp] theorem Hw.incReg_tap (a : Nat) : (h.incReg a).tap = h.tap := rfl
@[simp] theorem Hw.incReg_free (a : Nat) : (h.incReg a).free = h.free := rfl
@[simp] theorem Hw.incReg_out (a : Nat) : (h.incReg a).out = h.out := rfl

@[simp] theorem Hw.emit_regs (o : Out) : (h.emit o).regs = h.regs := rfl
@[simp] theorem Hw.emit_latch (o : Out) : (h.emit o).latch = h.latch := rfl
@[simp] theorem Hw.emit_pow (o : Out) : (h.emit o).pow = h.pow := rfl
@[simp] theorem Hw.emit_clk (o : Out) : (h.emit o).clk = h.clk := rfl
@[simp] theorem Hw.emit_gate (o : Out) : (h.emit o).gate = h.gate := rfl
@[simp] theorem Hw.emit_regions (o : Out) : (h.emit o).regions = h.regions := rfl
@[simp] theorem Hw.emit_txns (o : Out) : (h.emit o).txns = h.txns := rfl
@[simp] theorem Hw.emit_nextTxn (o : Out) : (h.emit o).nextTxn = h.nextTxn := rfl
@[simp] theorem Hw.emit_rgl (o : Out) : (h.emit o).rgl = h.rgl := rfl
@[simp] theorem Hw.emit_sumpWords (o : Out) : (h.emit o).sumpWords = h.sumpWords := rfl
@[simp] theorem Hw.emit_ports (o : Out) : (h.emit o).ports = h.ports := rfl
@[simp] theorem Hw.emit_gkt (o : Out) : (h.emit o).gkt = h.gkt := rfl
@[simp] theorem Hw.emit_pump (o : Out) : (h.emit o).pump = h.pump := rfl
@[simp] theorem Hw.emit_gw (o : Out) : (h.emit o).gw = h.gw := rfl
@[simp] theorem Hw.emit_bru (o : Out) : (h.emit o).bru = h.bru := rfl
@[simp] theorem Hw.emit_shaper (o : Out) : (h.emit o).shaper = h.shaper := rfl
@[simp] theorem Hw.emit_sched (o : Out) : (h.emit o).sched = h.sched := rfl
@[simp] theorem Hw.emit_cfe (o : Out) : (h.emit o).cfe = h.cfe := rfl
@[simp] theorem Hw.emit_obj (o : Out) : (h.emit o).obj = h.obj := rfl
@[simp] theorem Hw.emit_fcu (o : Out) : (h.emit o).fcu = h.fcu := rfl
@[simp] theorem Hw.emit_clus (o : Out) : (h.emit o).clus = h.clus := rfl
@[simp] theorem Hw.emit_dom (o : Out) : (h.emit o).dom = h.dom := rfl
@[simp] theorem Hw.emit_hangs (o : Out) : (h.emit o).hangs = h.hangs := rfl
@[simp] theorem Hw.emit_resets (o : Out) : (h.emit o).resets = h.resets := rfl
@[simp] theorem Hw.emit_inject (o : Out) : (h.emit o).inject = h.inject := rfl
@[simp] theorem Hw.emit_well (o : Out) : (h.emit o).well = h.well := rfl
@[simp] theorem Hw.emit_cnt (o : Out) : (h.emit o).cnt = h.cnt := rfl
@[simp] theorem Hw.emit_icu (o : Out) : (h.emit o).icu = h.icu := rfl
@[simp] theorem Hw.emit_per (o : Out) : (h.emit o).per = h.per := rfl
@[simp] theorem Hw.emit_dmp (o : Out) : (h.emit o).dmp = h.dmp := rfl
@[simp] theorem Hw.emit_ide (o : Out) : (h.emit o).ide = h.ide := rfl
@[simp] theorem Hw.emit_bulk (o : Out) : (h.emit o).bulk = h.bulk := rfl
@[simp] theorem Hw.emit_cis (o : Out) : (h.emit o).cis = h.cis := rfl
@[simp] theorem Hw.emit_scu (o : Out) : (h.emit o).scu = h.scu := rfl
@[simp] theorem Hw.emit_lcs (o : Out) : (h.emit o).lcs = h.lcs := rfl
@[simp] theorem Hw.emit_rail (o : Out) : (h.emit o).rail = h.rail := rfl
@[simp] theorem Hw.emit_prime (o : Out) : (h.emit o).prime = h.prime := rfl
@[simp] theorem Hw.emit_tap (o : Out) : (h.emit o).tap = h.tap := rfl
@[simp] theorem Hw.emit_free (o : Out) : (h.emit o).free = h.free := rfl

@[simp] theorem Hw.tookFree_regs : (h.tookFree).regs = h.regs := rfl
@[simp] theorem Hw.tookFree_latch : (h.tookFree).latch = h.latch := rfl
@[simp] theorem Hw.tookFree_pow : (h.tookFree).pow = h.pow := rfl
@[simp] theorem Hw.tookFree_clk : (h.tookFree).clk = h.clk := rfl
@[simp] theorem Hw.tookFree_gate : (h.tookFree).gate = h.gate := rfl
@[simp] theorem Hw.tookFree_regions : (h.tookFree).regions = h.regions := rfl
@[simp] theorem Hw.tookFree_txns : (h.tookFree).txns = h.txns := rfl
@[simp] theorem Hw.tookFree_nextTxn : (h.tookFree).nextTxn = h.nextTxn := rfl
@[simp] theorem Hw.tookFree_rgl : (h.tookFree).rgl = h.rgl := rfl
@[simp] theorem Hw.tookFree_sumpWords : (h.tookFree).sumpWords = h.sumpWords := rfl
@[simp] theorem Hw.tookFree_ports : (h.tookFree).ports = h.ports := rfl
@[simp] theorem Hw.tookFree_gkt : (h.tookFree).gkt = h.gkt := rfl
@[simp] theorem Hw.tookFree_pump : (h.tookFree).pump = h.pump := rfl
@[simp] theorem Hw.tookFree_gw : (h.tookFree).gw = h.gw := rfl
@[simp] theorem Hw.tookFree_bru : (h.tookFree).bru = h.bru := rfl
@[simp] theorem Hw.tookFree_shaper : (h.tookFree).shaper = h.shaper := rfl
@[simp] theorem Hw.tookFree_sched : (h.tookFree).sched = h.sched := rfl
@[simp] theorem Hw.tookFree_cfe : (h.tookFree).cfe = h.cfe := rfl
@[simp] theorem Hw.tookFree_obj : (h.tookFree).obj = h.obj := rfl
@[simp] theorem Hw.tookFree_fcu : (h.tookFree).fcu = h.fcu := rfl
@[simp] theorem Hw.tookFree_clus : (h.tookFree).clus = h.clus := rfl
@[simp] theorem Hw.tookFree_dom : (h.tookFree).dom = h.dom := rfl
@[simp] theorem Hw.tookFree_hangs : (h.tookFree).hangs = h.hangs := rfl
@[simp] theorem Hw.tookFree_resets : (h.tookFree).resets = h.resets := rfl
@[simp] theorem Hw.tookFree_inject : (h.tookFree).inject = h.inject := rfl
@[simp] theorem Hw.tookFree_well : (h.tookFree).well = h.well := rfl
@[simp] theorem Hw.tookFree_cnt : (h.tookFree).cnt = h.cnt := rfl
@[simp] theorem Hw.tookFree_icu : (h.tookFree).icu = h.icu := rfl
@[simp] theorem Hw.tookFree_per : (h.tookFree).per = h.per := rfl
@[simp] theorem Hw.tookFree_dmp : (h.tookFree).dmp = h.dmp := rfl
@[simp] theorem Hw.tookFree_ide : (h.tookFree).ide = h.ide := rfl
@[simp] theorem Hw.tookFree_bulk : (h.tookFree).bulk = h.bulk := rfl
@[simp] theorem Hw.tookFree_cis : (h.tookFree).cis = h.cis := rfl
@[simp] theorem Hw.tookFree_scu : (h.tookFree).scu = h.scu := rfl
@[simp] theorem Hw.tookFree_lcs : (h.tookFree).lcs = h.lcs := rfl
@[simp] theorem Hw.tookFree_rail : (h.tookFree).rail = h.rail := rfl
@[simp] theorem Hw.tookFree_prime : (h.tookFree).prime = h.prime := rfl
@[simp] theorem Hw.tookFree_tap : (h.tookFree).tap = h.tap := rfl
@[simp] theorem Hw.tookFree_out : (h.tookFree).out = h.out := rfl

@[simp] theorem Hw.tally_regs (k n : Nat) : (h.tally k n).regs = h.regs := rfl
@[simp] theorem Hw.tally_latch (k n : Nat) : (h.tally k n).latch = h.latch := rfl
@[simp] theorem Hw.tally_pow (k n : Nat) : (h.tally k n).pow = h.pow := rfl
@[simp] theorem Hw.tally_clk (k n : Nat) : (h.tally k n).clk = h.clk := rfl
@[simp] theorem Hw.tally_gate (k n : Nat) : (h.tally k n).gate = h.gate := rfl
@[simp] theorem Hw.tally_regions (k n : Nat) : (h.tally k n).regions = h.regions := rfl
@[simp] theorem Hw.tally_txns (k n : Nat) : (h.tally k n).txns = h.txns := rfl
@[simp] theorem Hw.tally_nextTxn (k n : Nat) : (h.tally k n).nextTxn = h.nextTxn := rfl
@[simp] theorem Hw.tally_rgl (k n : Nat) : (h.tally k n).rgl = h.rgl := rfl
@[simp] theorem Hw.tally_sumpWords (k n : Nat) : (h.tally k n).sumpWords = h.sumpWords := rfl
@[simp] theorem Hw.tally_ports (k n : Nat) : (h.tally k n).ports = h.ports := rfl
@[simp] theorem Hw.tally_gkt (k n : Nat) : (h.tally k n).gkt = h.gkt := rfl
@[simp] theorem Hw.tally_pump (k n : Nat) : (h.tally k n).pump = h.pump := rfl
@[simp] theorem Hw.tally_gw (k n : Nat) : (h.tally k n).gw = h.gw := rfl
@[simp] theorem Hw.tally_bru (k n : Nat) : (h.tally k n).bru = h.bru := rfl
@[simp] theorem Hw.tally_shaper (k n : Nat) : (h.tally k n).shaper = h.shaper := rfl
@[simp] theorem Hw.tally_sched (k n : Nat) : (h.tally k n).sched = h.sched := rfl
@[simp] theorem Hw.tally_cfe (k n : Nat) : (h.tally k n).cfe = h.cfe := rfl
@[simp] theorem Hw.tally_obj (k n : Nat) : (h.tally k n).obj = h.obj := rfl
@[simp] theorem Hw.tally_fcu (k n : Nat) : (h.tally k n).fcu = h.fcu := rfl
@[simp] theorem Hw.tally_clus (k n : Nat) : (h.tally k n).clus = h.clus := rfl
@[simp] theorem Hw.tally_dom (k n : Nat) : (h.tally k n).dom = h.dom := rfl
@[simp] theorem Hw.tally_hangs (k n : Nat) : (h.tally k n).hangs = h.hangs := rfl
@[simp] theorem Hw.tally_resets (k n : Nat) : (h.tally k n).resets = h.resets := rfl
@[simp] theorem Hw.tally_inject (k n : Nat) : (h.tally k n).inject = h.inject := rfl
@[simp] theorem Hw.tally_well (k n : Nat) : (h.tally k n).well = h.well := rfl
@[simp] theorem Hw.tally_icu (k n : Nat) : (h.tally k n).icu = h.icu := rfl
@[simp] theorem Hw.tally_per (k n : Nat) : (h.tally k n).per = h.per := rfl
@[simp] theorem Hw.tally_dmp (k n : Nat) : (h.tally k n).dmp = h.dmp := rfl
@[simp] theorem Hw.tally_ide (k n : Nat) : (h.tally k n).ide = h.ide := rfl
@[simp] theorem Hw.tally_bulk (k n : Nat) : (h.tally k n).bulk = h.bulk := rfl
@[simp] theorem Hw.tally_cis (k n : Nat) : (h.tally k n).cis = h.cis := rfl
@[simp] theorem Hw.tally_scu (k n : Nat) : (h.tally k n).scu = h.scu := rfl
@[simp] theorem Hw.tally_lcs (k n : Nat) : (h.tally k n).lcs = h.lcs := rfl
@[simp] theorem Hw.tally_rail (k n : Nat) : (h.tally k n).rail = h.rail := rfl
@[simp] theorem Hw.tally_prime (k n : Nat) : (h.tally k n).prime = h.prime := rfl
@[simp] theorem Hw.tally_tap (k n : Nat) : (h.tally k n).tap = h.tap := rfl
@[simp] theorem Hw.tally_free (k n : Nat) : (h.tally k n).free = h.free := rfl
@[simp] theorem Hw.tally_out (k n : Nat) : (h.tally k n).out = h.out := rfl

@[simp] theorem Hw.setSlice_regs (k : Nat) (v : Slice) : (h.setSlice k v).regs = h.regs := rfl
@[simp] theorem Hw.setSlice_latch (k : Nat) (v : Slice) : (h.setSlice k v).latch = h.latch := rfl
@[simp] theorem Hw.setSlice_pow (k : Nat) (v : Slice) : (h.setSlice k v).pow = h.pow := rfl
@[simp] theorem Hw.setSlice_clk (k : Nat) (v : Slice) : (h.setSlice k v).clk = h.clk := rfl
@[simp] theorem Hw.setSlice_gate (k : Nat) (v : Slice) : (h.setSlice k v).gate = h.gate := rfl
@[simp] theorem Hw.setSlice_regions (k : Nat) (v : Slice) : (h.setSlice k v).regions = h.regions := rfl
@[simp] theorem Hw.setSlice_txns (k : Nat) (v : Slice) : (h.setSlice k v).txns = h.txns := rfl
@[simp] theorem Hw.setSlice_nextTxn (k : Nat) (v : Slice) : (h.setSlice k v).nextTxn = h.nextTxn := rfl
@[simp] theorem Hw.setSlice_rgl (k : Nat) (v : Slice) : (h.setSlice k v).rgl = h.rgl := rfl
@[simp] theorem Hw.setSlice_sumpWords (k : Nat) (v : Slice) : (h.setSlice k v).sumpWords = h.sumpWords := rfl
@[simp] theorem Hw.setSlice_ports (k : Nat) (v : Slice) : (h.setSlice k v).ports = h.ports := rfl
@[simp] theorem Hw.setSlice_gkt (k : Nat) (v : Slice) : (h.setSlice k v).gkt = h.gkt := rfl
@[simp] theorem Hw.setSlice_pump (k : Nat) (v : Slice) : (h.setSlice k v).pump = h.pump := rfl
@[simp] theorem Hw.setSlice_gw (k : Nat) (v : Slice) : (h.setSlice k v).gw = h.gw := rfl
@[simp] theorem Hw.setSlice_bru (k : Nat) (v : Slice) : (h.setSlice k v).bru = h.bru := rfl
@[simp] theorem Hw.setSlice_shaper (k : Nat) (v : Slice) : (h.setSlice k v).shaper = h.shaper := rfl
@[simp] theorem Hw.setSlice_sched (k : Nat) (v : Slice) : (h.setSlice k v).sched = h.sched := rfl
@[simp] theorem Hw.setSlice_cfe (k : Nat) (v : Slice) : (h.setSlice k v).cfe = h.cfe := rfl
@[simp] theorem Hw.setSlice_fcu (k : Nat) (v : Slice) : (h.setSlice k v).fcu = h.fcu := rfl
@[simp] theorem Hw.setSlice_clus (k : Nat) (v : Slice) : (h.setSlice k v).clus = h.clus := rfl
@[simp] theorem Hw.setSlice_dom (k : Nat) (v : Slice) : (h.setSlice k v).dom = h.dom := rfl
@[simp] theorem Hw.setSlice_hangs (k : Nat) (v : Slice) : (h.setSlice k v).hangs = h.hangs := rfl
@[simp] theorem Hw.setSlice_resets (k : Nat) (v : Slice) : (h.setSlice k v).resets = h.resets := rfl
@[simp] theorem Hw.setSlice_inject (k : Nat) (v : Slice) : (h.setSlice k v).inject = h.inject := rfl
@[simp] theorem Hw.setSlice_well (k : Nat) (v : Slice) : (h.setSlice k v).well = h.well := rfl
@[simp] theorem Hw.setSlice_cnt (k : Nat) (v : Slice) : (h.setSlice k v).cnt = h.cnt := rfl
@[simp] theorem Hw.setSlice_icu (k : Nat) (v : Slice) : (h.setSlice k v).icu = h.icu := rfl
@[simp] theorem Hw.setSlice_per (k : Nat) (v : Slice) : (h.setSlice k v).per = h.per := rfl
@[simp] theorem Hw.setSlice_dmp (k : Nat) (v : Slice) : (h.setSlice k v).dmp = h.dmp := rfl
@[simp] theorem Hw.setSlice_ide (k : Nat) (v : Slice) : (h.setSlice k v).ide = h.ide := rfl
@[simp] theorem Hw.setSlice_bulk (k : Nat) (v : Slice) : (h.setSlice k v).bulk = h.bulk := rfl
@[simp] theorem Hw.setSlice_cis (k : Nat) (v : Slice) : (h.setSlice k v).cis = h.cis := rfl
@[simp] theorem Hw.setSlice_scu (k : Nat) (v : Slice) : (h.setSlice k v).scu = h.scu := rfl
@[simp] theorem Hw.setSlice_lcs (k : Nat) (v : Slice) : (h.setSlice k v).lcs = h.lcs := rfl
@[simp] theorem Hw.setSlice_rail (k : Nat) (v : Slice) : (h.setSlice k v).rail = h.rail := rfl
@[simp] theorem Hw.setSlice_prime (k : Nat) (v : Slice) : (h.setSlice k v).prime = h.prime := rfl
@[simp] theorem Hw.setSlice_tap (k : Nat) (v : Slice) : (h.setSlice k v).tap = h.tap := rfl
@[simp] theorem Hw.setSlice_free (k : Nat) (v : Slice) : (h.setSlice k v).free = h.free := rfl
@[simp] theorem Hw.setSlice_out (k : Nat) (v : Slice) : (h.setSlice k v).out = h.out := rfl

@[simp] theorem Hw.setFence_regs (k : Nat) (v : Fence) : (h.setFence k v).regs = h.regs := rfl
@[simp] theorem Hw.setFence_latch (k : Nat) (v : Fence) : (h.setFence k v).latch = h.latch := rfl
@[simp] theorem Hw.setFence_pow (k : Nat) (v : Fence) : (h.setFence k v).pow = h.pow := rfl
@[simp] theorem Hw.setFence_clk (k : Nat) (v : Fence) : (h.setFence k v).clk = h.clk := rfl
@[simp] theorem Hw.setFence_gate (k : Nat) (v : Fence) : (h.setFence k v).gate = h.gate := rfl
@[simp] theorem Hw.setFence_regions (k : Nat) (v : Fence) : (h.setFence k v).regions = h.regions := rfl
@[simp] theorem Hw.setFence_txns (k : Nat) (v : Fence) : (h.setFence k v).txns = h.txns := rfl
@[simp] theorem Hw.setFence_nextTxn (k : Nat) (v : Fence) : (h.setFence k v).nextTxn = h.nextTxn := rfl
@[simp] theorem Hw.setFence_rgl (k : Nat) (v : Fence) : (h.setFence k v).rgl = h.rgl := rfl
@[simp] theorem Hw.setFence_sumpWords (k : Nat) (v : Fence) : (h.setFence k v).sumpWords = h.sumpWords := rfl
@[simp] theorem Hw.setFence_ports (k : Nat) (v : Fence) : (h.setFence k v).ports = h.ports := rfl
@[simp] theorem Hw.setFence_gkt (k : Nat) (v : Fence) : (h.setFence k v).gkt = h.gkt := rfl
@[simp] theorem Hw.setFence_pump (k : Nat) (v : Fence) : (h.setFence k v).pump = h.pump := rfl
@[simp] theorem Hw.setFence_gw (k : Nat) (v : Fence) : (h.setFence k v).gw = h.gw := rfl
@[simp] theorem Hw.setFence_bru (k : Nat) (v : Fence) : (h.setFence k v).bru = h.bru := rfl
@[simp] theorem Hw.setFence_shaper (k : Nat) (v : Fence) : (h.setFence k v).shaper = h.shaper := rfl
@[simp] theorem Hw.setFence_sched (k : Nat) (v : Fence) : (h.setFence k v).sched = h.sched := rfl
@[simp] theorem Hw.setFence_cfe (k : Nat) (v : Fence) : (h.setFence k v).cfe = h.cfe := rfl
@[simp] theorem Hw.setFence_fcu (k : Nat) (v : Fence) : (h.setFence k v).fcu = h.fcu := rfl
@[simp] theorem Hw.setFence_clus (k : Nat) (v : Fence) : (h.setFence k v).clus = h.clus := rfl
@[simp] theorem Hw.setFence_dom (k : Nat) (v : Fence) : (h.setFence k v).dom = h.dom := rfl
@[simp] theorem Hw.setFence_hangs (k : Nat) (v : Fence) : (h.setFence k v).hangs = h.hangs := rfl
@[simp] theorem Hw.setFence_resets (k : Nat) (v : Fence) : (h.setFence k v).resets = h.resets := rfl
@[simp] theorem Hw.setFence_inject (k : Nat) (v : Fence) : (h.setFence k v).inject = h.inject := rfl
@[simp] theorem Hw.setFence_well (k : Nat) (v : Fence) : (h.setFence k v).well = h.well := rfl
@[simp] theorem Hw.setFence_cnt (k : Nat) (v : Fence) : (h.setFence k v).cnt = h.cnt := rfl
@[simp] theorem Hw.setFence_icu (k : Nat) (v : Fence) : (h.setFence k v).icu = h.icu := rfl
@[simp] theorem Hw.setFence_per (k : Nat) (v : Fence) : (h.setFence k v).per = h.per := rfl
@[simp] theorem Hw.setFence_dmp (k : Nat) (v : Fence) : (h.setFence k v).dmp = h.dmp := rfl
@[simp] theorem Hw.setFence_ide (k : Nat) (v : Fence) : (h.setFence k v).ide = h.ide := rfl
@[simp] theorem Hw.setFence_bulk (k : Nat) (v : Fence) : (h.setFence k v).bulk = h.bulk := rfl
@[simp] theorem Hw.setFence_cis (k : Nat) (v : Fence) : (h.setFence k v).cis = h.cis := rfl
@[simp] theorem Hw.setFence_scu (k : Nat) (v : Fence) : (h.setFence k v).scu = h.scu := rfl
@[simp] theorem Hw.setFence_lcs (k : Nat) (v : Fence) : (h.setFence k v).lcs = h.lcs := rfl
@[simp] theorem Hw.setFence_rail (k : Nat) (v : Fence) : (h.setFence k v).rail = h.rail := rfl
@[simp] theorem Hw.setFence_prime (k : Nat) (v : Fence) : (h.setFence k v).prime = h.prime := rfl
@[simp] theorem Hw.setFence_tap (k : Nat) (v : Fence) : (h.setFence k v).tap = h.tap := rfl
@[simp] theorem Hw.setFence_free (k : Nat) (v : Fence) : (h.setFence k v).free = h.free := rfl
@[simp] theorem Hw.setFence_out (k : Nat) (v : Fence) : (h.setFence k v).out = h.out := rfl

@[simp] theorem Hw.setEvent_regs (k : Nat) (v : Event) : (h.setEvent k v).regs = h.regs := rfl
@[simp] theorem Hw.setEvent_latch (k : Nat) (v : Event) : (h.setEvent k v).latch = h.latch := rfl
@[simp] theorem Hw.setEvent_pow (k : Nat) (v : Event) : (h.setEvent k v).pow = h.pow := rfl
@[simp] theorem Hw.setEvent_clk (k : Nat) (v : Event) : (h.setEvent k v).clk = h.clk := rfl
@[simp] theorem Hw.setEvent_gate (k : Nat) (v : Event) : (h.setEvent k v).gate = h.gate := rfl
@[simp] theorem Hw.setEvent_regions (k : Nat) (v : Event) : (h.setEvent k v).regions = h.regions := rfl
@[simp] theorem Hw.setEvent_txns (k : Nat) (v : Event) : (h.setEvent k v).txns = h.txns := rfl
@[simp] theorem Hw.setEvent_nextTxn (k : Nat) (v : Event) : (h.setEvent k v).nextTxn = h.nextTxn := rfl
@[simp] theorem Hw.setEvent_rgl (k : Nat) (v : Event) : (h.setEvent k v).rgl = h.rgl := rfl
@[simp] theorem Hw.setEvent_sumpWords (k : Nat) (v : Event) : (h.setEvent k v).sumpWords = h.sumpWords := rfl
@[simp] theorem Hw.setEvent_ports (k : Nat) (v : Event) : (h.setEvent k v).ports = h.ports := rfl
@[simp] theorem Hw.setEvent_gkt (k : Nat) (v : Event) : (h.setEvent k v).gkt = h.gkt := rfl
@[simp] theorem Hw.setEvent_pump (k : Nat) (v : Event) : (h.setEvent k v).pump = h.pump := rfl
@[simp] theorem Hw.setEvent_gw (k : Nat) (v : Event) : (h.setEvent k v).gw = h.gw := rfl
@[simp] theorem Hw.setEvent_bru (k : Nat) (v : Event) : (h.setEvent k v).bru = h.bru := rfl
@[simp] theorem Hw.setEvent_shaper (k : Nat) (v : Event) : (h.setEvent k v).shaper = h.shaper := rfl
@[simp] theorem Hw.setEvent_sched (k : Nat) (v : Event) : (h.setEvent k v).sched = h.sched := rfl
@[simp] theorem Hw.setEvent_cfe (k : Nat) (v : Event) : (h.setEvent k v).cfe = h.cfe := rfl
@[simp] theorem Hw.setEvent_fcu (k : Nat) (v : Event) : (h.setEvent k v).fcu = h.fcu := rfl
@[simp] theorem Hw.setEvent_clus (k : Nat) (v : Event) : (h.setEvent k v).clus = h.clus := rfl
@[simp] theorem Hw.setEvent_dom (k : Nat) (v : Event) : (h.setEvent k v).dom = h.dom := rfl
@[simp] theorem Hw.setEvent_hangs (k : Nat) (v : Event) : (h.setEvent k v).hangs = h.hangs := rfl
@[simp] theorem Hw.setEvent_resets (k : Nat) (v : Event) : (h.setEvent k v).resets = h.resets := rfl
@[simp] theorem Hw.setEvent_inject (k : Nat) (v : Event) : (h.setEvent k v).inject = h.inject := rfl
@[simp] theorem Hw.setEvent_well (k : Nat) (v : Event) : (h.setEvent k v).well = h.well := rfl
@[simp] theorem Hw.setEvent_cnt (k : Nat) (v : Event) : (h.setEvent k v).cnt = h.cnt := rfl
@[simp] theorem Hw.setEvent_icu (k : Nat) (v : Event) : (h.setEvent k v).icu = h.icu := rfl
@[simp] theorem Hw.setEvent_per (k : Nat) (v : Event) : (h.setEvent k v).per = h.per := rfl
@[simp] theorem Hw.setEvent_dmp (k : Nat) (v : Event) : (h.setEvent k v).dmp = h.dmp := rfl
@[simp] theorem Hw.setEvent_ide (k : Nat) (v : Event) : (h.setEvent k v).ide = h.ide := rfl
@[simp] theorem Hw.setEvent_bulk (k : Nat) (v : Event) : (h.setEvent k v).bulk = h.bulk := rfl
@[simp] theorem Hw.setEvent_cis (k : Nat) (v : Event) : (h.setEvent k v).cis = h.cis := rfl
@[simp] theorem Hw.setEvent_scu (k : Nat) (v : Event) : (h.setEvent k v).scu = h.scu := rfl
@[simp] theorem Hw.setEvent_lcs (k : Nat) (v : Event) : (h.setEvent k v).lcs = h.lcs := rfl
@[simp] theorem Hw.setEvent_rail (k : Nat) (v : Event) : (h.setEvent k v).rail = h.rail := rfl
@[simp] theorem Hw.setEvent_prime (k : Nat) (v : Event) : (h.setEvent k v).prime = h.prime := rfl
@[simp] theorem Hw.setEvent_tap (k : Nat) (v : Event) : (h.setEvent k v).tap = h.tap := rfl
@[simp] theorem Hw.setEvent_free (k : Nat) (v : Event) : (h.setEvent k v).free = h.free := rfl
@[simp] theorem Hw.setEvent_out (k : Nat) (v : Event) : (h.setEvent k v).out = h.out := rfl

@[simp] theorem Hw.setQueue_regs (n : Nat) (q : Queue) : (h.setQueue n q).regs = h.regs := rfl
@[simp] theorem Hw.setQueue_latch (n : Nat) (q : Queue) : (h.setQueue n q).latch = h.latch := rfl
@[simp] theorem Hw.setQueue_pow (n : Nat) (q : Queue) : (h.setQueue n q).pow = h.pow := rfl
@[simp] theorem Hw.setQueue_clk (n : Nat) (q : Queue) : (h.setQueue n q).clk = h.clk := rfl
@[simp] theorem Hw.setQueue_gate (n : Nat) (q : Queue) : (h.setQueue n q).gate = h.gate := rfl
@[simp] theorem Hw.setQueue_regions (n : Nat) (q : Queue) : (h.setQueue n q).regions = h.regions := rfl
@[simp] theorem Hw.setQueue_txns (n : Nat) (q : Queue) : (h.setQueue n q).txns = h.txns := rfl
@[simp] theorem Hw.setQueue_nextTxn (n : Nat) (q : Queue) : (h.setQueue n q).nextTxn = h.nextTxn := rfl
@[simp] theorem Hw.setQueue_rgl (n : Nat) (q : Queue) : (h.setQueue n q).rgl = h.rgl := rfl
@[simp] theorem Hw.setQueue_sumpWords (n : Nat) (q : Queue) : (h.setQueue n q).sumpWords = h.sumpWords := rfl
@[simp] theorem Hw.setQueue_ports (n : Nat) (q : Queue) : (h.setQueue n q).ports = h.ports := rfl
@[simp] theorem Hw.setQueue_gkt (n : Nat) (q : Queue) : (h.setQueue n q).gkt = h.gkt := rfl
@[simp] theorem Hw.setQueue_pump (n : Nat) (q : Queue) : (h.setQueue n q).pump = h.pump := rfl
@[simp] theorem Hw.setQueue_gw (n : Nat) (q : Queue) : (h.setQueue n q).gw = h.gw := rfl
@[simp] theorem Hw.setQueue_bru (n : Nat) (q : Queue) : (h.setQueue n q).bru = h.bru := rfl
@[simp] theorem Hw.setQueue_shaper (n : Nat) (q : Queue) : (h.setQueue n q).shaper = h.shaper := rfl
@[simp] theorem Hw.setQueue_sched (n : Nat) (q : Queue) : (h.setQueue n q).sched = h.sched := rfl
@[simp] theorem Hw.setQueue_obj (n : Nat) (q : Queue) : (h.setQueue n q).obj = h.obj := rfl
@[simp] theorem Hw.setQueue_fcu (n : Nat) (q : Queue) : (h.setQueue n q).fcu = h.fcu := rfl
@[simp] theorem Hw.setQueue_clus (n : Nat) (q : Queue) : (h.setQueue n q).clus = h.clus := rfl
@[simp] theorem Hw.setQueue_dom (n : Nat) (q : Queue) : (h.setQueue n q).dom = h.dom := rfl
@[simp] theorem Hw.setQueue_hangs (n : Nat) (q : Queue) : (h.setQueue n q).hangs = h.hangs := rfl
@[simp] theorem Hw.setQueue_resets (n : Nat) (q : Queue) : (h.setQueue n q).resets = h.resets := rfl
@[simp] theorem Hw.setQueue_inject (n : Nat) (q : Queue) : (h.setQueue n q).inject = h.inject := rfl
@[simp] theorem Hw.setQueue_well (n : Nat) (q : Queue) : (h.setQueue n q).well = h.well := rfl
@[simp] theorem Hw.setQueue_cnt (n : Nat) (q : Queue) : (h.setQueue n q).cnt = h.cnt := rfl
@[simp] theorem Hw.setQueue_icu (n : Nat) (q : Queue) : (h.setQueue n q).icu = h.icu := rfl
@[simp] theorem Hw.setQueue_per (n : Nat) (q : Queue) : (h.setQueue n q).per = h.per := rfl
@[simp] theorem Hw.setQueue_dmp (n : Nat) (q : Queue) : (h.setQueue n q).dmp = h.dmp := rfl
@[simp] theorem Hw.setQueue_ide (n : Nat) (q : Queue) : (h.setQueue n q).ide = h.ide := rfl
@[simp] theorem Hw.setQueue_bulk (n : Nat) (q : Queue) : (h.setQueue n q).bulk = h.bulk := rfl
@[simp] theorem Hw.setQueue_cis (n : Nat) (q : Queue) : (h.setQueue n q).cis = h.cis := rfl
@[simp] theorem Hw.setQueue_scu (n : Nat) (q : Queue) : (h.setQueue n q).scu = h.scu := rfl
@[simp] theorem Hw.setQueue_lcs (n : Nat) (q : Queue) : (h.setQueue n q).lcs = h.lcs := rfl
@[simp] theorem Hw.setQueue_rail (n : Nat) (q : Queue) : (h.setQueue n q).rail = h.rail := rfl
@[simp] theorem Hw.setQueue_prime (n : Nat) (q : Queue) : (h.setQueue n q).prime = h.prime := rfl
@[simp] theorem Hw.setQueue_tap (n : Nat) (q : Queue) : (h.setQueue n q).tap = h.tap := rfl
@[simp] theorem Hw.setQueue_free (n : Nat) (q : Queue) : (h.setQueue n q).free = h.free := rfl
@[simp] theorem Hw.setQueue_out (n : Nat) (q : Queue) : (h.setQueue n q).out = h.out := rfl

@[simp] theorem Hw.setPort_regs (p : Nat) (v : LinkPort) : (h.setPort p v).regs = h.regs := rfl
@[simp] theorem Hw.setPort_latch (p : Nat) (v : LinkPort) : (h.setPort p v).latch = h.latch := rfl
@[simp] theorem Hw.setPort_pow (p : Nat) (v : LinkPort) : (h.setPort p v).pow = h.pow := rfl
@[simp] theorem Hw.setPort_clk (p : Nat) (v : LinkPort) : (h.setPort p v).clk = h.clk := rfl
@[simp] theorem Hw.setPort_gate (p : Nat) (v : LinkPort) : (h.setPort p v).gate = h.gate := rfl
@[simp] theorem Hw.setPort_regions (p : Nat) (v : LinkPort) : (h.setPort p v).regions = h.regions := rfl
@[simp] theorem Hw.setPort_txns (p : Nat) (v : LinkPort) : (h.setPort p v).txns = h.txns := rfl
@[simp] theorem Hw.setPort_nextTxn (p : Nat) (v : LinkPort) : (h.setPort p v).nextTxn = h.nextTxn := rfl
@[simp] theorem Hw.setPort_rgl (p : Nat) (v : LinkPort) : (h.setPort p v).rgl = h.rgl := rfl
@[simp] theorem Hw.setPort_sumpWords (p : Nat) (v : LinkPort) : (h.setPort p v).sumpWords = h.sumpWords := rfl
@[simp] theorem Hw.setPort_gkt (p : Nat) (v : LinkPort) : (h.setPort p v).gkt = h.gkt := rfl
@[simp] theorem Hw.setPort_pump (p : Nat) (v : LinkPort) : (h.setPort p v).pump = h.pump := rfl
@[simp] theorem Hw.setPort_gw (p : Nat) (v : LinkPort) : (h.setPort p v).gw = h.gw := rfl
@[simp] theorem Hw.setPort_bru (p : Nat) (v : LinkPort) : (h.setPort p v).bru = h.bru := rfl
@[simp] theorem Hw.setPort_shaper (p : Nat) (v : LinkPort) : (h.setPort p v).shaper = h.shaper := rfl
@[simp] theorem Hw.setPort_sched (p : Nat) (v : LinkPort) : (h.setPort p v).sched = h.sched := rfl
@[simp] theorem Hw.setPort_cfe (p : Nat) (v : LinkPort) : (h.setPort p v).cfe = h.cfe := rfl
@[simp] theorem Hw.setPort_obj (p : Nat) (v : LinkPort) : (h.setPort p v).obj = h.obj := rfl
@[simp] theorem Hw.setPort_fcu (p : Nat) (v : LinkPort) : (h.setPort p v).fcu = h.fcu := rfl
@[simp] theorem Hw.setPort_clus (p : Nat) (v : LinkPort) : (h.setPort p v).clus = h.clus := rfl
@[simp] theorem Hw.setPort_dom (p : Nat) (v : LinkPort) : (h.setPort p v).dom = h.dom := rfl
@[simp] theorem Hw.setPort_hangs (p : Nat) (v : LinkPort) : (h.setPort p v).hangs = h.hangs := rfl
@[simp] theorem Hw.setPort_resets (p : Nat) (v : LinkPort) : (h.setPort p v).resets = h.resets := rfl
@[simp] theorem Hw.setPort_inject (p : Nat) (v : LinkPort) : (h.setPort p v).inject = h.inject := rfl
@[simp] theorem Hw.setPort_well (p : Nat) (v : LinkPort) : (h.setPort p v).well = h.well := rfl
@[simp] theorem Hw.setPort_cnt (p : Nat) (v : LinkPort) : (h.setPort p v).cnt = h.cnt := rfl
@[simp] theorem Hw.setPort_icu (p : Nat) (v : LinkPort) : (h.setPort p v).icu = h.icu := rfl
@[simp] theorem Hw.setPort_per (p : Nat) (v : LinkPort) : (h.setPort p v).per = h.per := rfl
@[simp] theorem Hw.setPort_dmp (p : Nat) (v : LinkPort) : (h.setPort p v).dmp = h.dmp := rfl
@[simp] theorem Hw.setPort_ide (p : Nat) (v : LinkPort) : (h.setPort p v).ide = h.ide := rfl
@[simp] theorem Hw.setPort_bulk (p : Nat) (v : LinkPort) : (h.setPort p v).bulk = h.bulk := rfl
@[simp] theorem Hw.setPort_cis (p : Nat) (v : LinkPort) : (h.setPort p v).cis = h.cis := rfl
@[simp] theorem Hw.setPort_scu (p : Nat) (v : LinkPort) : (h.setPort p v).scu = h.scu := rfl
@[simp] theorem Hw.setPort_lcs (p : Nat) (v : LinkPort) : (h.setPort p v).lcs = h.lcs := rfl
@[simp] theorem Hw.setPort_rail (p : Nat) (v : LinkPort) : (h.setPort p v).rail = h.rail := rfl
@[simp] theorem Hw.setPort_prime (p : Nat) (v : LinkPort) : (h.setPort p v).prime = h.prime := rfl
@[simp] theorem Hw.setPort_tap (p : Nat) (v : LinkPort) : (h.setPort p v).tap = h.tap := rfl
@[simp] theorem Hw.setPort_free (p : Nat) (v : LinkPort) : (h.setPort p v).free = h.free := rfl
@[simp] theorem Hw.setPort_out (p : Nat) (v : LinkPort) : (h.setPort p v).out = h.out := rfl

@[simp] theorem Hw.modTxn_regs (id : Nat) (f : Txn → Txn) : (h.modTxn id f).regs = h.regs := rfl
@[simp] theorem Hw.modTxn_latch (id : Nat) (f : Txn → Txn) : (h.modTxn id f).latch = h.latch := rfl
@[simp] theorem Hw.modTxn_pow (id : Nat) (f : Txn → Txn) : (h.modTxn id f).pow = h.pow := rfl
@[simp] theorem Hw.modTxn_clk (id : Nat) (f : Txn → Txn) : (h.modTxn id f).clk = h.clk := rfl
@[simp] theorem Hw.modTxn_gate (id : Nat) (f : Txn → Txn) : (h.modTxn id f).gate = h.gate := rfl
@[simp] theorem Hw.modTxn_regions (id : Nat) (f : Txn → Txn) : (h.modTxn id f).regions = h.regions := rfl
@[simp] theorem Hw.modTxn_nextTxn (id : Nat) (f : Txn → Txn) : (h.modTxn id f).nextTxn = h.nextTxn := rfl
@[simp] theorem Hw.modTxn_rgl (id : Nat) (f : Txn → Txn) : (h.modTxn id f).rgl = h.rgl := rfl
@[simp] theorem Hw.modTxn_sumpWords (id : Nat) (f : Txn → Txn) : (h.modTxn id f).sumpWords = h.sumpWords := rfl
@[simp] theorem Hw.modTxn_ports (id : Nat) (f : Txn → Txn) : (h.modTxn id f).ports = h.ports := rfl
@[simp] theorem Hw.modTxn_gkt (id : Nat) (f : Txn → Txn) : (h.modTxn id f).gkt = h.gkt := rfl
@[simp] theorem Hw.modTxn_pump (id : Nat) (f : Txn → Txn) : (h.modTxn id f).pump = h.pump := rfl
@[simp] theorem Hw.modTxn_gw (id : Nat) (f : Txn → Txn) : (h.modTxn id f).gw = h.gw := rfl
@[simp] theorem Hw.modTxn_bru (id : Nat) (f : Txn → Txn) : (h.modTxn id f).bru = h.bru := rfl
@[simp] theorem Hw.modTxn_shaper (id : Nat) (f : Txn → Txn) : (h.modTxn id f).shaper = h.shaper := rfl
@[simp] theorem Hw.modTxn_sched (id : Nat) (f : Txn → Txn) : (h.modTxn id f).sched = h.sched := rfl
@[simp] theorem Hw.modTxn_cfe (id : Nat) (f : Txn → Txn) : (h.modTxn id f).cfe = h.cfe := rfl
@[simp] theorem Hw.modTxn_obj (id : Nat) (f : Txn → Txn) : (h.modTxn id f).obj = h.obj := rfl
@[simp] theorem Hw.modTxn_fcu (id : Nat) (f : Txn → Txn) : (h.modTxn id f).fcu = h.fcu := rfl
@[simp] theorem Hw.modTxn_clus (id : Nat) (f : Txn → Txn) : (h.modTxn id f).clus = h.clus := rfl
@[simp] theorem Hw.modTxn_dom (id : Nat) (f : Txn → Txn) : (h.modTxn id f).dom = h.dom := rfl
@[simp] theorem Hw.modTxn_hangs (id : Nat) (f : Txn → Txn) : (h.modTxn id f).hangs = h.hangs := rfl
@[simp] theorem Hw.modTxn_resets (id : Nat) (f : Txn → Txn) : (h.modTxn id f).resets = h.resets := rfl
@[simp] theorem Hw.modTxn_inject (id : Nat) (f : Txn → Txn) : (h.modTxn id f).inject = h.inject := rfl
@[simp] theorem Hw.modTxn_well (id : Nat) (f : Txn → Txn) : (h.modTxn id f).well = h.well := rfl
@[simp] theorem Hw.modTxn_cnt (id : Nat) (f : Txn → Txn) : (h.modTxn id f).cnt = h.cnt := rfl
@[simp] theorem Hw.modTxn_icu (id : Nat) (f : Txn → Txn) : (h.modTxn id f).icu = h.icu := rfl
@[simp] theorem Hw.modTxn_per (id : Nat) (f : Txn → Txn) : (h.modTxn id f).per = h.per := rfl
@[simp] theorem Hw.modTxn_dmp (id : Nat) (f : Txn → Txn) : (h.modTxn id f).dmp = h.dmp := rfl
@[simp] theorem Hw.modTxn_ide (id : Nat) (f : Txn → Txn) : (h.modTxn id f).ide = h.ide := rfl
@[simp] theorem Hw.modTxn_bulk (id : Nat) (f : Txn → Txn) : (h.modTxn id f).bulk = h.bulk := rfl
@[simp] theorem Hw.modTxn_cis (id : Nat) (f : Txn → Txn) : (h.modTxn id f).cis = h.cis := rfl
@[simp] theorem Hw.modTxn_scu (id : Nat) (f : Txn → Txn) : (h.modTxn id f).scu = h.scu := rfl
@[simp] theorem Hw.modTxn_lcs (id : Nat) (f : Txn → Txn) : (h.modTxn id f).lcs = h.lcs := rfl
@[simp] theorem Hw.modTxn_rail (id : Nat) (f : Txn → Txn) : (h.modTxn id f).rail = h.rail := rfl
@[simp] theorem Hw.modTxn_prime (id : Nat) (f : Txn → Txn) : (h.modTxn id f).prime = h.prime := rfl
@[simp] theorem Hw.modTxn_tap (id : Nat) (f : Txn → Txn) : (h.modTxn id f).tap = h.tap := rfl
@[simp] theorem Hw.modTxn_free (id : Nat) (f : Txn → Txn) : (h.modTxn id f).free = h.free := rfl
@[simp] theorem Hw.modTxn_out (id : Nat) (f : Txn → Txn) : (h.modTxn id f).out = h.out := rfl

@[simp] theorem Hw.dropTxn_regs (id : Nat) : (h.dropTxn id).regs = h.regs := rfl
@[simp] theorem Hw.dropTxn_latch (id : Nat) : (h.dropTxn id).latch = h.latch := rfl
@[simp] theorem Hw.dropTxn_pow (id : Nat) : (h.dropTxn id).pow = h.pow := rfl
@[simp] theorem Hw.dropTxn_clk (id : Nat) : (h.dropTxn id).clk = h.clk := rfl
@[simp] theorem Hw.dropTxn_gate (id : Nat) : (h.dropTxn id).gate = h.gate := rfl
@[simp] theorem Hw.dropTxn_regions (id : Nat) : (h.dropTxn id).regions = h.regions := rfl
@[simp] theorem Hw.dropTxn_nextTxn (id : Nat) : (h.dropTxn id).nextTxn = h.nextTxn := rfl
@[simp] theorem Hw.dropTxn_rgl (id : Nat) : (h.dropTxn id).rgl = h.rgl := rfl
@[simp] theorem Hw.dropTxn_sumpWords (id : Nat) : (h.dropTxn id).sumpWords = h.sumpWords := rfl
@[simp] theorem Hw.dropTxn_ports (id : Nat) : (h.dropTxn id).ports = h.ports := rfl
@[simp] theorem Hw.dropTxn_gkt (id : Nat) : (h.dropTxn id).gkt = h.gkt := rfl
@[simp] theorem Hw.dropTxn_pump (id : Nat) : (h.dropTxn id).pump = h.pump := rfl
@[simp] theorem Hw.dropTxn_gw (id : Nat) : (h.dropTxn id).gw = h.gw := rfl
@[simp] theorem Hw.dropTxn_bru (id : Nat) : (h.dropTxn id).bru = h.bru := rfl
@[simp] theorem Hw.dropTxn_shaper (id : Nat) : (h.dropTxn id).shaper = h.shaper := rfl
@[simp] theorem Hw.dropTxn_sched (id : Nat) : (h.dropTxn id).sched = h.sched := rfl
@[simp] theorem Hw.dropTxn_cfe (id : Nat) : (h.dropTxn id).cfe = h.cfe := rfl
@[simp] theorem Hw.dropTxn_obj (id : Nat) : (h.dropTxn id).obj = h.obj := rfl
@[simp] theorem Hw.dropTxn_fcu (id : Nat) : (h.dropTxn id).fcu = h.fcu := rfl
@[simp] theorem Hw.dropTxn_clus (id : Nat) : (h.dropTxn id).clus = h.clus := rfl
@[simp] theorem Hw.dropTxn_dom (id : Nat) : (h.dropTxn id).dom = h.dom := rfl
@[simp] theorem Hw.dropTxn_hangs (id : Nat) : (h.dropTxn id).hangs = h.hangs := rfl
@[simp] theorem Hw.dropTxn_resets (id : Nat) : (h.dropTxn id).resets = h.resets := rfl
@[simp] theorem Hw.dropTxn_inject (id : Nat) : (h.dropTxn id).inject = h.inject := rfl
@[simp] theorem Hw.dropTxn_well (id : Nat) : (h.dropTxn id).well = h.well := rfl
@[simp] theorem Hw.dropTxn_cnt (id : Nat) : (h.dropTxn id).cnt = h.cnt := rfl
@[simp] theorem Hw.dropTxn_icu (id : Nat) : (h.dropTxn id).icu = h.icu := rfl
@[simp] theorem Hw.dropTxn_per (id : Nat) : (h.dropTxn id).per = h.per := rfl
@[simp] theorem Hw.dropTxn_dmp (id : Nat) : (h.dropTxn id).dmp = h.dmp := rfl
@[simp] theorem Hw.dropTxn_ide (id : Nat) : (h.dropTxn id).ide = h.ide := rfl
@[simp] theorem Hw.dropTxn_bulk (id : Nat) : (h.dropTxn id).bulk = h.bulk := rfl
@[simp] theorem Hw.dropTxn_cis (id : Nat) : (h.dropTxn id).cis = h.cis := rfl
@[simp] theorem Hw.dropTxn_scu (id : Nat) : (h.dropTxn id).scu = h.scu := rfl
@[simp] theorem Hw.dropTxn_lcs (id : Nat) : (h.dropTxn id).lcs = h.lcs := rfl
@[simp] theorem Hw.dropTxn_rail (id : Nat) : (h.dropTxn id).rail = h.rail := rfl
@[simp] theorem Hw.dropTxn_prime (id : Nat) : (h.dropTxn id).prime = h.prime := rfl
@[simp] theorem Hw.dropTxn_tap (id : Nat) : (h.dropTxn id).tap = h.tap := rfl
@[simp] theorem Hw.dropTxn_free (id : Nat) : (h.dropTxn id).free = h.free := rfl
@[simp] theorem Hw.dropTxn_out (id : Nat) : (h.dropTxn id).out = h.out := rfl

@[simp] theorem Hw.takeTag_regs : (h.takeTag).regs = h.regs := rfl
@[simp] theorem Hw.takeTag_latch : (h.takeTag).latch = h.latch := rfl
@[simp] theorem Hw.takeTag_pow : (h.takeTag).pow = h.pow := rfl
@[simp] theorem Hw.takeTag_clk : (h.takeTag).clk = h.clk := rfl
@[simp] theorem Hw.takeTag_gate : (h.takeTag).gate = h.gate := rfl
@[simp] theorem Hw.takeTag_regions : (h.takeTag).regions = h.regions := rfl
@[simp] theorem Hw.takeTag_txns : (h.takeTag).txns = h.txns := rfl
@[simp] theorem Hw.takeTag_rgl : (h.takeTag).rgl = h.rgl := rfl
@[simp] theorem Hw.takeTag_sumpWords : (h.takeTag).sumpWords = h.sumpWords := rfl
@[simp] theorem Hw.takeTag_ports : (h.takeTag).ports = h.ports := rfl
@[simp] theorem Hw.takeTag_gkt : (h.takeTag).gkt = h.gkt := rfl
@[simp] theorem Hw.takeTag_pump : (h.takeTag).pump = h.pump := rfl
@[simp] theorem Hw.takeTag_gw : (h.takeTag).gw = h.gw := rfl
@[simp] theorem Hw.takeTag_bru : (h.takeTag).bru = h.bru := rfl
@[simp] theorem Hw.takeTag_shaper : (h.takeTag).shaper = h.shaper := rfl
@[simp] theorem Hw.takeTag_sched : (h.takeTag).sched = h.sched := rfl
@[simp] theorem Hw.takeTag_cfe : (h.takeTag).cfe = h.cfe := rfl
@[simp] theorem Hw.takeTag_obj : (h.takeTag).obj = h.obj := rfl
@[simp] theorem Hw.takeTag_fcu : (h.takeTag).fcu = h.fcu := rfl
@[simp] theorem Hw.takeTag_clus : (h.takeTag).clus = h.clus := rfl
@[simp] theorem Hw.takeTag_dom : (h.takeTag).dom = h.dom := rfl
@[simp] theorem Hw.takeTag_hangs : (h.takeTag).hangs = h.hangs := rfl
@[simp] theorem Hw.takeTag_resets : (h.takeTag).resets = h.resets := rfl
@[simp] theorem Hw.takeTag_inject : (h.takeTag).inject = h.inject := rfl
@[simp] theorem Hw.takeTag_well : (h.takeTag).well = h.well := rfl
@[simp] theorem Hw.takeTag_cnt : (h.takeTag).cnt = h.cnt := rfl
@[simp] theorem Hw.takeTag_icu : (h.takeTag).icu = h.icu := rfl
@[simp] theorem Hw.takeTag_per : (h.takeTag).per = h.per := rfl
@[simp] theorem Hw.takeTag_dmp : (h.takeTag).dmp = h.dmp := rfl
@[simp] theorem Hw.takeTag_ide : (h.takeTag).ide = h.ide := rfl
@[simp] theorem Hw.takeTag_bulk : (h.takeTag).bulk = h.bulk := rfl
@[simp] theorem Hw.takeTag_cis : (h.takeTag).cis = h.cis := rfl
@[simp] theorem Hw.takeTag_scu : (h.takeTag).scu = h.scu := rfl
@[simp] theorem Hw.takeTag_lcs : (h.takeTag).lcs = h.lcs := rfl
@[simp] theorem Hw.takeTag_rail : (h.takeTag).rail = h.rail := rfl
@[simp] theorem Hw.takeTag_prime : (h.takeTag).prime = h.prime := rfl
@[simp] theorem Hw.takeTag_tap : (h.takeTag).tap = h.tap := rfl
@[simp] theorem Hw.takeTag_free : (h.takeTag).free = h.free := rfl
@[simp] theorem Hw.takeTag_out : (h.takeTag).out = h.out := rfl

@[simp] theorem Hw.addTxn_regs (t : Txn) : (h.addTxn t).regs = h.regs := Hw.takeTag_regs h
@[simp] theorem Hw.addTxn_latch (t : Txn) : (h.addTxn t).latch = h.latch := Hw.takeTag_latch h
@[simp] theorem Hw.addTxn_pow (t : Txn) : (h.addTxn t).pow = h.pow := Hw.takeTag_pow h
@[simp] theorem Hw.addTxn_clk (t : Txn) : (h.addTxn t).clk = h.clk := Hw.takeTag_clk h
@[simp] theorem Hw.addTxn_gate (t : Txn) : (h.addTxn t).gate = h.gate := Hw.takeTag_gate h
@[simp] theorem Hw.addTxn_regions (t : Txn) : (h.addTxn t).regions = h.regions := Hw.takeTag_regions h
@[simp] theorem Hw.addTxn_rgl (t : Txn) : (h.addTxn t).rgl = h.rgl := Hw.takeTag_rgl h
@[simp] theorem Hw.addTxn_sumpWords (t : Txn) : (h.addTxn t).sumpWords = h.sumpWords := Hw.takeTag_sumpWords h
@[simp] theorem Hw.addTxn_ports (t : Txn) : (h.addTxn t).ports = h.ports := Hw.takeTag_ports h
@[simp] theorem Hw.addTxn_gkt (t : Txn) : (h.addTxn t).gkt = h.gkt := Hw.takeTag_gkt h
@[simp] theorem Hw.addTxn_pump (t : Txn) : (h.addTxn t).pump = h.pump := Hw.takeTag_pump h
@[simp] theorem Hw.addTxn_gw (t : Txn) : (h.addTxn t).gw = h.gw := Hw.takeTag_gw h
@[simp] theorem Hw.addTxn_bru (t : Txn) : (h.addTxn t).bru = h.bru := Hw.takeTag_bru h
@[simp] theorem Hw.addTxn_shaper (t : Txn) : (h.addTxn t).shaper = h.shaper := Hw.takeTag_shaper h
@[simp] theorem Hw.addTxn_sched (t : Txn) : (h.addTxn t).sched = h.sched := Hw.takeTag_sched h
@[simp] theorem Hw.addTxn_cfe (t : Txn) : (h.addTxn t).cfe = h.cfe := Hw.takeTag_cfe h
@[simp] theorem Hw.addTxn_obj (t : Txn) : (h.addTxn t).obj = h.obj := Hw.takeTag_obj h
@[simp] theorem Hw.addTxn_fcu (t : Txn) : (h.addTxn t).fcu = h.fcu := Hw.takeTag_fcu h
@[simp] theorem Hw.addTxn_clus (t : Txn) : (h.addTxn t).clus = h.clus := Hw.takeTag_clus h
@[simp] theorem Hw.addTxn_dom (t : Txn) : (h.addTxn t).dom = h.dom := Hw.takeTag_dom h
@[simp] theorem Hw.addTxn_hangs (t : Txn) : (h.addTxn t).hangs = h.hangs := Hw.takeTag_hangs h
@[simp] theorem Hw.addTxn_resets (t : Txn) : (h.addTxn t).resets = h.resets := Hw.takeTag_resets h
@[simp] theorem Hw.addTxn_inject (t : Txn) : (h.addTxn t).inject = h.inject := Hw.takeTag_inject h
@[simp] theorem Hw.addTxn_well (t : Txn) : (h.addTxn t).well = h.well := Hw.takeTag_well h
@[simp] theorem Hw.addTxn_cnt (t : Txn) : (h.addTxn t).cnt = h.cnt := Hw.takeTag_cnt h
@[simp] theorem Hw.addTxn_icu (t : Txn) : (h.addTxn t).icu = h.icu := Hw.takeTag_icu h
@[simp] theorem Hw.addTxn_per (t : Txn) : (h.addTxn t).per = h.per := Hw.takeTag_per h
@[simp] theorem Hw.addTxn_dmp (t : Txn) : (h.addTxn t).dmp = h.dmp := Hw.takeTag_dmp h
@[simp] theorem Hw.addTxn_ide (t : Txn) : (h.addTxn t).ide = h.ide := Hw.takeTag_ide h
@[simp] theorem Hw.addTxn_bulk (t : Txn) : (h.addTxn t).bulk = h.bulk := Hw.takeTag_bulk h
@[simp] theorem Hw.addTxn_cis (t : Txn) : (h.addTxn t).cis = h.cis := Hw.takeTag_cis h
@[simp] theorem Hw.addTxn_scu (t : Txn) : (h.addTxn t).scu = h.scu := Hw.takeTag_scu h
@[simp] theorem Hw.addTxn_lcs (t : Txn) : (h.addTxn t).lcs = h.lcs := Hw.takeTag_lcs h
@[simp] theorem Hw.addTxn_rail (t : Txn) : (h.addTxn t).rail = h.rail := Hw.takeTag_rail h
@[simp] theorem Hw.addTxn_prime (t : Txn) : (h.addTxn t).prime = h.prime := Hw.takeTag_prime h
@[simp] theorem Hw.addTxn_tap (t : Txn) : (h.addTxn t).tap = h.tap := Hw.takeTag_tap h
@[simp] theorem Hw.addTxn_free (t : Txn) : (h.addTxn t).free = h.free := Hw.takeTag_free h
@[simp] theorem Hw.addTxn_out (t : Txn) : (h.addTxn t).out = h.out := Hw.takeTag_out h

@[simp] theorem Hw.enqueueTxn_regs (t : Txn) : (h.enqueueTxn t).regs = h.regs := rfl
@[simp] theorem Hw.enqueueTxn_latch (t : Txn) : (h.enqueueTxn t).latch = h.latch := rfl
@[simp] theorem Hw.enqueueTxn_pow (t : Txn) : (h.enqueueTxn t).pow = h.pow := rfl
@[simp] theorem Hw.enqueueTxn_clk (t : Txn) : (h.enqueueTxn t).clk = h.clk := rfl
@[simp] theorem Hw.enqueueTxn_gate (t : Txn) : (h.enqueueTxn t).gate = h.gate := rfl
@[simp] theorem Hw.enqueueTxn_regions (t : Txn) : (h.enqueueTxn t).regions = h.regions := rfl
@[simp] theorem Hw.enqueueTxn_txns (t : Txn) : (h.enqueueTxn t).txns = h.txns := rfl
@[simp] theorem Hw.enqueueTxn_nextTxn (t : Txn) : (h.enqueueTxn t).nextTxn = h.nextTxn := rfl
@[simp] theorem Hw.enqueueTxn_sumpWords (t : Txn) : (h.enqueueTxn t).sumpWords = h.sumpWords := rfl
@[simp] theorem Hw.enqueueTxn_ports (t : Txn) : (h.enqueueTxn t).ports = h.ports := rfl
@[simp] theorem Hw.enqueueTxn_gkt (t : Txn) : (h.enqueueTxn t).gkt = h.gkt := rfl
@[simp] theorem Hw.enqueueTxn_pump (t : Txn) : (h.enqueueTxn t).pump = h.pump := rfl
@[simp] theorem Hw.enqueueTxn_gw (t : Txn) : (h.enqueueTxn t).gw = h.gw := rfl
@[simp] theorem Hw.enqueueTxn_bru (t : Txn) : (h.enqueueTxn t).bru = h.bru := rfl
@[simp] theorem Hw.enqueueTxn_shaper (t : Txn) : (h.enqueueTxn t).shaper = h.shaper := rfl
@[simp] theorem Hw.enqueueTxn_sched (t : Txn) : (h.enqueueTxn t).sched = h.sched := rfl
@[simp] theorem Hw.enqueueTxn_cfe (t : Txn) : (h.enqueueTxn t).cfe = h.cfe := rfl
@[simp] theorem Hw.enqueueTxn_obj (t : Txn) : (h.enqueueTxn t).obj = h.obj := rfl
@[simp] theorem Hw.enqueueTxn_fcu (t : Txn) : (h.enqueueTxn t).fcu = h.fcu := rfl
@[simp] theorem Hw.enqueueTxn_clus (t : Txn) : (h.enqueueTxn t).clus = h.clus := rfl
@[simp] theorem Hw.enqueueTxn_dom (t : Txn) : (h.enqueueTxn t).dom = h.dom := rfl
@[simp] theorem Hw.enqueueTxn_hangs (t : Txn) : (h.enqueueTxn t).hangs = h.hangs := rfl
@[simp] theorem Hw.enqueueTxn_resets (t : Txn) : (h.enqueueTxn t).resets = h.resets := rfl
@[simp] theorem Hw.enqueueTxn_inject (t : Txn) : (h.enqueueTxn t).inject = h.inject := rfl
@[simp] theorem Hw.enqueueTxn_well (t : Txn) : (h.enqueueTxn t).well = h.well := rfl
@[simp] theorem Hw.enqueueTxn_cnt (t : Txn) : (h.enqueueTxn t).cnt = h.cnt := rfl
@[simp] theorem Hw.enqueueTxn_icu (t : Txn) : (h.enqueueTxn t).icu = h.icu := rfl
@[simp] theorem Hw.enqueueTxn_per (t : Txn) : (h.enqueueTxn t).per = h.per := rfl
@[simp] theorem Hw.enqueueTxn_dmp (t : Txn) : (h.enqueueTxn t).dmp = h.dmp := rfl
@[simp] theorem Hw.enqueueTxn_ide (t : Txn) : (h.enqueueTxn t).ide = h.ide := rfl
@[simp] theorem Hw.enqueueTxn_bulk (t : Txn) : (h.enqueueTxn t).bulk = h.bulk := rfl
@[simp] theorem Hw.enqueueTxn_cis (t : Txn) : (h.enqueueTxn t).cis = h.cis := rfl
@[simp] theorem Hw.enqueueTxn_scu (t : Txn) : (h.enqueueTxn t).scu = h.scu := rfl
@[simp] theorem Hw.enqueueTxn_lcs (t : Txn) : (h.enqueueTxn t).lcs = h.lcs := rfl
@[simp] theorem Hw.enqueueTxn_rail (t : Txn) : (h.enqueueTxn t).rail = h.rail := rfl
@[simp] theorem Hw.enqueueTxn_prime (t : Txn) : (h.enqueueTxn t).prime = h.prime := rfl
@[simp] theorem Hw.enqueueTxn_tap (t : Txn) : (h.enqueueTxn t).tap = h.tap := rfl
@[simp] theorem Hw.enqueueTxn_free (t : Txn) : (h.enqueueTxn t).free = h.free := rfl
@[simp] theorem Hw.enqueueTxn_out (t : Txn) : (h.enqueueTxn t).out = h.out := rfl

@[simp] theorem Hw.enqueueMsg_regs (m s b : Nat) (x : Message) (p : Option (Fin 16)) : (h.enqueueMsg m s b x p).regs = h.regs := rfl
@[simp] theorem Hw.enqueueMsg_latch (m s b : Nat) (x : Message) (p : Option (Fin 16)) : (h.enqueueMsg m s b x p).latch = h.latch := rfl
@[simp] theorem Hw.enqueueMsg_pow (m s b : Nat) (x : Message) (p : Option (Fin 16)) : (h.enqueueMsg m s b x p).pow = h.pow := rfl
@[simp] theorem Hw.enqueueMsg_clk (m s b : Nat) (x : Message) (p : Option (Fin 16)) : (h.enqueueMsg m s b x p).clk = h.clk := rfl
@[simp] theorem Hw.enqueueMsg_gate (m s b : Nat) (x : Message) (p : Option (Fin 16)) : (h.enqueueMsg m s b x p).gate = h.gate := rfl
@[simp] theorem Hw.enqueueMsg_regions (m s b : Nat) (x : Message) (p : Option (Fin 16)) : (h.enqueueMsg m s b x p).regions = h.regions := rfl
@[simp] theorem Hw.enqueueMsg_txns (m s b : Nat) (x : Message) (p : Option (Fin 16)) : (h.enqueueMsg m s b x p).txns = h.txns := rfl
@[simp] theorem Hw.enqueueMsg_nextTxn (m s b : Nat) (x : Message) (p : Option (Fin 16)) : (h.enqueueMsg m s b x p).nextTxn = h.nextTxn := rfl
@[simp] theorem Hw.enqueueMsg_sumpWords (m s b : Nat) (x : Message) (p : Option (Fin 16)) : (h.enqueueMsg m s b x p).sumpWords = h.sumpWords := rfl
@[simp] theorem Hw.enqueueMsg_ports (m s b : Nat) (x : Message) (p : Option (Fin 16)) : (h.enqueueMsg m s b x p).ports = h.ports := rfl
@[simp] theorem Hw.enqueueMsg_gkt (m s b : Nat) (x : Message) (p : Option (Fin 16)) : (h.enqueueMsg m s b x p).gkt = h.gkt := rfl
@[simp] theorem Hw.enqueueMsg_pump (m s b : Nat) (x : Message) (p : Option (Fin 16)) : (h.enqueueMsg m s b x p).pump = h.pump := rfl
@[simp] theorem Hw.enqueueMsg_gw (m s b : Nat) (x : Message) (p : Option (Fin 16)) : (h.enqueueMsg m s b x p).gw = h.gw := rfl
@[simp] theorem Hw.enqueueMsg_bru (m s b : Nat) (x : Message) (p : Option (Fin 16)) : (h.enqueueMsg m s b x p).bru = h.bru := rfl
@[simp] theorem Hw.enqueueMsg_shaper (m s b : Nat) (x : Message) (p : Option (Fin 16)) : (h.enqueueMsg m s b x p).shaper = h.shaper := rfl
@[simp] theorem Hw.enqueueMsg_sched (m s b : Nat) (x : Message) (p : Option (Fin 16)) : (h.enqueueMsg m s b x p).sched = h.sched := rfl
@[simp] theorem Hw.enqueueMsg_cfe (m s b : Nat) (x : Message) (p : Option (Fin 16)) : (h.enqueueMsg m s b x p).cfe = h.cfe := rfl
@[simp] theorem Hw.enqueueMsg_obj (m s b : Nat) (x : Message) (p : Option (Fin 16)) : (h.enqueueMsg m s b x p).obj = h.obj := rfl
@[simp] theorem Hw.enqueueMsg_fcu (m s b : Nat) (x : Message) (p : Option (Fin 16)) : (h.enqueueMsg m s b x p).fcu = h.fcu := rfl
@[simp] theorem Hw.enqueueMsg_clus (m s b : Nat) (x : Message) (p : Option (Fin 16)) : (h.enqueueMsg m s b x p).clus = h.clus := rfl
@[simp] theorem Hw.enqueueMsg_dom (m s b : Nat) (x : Message) (p : Option (Fin 16)) : (h.enqueueMsg m s b x p).dom = h.dom := rfl
@[simp] theorem Hw.enqueueMsg_hangs (m s b : Nat) (x : Message) (p : Option (Fin 16)) : (h.enqueueMsg m s b x p).hangs = h.hangs := rfl
@[simp] theorem Hw.enqueueMsg_resets (m s b : Nat) (x : Message) (p : Option (Fin 16)) : (h.enqueueMsg m s b x p).resets = h.resets := rfl
@[simp] theorem Hw.enqueueMsg_inject (m s b : Nat) (x : Message) (p : Option (Fin 16)) : (h.enqueueMsg m s b x p).inject = h.inject := rfl
@[simp] theorem Hw.enqueueMsg_well (m s b : Nat) (x : Message) (p : Option (Fin 16)) : (h.enqueueMsg m s b x p).well = h.well := rfl
@[simp] theorem Hw.enqueueMsg_cnt (m s b : Nat) (x : Message) (p : Option (Fin 16)) : (h.enqueueMsg m s b x p).cnt = h.cnt := rfl
@[simp] theorem Hw.enqueueMsg_icu (m s b : Nat) (x : Message) (p : Option (Fin 16)) : (h.enqueueMsg m s b x p).icu = h.icu := rfl
@[simp] theorem Hw.enqueueMsg_per (m s b : Nat) (x : Message) (p : Option (Fin 16)) : (h.enqueueMsg m s b x p).per = h.per := rfl
@[simp] theorem Hw.enqueueMsg_dmp (m s b : Nat) (x : Message) (p : Option (Fin 16)) : (h.enqueueMsg m s b x p).dmp = h.dmp := rfl
@[simp] theorem Hw.enqueueMsg_ide (m s b : Nat) (x : Message) (p : Option (Fin 16)) : (h.enqueueMsg m s b x p).ide = h.ide := rfl
@[simp] theorem Hw.enqueueMsg_bulk (m s b : Nat) (x : Message) (p : Option (Fin 16)) : (h.enqueueMsg m s b x p).bulk = h.bulk := rfl
@[simp] theorem Hw.enqueueMsg_cis (m s b : Nat) (x : Message) (p : Option (Fin 16)) : (h.enqueueMsg m s b x p).cis = h.cis := rfl
@[simp] theorem Hw.enqueueMsg_scu (m s b : Nat) (x : Message) (p : Option (Fin 16)) : (h.enqueueMsg m s b x p).scu = h.scu := rfl
@[simp] theorem Hw.enqueueMsg_lcs (m s b : Nat) (x : Message) (p : Option (Fin 16)) : (h.enqueueMsg m s b x p).lcs = h.lcs := rfl
@[simp] theorem Hw.enqueueMsg_rail (m s b : Nat) (x : Message) (p : Option (Fin 16)) : (h.enqueueMsg m s b x p).rail = h.rail := rfl
@[simp] theorem Hw.enqueueMsg_prime (m s b : Nat) (x : Message) (p : Option (Fin 16)) : (h.enqueueMsg m s b x p).prime = h.prime := rfl
@[simp] theorem Hw.enqueueMsg_tap (m s b : Nat) (x : Message) (p : Option (Fin 16)) : (h.enqueueMsg m s b x p).tap = h.tap := rfl
@[simp] theorem Hw.enqueueMsg_free (m s b : Nat) (x : Message) (p : Option (Fin 16)) : (h.enqueueMsg m s b x p).free = h.free := rfl
@[simp] theorem Hw.enqueueMsg_out (m s b : Nat) (x : Message) (p : Option (Fin 16)) : (h.enqueueMsg m s b x p).out = h.out := rfl

@[simp] theorem Hw.dropWork_regs (id : Nat) : (h.dropWork id).regs = h.regs := rfl
@[simp] theorem Hw.dropWork_latch (id : Nat) : (h.dropWork id).latch = h.latch := rfl
@[simp] theorem Hw.dropWork_pow (id : Nat) : (h.dropWork id).pow = h.pow := rfl
@[simp] theorem Hw.dropWork_clk (id : Nat) : (h.dropWork id).clk = h.clk := rfl
@[simp] theorem Hw.dropWork_gate (id : Nat) : (h.dropWork id).gate = h.gate := rfl
@[simp] theorem Hw.dropWork_regions (id : Nat) : (h.dropWork id).regions = h.regions := rfl
@[simp] theorem Hw.dropWork_txns (id : Nat) : (h.dropWork id).txns = h.txns := rfl
@[simp] theorem Hw.dropWork_nextTxn (id : Nat) : (h.dropWork id).nextTxn = h.nextTxn := rfl
@[simp] theorem Hw.dropWork_sumpWords (id : Nat) : (h.dropWork id).sumpWords = h.sumpWords := rfl
@[simp] theorem Hw.dropWork_ports (id : Nat) : (h.dropWork id).ports = h.ports := rfl
@[simp] theorem Hw.dropWork_gkt (id : Nat) : (h.dropWork id).gkt = h.gkt := rfl
@[simp] theorem Hw.dropWork_pump (id : Nat) : (h.dropWork id).pump = h.pump := rfl
@[simp] theorem Hw.dropWork_gw (id : Nat) : (h.dropWork id).gw = h.gw := rfl
@[simp] theorem Hw.dropWork_bru (id : Nat) : (h.dropWork id).bru = h.bru := rfl
@[simp] theorem Hw.dropWork_shaper (id : Nat) : (h.dropWork id).shaper = h.shaper := rfl
@[simp] theorem Hw.dropWork_sched (id : Nat) : (h.dropWork id).sched = h.sched := rfl
@[simp] theorem Hw.dropWork_cfe (id : Nat) : (h.dropWork id).cfe = h.cfe := rfl
@[simp] theorem Hw.dropWork_obj (id : Nat) : (h.dropWork id).obj = h.obj := rfl
@[simp] theorem Hw.dropWork_fcu (id : Nat) : (h.dropWork id).fcu = h.fcu := rfl
@[simp] theorem Hw.dropWork_clus (id : Nat) : (h.dropWork id).clus = h.clus := rfl
@[simp] theorem Hw.dropWork_dom (id : Nat) : (h.dropWork id).dom = h.dom := rfl
@[simp] theorem Hw.dropWork_hangs (id : Nat) : (h.dropWork id).hangs = h.hangs := rfl
@[simp] theorem Hw.dropWork_resets (id : Nat) : (h.dropWork id).resets = h.resets := rfl
@[simp] theorem Hw.dropWork_inject (id : Nat) : (h.dropWork id).inject = h.inject := rfl
@[simp] theorem Hw.dropWork_well (id : Nat) : (h.dropWork id).well = h.well := rfl
@[simp] theorem Hw.dropWork_cnt (id : Nat) : (h.dropWork id).cnt = h.cnt := rfl
@[simp] theorem Hw.dropWork_icu (id : Nat) : (h.dropWork id).icu = h.icu := rfl
@[simp] theorem Hw.dropWork_per (id : Nat) : (h.dropWork id).per = h.per := rfl
@[simp] theorem Hw.dropWork_dmp (id : Nat) : (h.dropWork id).dmp = h.dmp := rfl
@[simp] theorem Hw.dropWork_ide (id : Nat) : (h.dropWork id).ide = h.ide := rfl
@[simp] theorem Hw.dropWork_bulk (id : Nat) : (h.dropWork id).bulk = h.bulk := rfl
@[simp] theorem Hw.dropWork_cis (id : Nat) : (h.dropWork id).cis = h.cis := rfl
@[simp] theorem Hw.dropWork_scu (id : Nat) : (h.dropWork id).scu = h.scu := rfl
@[simp] theorem Hw.dropWork_lcs (id : Nat) : (h.dropWork id).lcs = h.lcs := rfl
@[simp] theorem Hw.dropWork_rail (id : Nat) : (h.dropWork id).rail = h.rail := rfl
@[simp] theorem Hw.dropWork_prime (id : Nat) : (h.dropWork id).prime = h.prime := rfl
@[simp] theorem Hw.dropWork_tap (id : Nat) : (h.dropWork id).tap = h.tap := rfl
@[simp] theorem Hw.dropWork_free (id : Nat) : (h.dropWork id).free = h.free := rfl
@[simp] theorem Hw.dropWork_out (id : Nat) : (h.dropWork id).out = h.out := rfl

@[simp] theorem Hw.modVc_regs (p v : Nat) (f : EgressVc → EgressVc) : (h.modVc p v f).regs = h.regs := rfl
@[simp] theorem Hw.modVc_latch (p v : Nat) (f : EgressVc → EgressVc) : (h.modVc p v f).latch = h.latch := rfl
@[simp] theorem Hw.modVc_pow (p v : Nat) (f : EgressVc → EgressVc) : (h.modVc p v f).pow = h.pow := rfl
@[simp] theorem Hw.modVc_clk (p v : Nat) (f : EgressVc → EgressVc) : (h.modVc p v f).clk = h.clk := rfl
@[simp] theorem Hw.modVc_gate (p v : Nat) (f : EgressVc → EgressVc) : (h.modVc p v f).gate = h.gate := rfl
@[simp] theorem Hw.modVc_regions (p v : Nat) (f : EgressVc → EgressVc) : (h.modVc p v f).regions = h.regions := rfl
@[simp] theorem Hw.modVc_txns (p v : Nat) (f : EgressVc → EgressVc) : (h.modVc p v f).txns = h.txns := rfl
@[simp] theorem Hw.modVc_nextTxn (p v : Nat) (f : EgressVc → EgressVc) : (h.modVc p v f).nextTxn = h.nextTxn := rfl
@[simp] theorem Hw.modVc_rgl (p v : Nat) (f : EgressVc → EgressVc) : (h.modVc p v f).rgl = h.rgl := rfl
@[simp] theorem Hw.modVc_sumpWords (p v : Nat) (f : EgressVc → EgressVc) : (h.modVc p v f).sumpWords = h.sumpWords := rfl
@[simp] theorem Hw.modVc_gkt (p v : Nat) (f : EgressVc → EgressVc) : (h.modVc p v f).gkt = h.gkt := rfl
@[simp] theorem Hw.modVc_pump (p v : Nat) (f : EgressVc → EgressVc) : (h.modVc p v f).pump = h.pump := rfl
@[simp] theorem Hw.modVc_gw (p v : Nat) (f : EgressVc → EgressVc) : (h.modVc p v f).gw = h.gw := rfl
@[simp] theorem Hw.modVc_bru (p v : Nat) (f : EgressVc → EgressVc) : (h.modVc p v f).bru = h.bru := rfl
@[simp] theorem Hw.modVc_shaper (p v : Nat) (f : EgressVc → EgressVc) : (h.modVc p v f).shaper = h.shaper := rfl
@[simp] theorem Hw.modVc_sched (p v : Nat) (f : EgressVc → EgressVc) : (h.modVc p v f).sched = h.sched := rfl
@[simp] theorem Hw.modVc_cfe (p v : Nat) (f : EgressVc → EgressVc) : (h.modVc p v f).cfe = h.cfe := rfl
@[simp] theorem Hw.modVc_obj (p v : Nat) (f : EgressVc → EgressVc) : (h.modVc p v f).obj = h.obj := rfl
@[simp] theorem Hw.modVc_fcu (p v : Nat) (f : EgressVc → EgressVc) : (h.modVc p v f).fcu = h.fcu := rfl
@[simp] theorem Hw.modVc_clus (p v : Nat) (f : EgressVc → EgressVc) : (h.modVc p v f).clus = h.clus := rfl
@[simp] theorem Hw.modVc_dom (p v : Nat) (f : EgressVc → EgressVc) : (h.modVc p v f).dom = h.dom := rfl
@[simp] theorem Hw.modVc_hangs (p v : Nat) (f : EgressVc → EgressVc) : (h.modVc p v f).hangs = h.hangs := rfl
@[simp] theorem Hw.modVc_resets (p v : Nat) (f : EgressVc → EgressVc) : (h.modVc p v f).resets = h.resets := rfl
@[simp] theorem Hw.modVc_inject (p v : Nat) (f : EgressVc → EgressVc) : (h.modVc p v f).inject = h.inject := rfl
@[simp] theorem Hw.modVc_well (p v : Nat) (f : EgressVc → EgressVc) : (h.modVc p v f).well = h.well := rfl
@[simp] theorem Hw.modVc_cnt (p v : Nat) (f : EgressVc → EgressVc) : (h.modVc p v f).cnt = h.cnt := rfl
@[simp] theorem Hw.modVc_icu (p v : Nat) (f : EgressVc → EgressVc) : (h.modVc p v f).icu = h.icu := rfl
@[simp] theorem Hw.modVc_per (p v : Nat) (f : EgressVc → EgressVc) : (h.modVc p v f).per = h.per := rfl
@[simp] theorem Hw.modVc_dmp (p v : Nat) (f : EgressVc → EgressVc) : (h.modVc p v f).dmp = h.dmp := rfl
@[simp] theorem Hw.modVc_ide (p v : Nat) (f : EgressVc → EgressVc) : (h.modVc p v f).ide = h.ide := rfl
@[simp] theorem Hw.modVc_bulk (p v : Nat) (f : EgressVc → EgressVc) : (h.modVc p v f).bulk = h.bulk := rfl
@[simp] theorem Hw.modVc_cis (p v : Nat) (f : EgressVc → EgressVc) : (h.modVc p v f).cis = h.cis := rfl
@[simp] theorem Hw.modVc_scu (p v : Nat) (f : EgressVc → EgressVc) : (h.modVc p v f).scu = h.scu := rfl
@[simp] theorem Hw.modVc_lcs (p v : Nat) (f : EgressVc → EgressVc) : (h.modVc p v f).lcs = h.lcs := rfl
@[simp] theorem Hw.modVc_rail (p v : Nat) (f : EgressVc → EgressVc) : (h.modVc p v f).rail = h.rail := rfl
@[simp] theorem Hw.modVc_prime (p v : Nat) (f : EgressVc → EgressVc) : (h.modVc p v f).prime = h.prime := rfl
@[simp] theorem Hw.modVc_tap (p v : Nat) (f : EgressVc → EgressVc) : (h.modVc p v f).tap = h.tap := rfl
@[simp] theorem Hw.modVc_free (p v : Nat) (f : EgressVc → EgressVc) : (h.modVc p v f).free = h.free := rfl
@[simp] theorem Hw.modVc_out (p v : Nat) (f : EgressVc → EgressVc) : (h.modVc p v f).out = h.out := rfl

@[simp] theorem Hw.enqueueFor_regs (o : Option Nat) (m s b : Nat) (x : Message) (p : Option (Fin 16)) : (h.enqueueFor o m s b x p).regs = h.regs := rfl
@[simp] theorem Hw.enqueueFor_latch (o : Option Nat) (m s b : Nat) (x : Message) (p : Option (Fin 16)) : (h.enqueueFor o m s b x p).latch = h.latch := rfl
@[simp] theorem Hw.enqueueFor_pow (o : Option Nat) (m s b : Nat) (x : Message) (p : Option (Fin 16)) : (h.enqueueFor o m s b x p).pow = h.pow := rfl
@[simp] theorem Hw.enqueueFor_clk (o : Option Nat) (m s b : Nat) (x : Message) (p : Option (Fin 16)) : (h.enqueueFor o m s b x p).clk = h.clk := rfl
@[simp] theorem Hw.enqueueFor_gate (o : Option Nat) (m s b : Nat) (x : Message) (p : Option (Fin 16)) : (h.enqueueFor o m s b x p).gate = h.gate := rfl
@[simp] theorem Hw.enqueueFor_regions (o : Option Nat) (m s b : Nat) (x : Message) (p : Option (Fin 16)) : (h.enqueueFor o m s b x p).regions = h.regions := rfl
@[simp] theorem Hw.enqueueFor_txns (o : Option Nat) (m s b : Nat) (x : Message) (p : Option (Fin 16)) : (h.enqueueFor o m s b x p).txns = h.txns := rfl
@[simp] theorem Hw.enqueueFor_nextTxn (o : Option Nat) (m s b : Nat) (x : Message) (p : Option (Fin 16)) : (h.enqueueFor o m s b x p).nextTxn = h.nextTxn := rfl
@[simp] theorem Hw.enqueueFor_sumpWords (o : Option Nat) (m s b : Nat) (x : Message) (p : Option (Fin 16)) : (h.enqueueFor o m s b x p).sumpWords = h.sumpWords := rfl
@[simp] theorem Hw.enqueueFor_ports (o : Option Nat) (m s b : Nat) (x : Message) (p : Option (Fin 16)) : (h.enqueueFor o m s b x p).ports = h.ports := rfl
@[simp] theorem Hw.enqueueFor_gkt (o : Option Nat) (m s b : Nat) (x : Message) (p : Option (Fin 16)) : (h.enqueueFor o m s b x p).gkt = h.gkt := rfl
@[simp] theorem Hw.enqueueFor_pump (o : Option Nat) (m s b : Nat) (x : Message) (p : Option (Fin 16)) : (h.enqueueFor o m s b x p).pump = h.pump := rfl
@[simp] theorem Hw.enqueueFor_gw (o : Option Nat) (m s b : Nat) (x : Message) (p : Option (Fin 16)) : (h.enqueueFor o m s b x p).gw = h.gw := rfl
@[simp] theorem Hw.enqueueFor_bru (o : Option Nat) (m s b : Nat) (x : Message) (p : Option (Fin 16)) : (h.enqueueFor o m s b x p).bru = h.bru := rfl
@[simp] theorem Hw.enqueueFor_shaper (o : Option Nat) (m s b : Nat) (x : Message) (p : Option (Fin 16)) : (h.enqueueFor o m s b x p).shaper = h.shaper := rfl
@[simp] theorem Hw.enqueueFor_sched (o : Option Nat) (m s b : Nat) (x : Message) (p : Option (Fin 16)) : (h.enqueueFor o m s b x p).sched = h.sched := rfl
@[simp] theorem Hw.enqueueFor_cfe (o : Option Nat) (m s b : Nat) (x : Message) (p : Option (Fin 16)) : (h.enqueueFor o m s b x p).cfe = h.cfe := rfl
@[simp] theorem Hw.enqueueFor_obj (o : Option Nat) (m s b : Nat) (x : Message) (p : Option (Fin 16)) : (h.enqueueFor o m s b x p).obj = h.obj := rfl
@[simp] theorem Hw.enqueueFor_fcu (o : Option Nat) (m s b : Nat) (x : Message) (p : Option (Fin 16)) : (h.enqueueFor o m s b x p).fcu = h.fcu := rfl
@[simp] theorem Hw.enqueueFor_clus (o : Option Nat) (m s b : Nat) (x : Message) (p : Option (Fin 16)) : (h.enqueueFor o m s b x p).clus = h.clus := rfl
@[simp] theorem Hw.enqueueFor_dom (o : Option Nat) (m s b : Nat) (x : Message) (p : Option (Fin 16)) : (h.enqueueFor o m s b x p).dom = h.dom := rfl
@[simp] theorem Hw.enqueueFor_hangs (o : Option Nat) (m s b : Nat) (x : Message) (p : Option (Fin 16)) : (h.enqueueFor o m s b x p).hangs = h.hangs := rfl
@[simp] theorem Hw.enqueueFor_resets (o : Option Nat) (m s b : Nat) (x : Message) (p : Option (Fin 16)) : (h.enqueueFor o m s b x p).resets = h.resets := rfl
@[simp] theorem Hw.enqueueFor_inject (o : Option Nat) (m s b : Nat) (x : Message) (p : Option (Fin 16)) : (h.enqueueFor o m s b x p).inject = h.inject := rfl
@[simp] theorem Hw.enqueueFor_well (o : Option Nat) (m s b : Nat) (x : Message) (p : Option (Fin 16)) : (h.enqueueFor o m s b x p).well = h.well := rfl
@[simp] theorem Hw.enqueueFor_cnt (o : Option Nat) (m s b : Nat) (x : Message) (p : Option (Fin 16)) : (h.enqueueFor o m s b x p).cnt = h.cnt := rfl
@[simp] theorem Hw.enqueueFor_icu (o : Option Nat) (m s b : Nat) (x : Message) (p : Option (Fin 16)) : (h.enqueueFor o m s b x p).icu = h.icu := rfl
@[simp] theorem Hw.enqueueFor_per (o : Option Nat) (m s b : Nat) (x : Message) (p : Option (Fin 16)) : (h.enqueueFor o m s b x p).per = h.per := rfl
@[simp] theorem Hw.enqueueFor_dmp (o : Option Nat) (m s b : Nat) (x : Message) (p : Option (Fin 16)) : (h.enqueueFor o m s b x p).dmp = h.dmp := rfl
@[simp] theorem Hw.enqueueFor_ide (o : Option Nat) (m s b : Nat) (x : Message) (p : Option (Fin 16)) : (h.enqueueFor o m s b x p).ide = h.ide := rfl
@[simp] theorem Hw.enqueueFor_bulk (o : Option Nat) (m s b : Nat) (x : Message) (p : Option (Fin 16)) : (h.enqueueFor o m s b x p).bulk = h.bulk := rfl
@[simp] theorem Hw.enqueueFor_cis (o : Option Nat) (m s b : Nat) (x : Message) (p : Option (Fin 16)) : (h.enqueueFor o m s b x p).cis = h.cis := rfl
@[simp] theorem Hw.enqueueFor_scu (o : Option Nat) (m s b : Nat) (x : Message) (p : Option (Fin 16)) : (h.enqueueFor o m s b x p).scu = h.scu := rfl
@[simp] theorem Hw.enqueueFor_lcs (o : Option Nat) (m s b : Nat) (x : Message) (p : Option (Fin 16)) : (h.enqueueFor o m s b x p).lcs = h.lcs := rfl
@[simp] theorem Hw.enqueueFor_rail (o : Option Nat) (m s b : Nat) (x : Message) (p : Option (Fin 16)) : (h.enqueueFor o m s b x p).rail = h.rail := rfl
@[simp] theorem Hw.enqueueFor_prime (o : Option Nat) (m s b : Nat) (x : Message) (p : Option (Fin 16)) : (h.enqueueFor o m s b x p).prime = h.prime := rfl
@[simp] theorem Hw.enqueueFor_tap (o : Option Nat) (m s b : Nat) (x : Message) (p : Option (Fin 16)) : (h.enqueueFor o m s b x p).tap = h.tap := rfl
@[simp] theorem Hw.enqueueFor_free (o : Option Nat) (m s b : Nat) (x : Message) (p : Option (Fin 16)) : (h.enqueueFor o m s b x p).free = h.free := rfl
@[simp] theorem Hw.enqueueFor_out (o : Option Nat) (m s b : Nat) (x : Message) (p : Option (Fin 16)) : (h.enqueueFor o m s b x p).out = h.out := rfl

@[simp] theorem Hw.sendControl_regs (x : Message) : (h.sendControl x).regs = h.regs := rfl
@[simp] theorem Hw.sendControl_latch (x : Message) : (h.sendControl x).latch = h.latch := rfl
@[simp] theorem Hw.sendControl_pow (x : Message) : (h.sendControl x).pow = h.pow := rfl
@[simp] theorem Hw.sendControl_clk (x : Message) : (h.sendControl x).clk = h.clk := rfl
@[simp] theorem Hw.sendControl_gate (x : Message) : (h.sendControl x).gate = h.gate := rfl
@[simp] theorem Hw.sendControl_regions (x : Message) : (h.sendControl x).regions = h.regions := rfl
@[simp] theorem Hw.sendControl_txns (x : Message) : (h.sendControl x).txns = h.txns := rfl
@[simp] theorem Hw.sendControl_nextTxn (x : Message) : (h.sendControl x).nextTxn = h.nextTxn := rfl
@[simp] theorem Hw.sendControl_sumpWords (x : Message) : (h.sendControl x).sumpWords = h.sumpWords := rfl
@[simp] theorem Hw.sendControl_ports (x : Message) : (h.sendControl x).ports = h.ports := rfl
@[simp] theorem Hw.sendControl_gkt (x : Message) : (h.sendControl x).gkt = h.gkt := rfl
@[simp] theorem Hw.sendControl_pump (x : Message) : (h.sendControl x).pump = h.pump := rfl
@[simp] theorem Hw.sendControl_gw (x : Message) : (h.sendControl x).gw = h.gw := rfl
@[simp] theorem Hw.sendControl_bru (x : Message) : (h.sendControl x).bru = h.bru := rfl
@[simp] theorem Hw.sendControl_shaper (x : Message) : (h.sendControl x).shaper = h.shaper := rfl
@[simp] theorem Hw.sendControl_sched (x : Message) : (h.sendControl x).sched = h.sched := rfl
@[simp] theorem Hw.sendControl_cfe (x : Message) : (h.sendControl x).cfe = h.cfe := rfl
@[simp] theorem Hw.sendControl_obj (x : Message) : (h.sendControl x).obj = h.obj := rfl
@[simp] theorem Hw.sendControl_fcu (x : Message) : (h.sendControl x).fcu = h.fcu := rfl
@[simp] theorem Hw.sendControl_clus (x : Message) : (h.sendControl x).clus = h.clus := rfl
@[simp] theorem Hw.sendControl_dom (x : Message) : (h.sendControl x).dom = h.dom := rfl
@[simp] theorem Hw.sendControl_hangs (x : Message) : (h.sendControl x).hangs = h.hangs := rfl
@[simp] theorem Hw.sendControl_resets (x : Message) : (h.sendControl x).resets = h.resets := rfl
@[simp] theorem Hw.sendControl_inject (x : Message) : (h.sendControl x).inject = h.inject := rfl
@[simp] theorem Hw.sendControl_well (x : Message) : (h.sendControl x).well = h.well := rfl
@[simp] theorem Hw.sendControl_cnt (x : Message) : (h.sendControl x).cnt = h.cnt := rfl
@[simp] theorem Hw.sendControl_icu (x : Message) : (h.sendControl x).icu = h.icu := rfl
@[simp] theorem Hw.sendControl_per (x : Message) : (h.sendControl x).per = h.per := rfl
@[simp] theorem Hw.sendControl_dmp (x : Message) : (h.sendControl x).dmp = h.dmp := rfl
@[simp] theorem Hw.sendControl_ide (x : Message) : (h.sendControl x).ide = h.ide := rfl
@[simp] theorem Hw.sendControl_bulk (x : Message) : (h.sendControl x).bulk = h.bulk := rfl
@[simp] theorem Hw.sendControl_cis (x : Message) : (h.sendControl x).cis = h.cis := rfl
@[simp] theorem Hw.sendControl_scu (x : Message) : (h.sendControl x).scu = h.scu := rfl
@[simp] theorem Hw.sendControl_lcs (x : Message) : (h.sendControl x).lcs = h.lcs := rfl
@[simp] theorem Hw.sendControl_rail (x : Message) : (h.sendControl x).rail = h.rail := rfl
@[simp] theorem Hw.sendControl_prime (x : Message) : (h.sendControl x).prime = h.prime := rfl
@[simp] theorem Hw.sendControl_tap (x : Message) : (h.sendControl x).tap = h.tap := rfl
@[simp] theorem Hw.sendControl_free (x : Message) : (h.sendControl x).free = h.free := rfl
@[simp] theorem Hw.sendControl_out (x : Message) : (h.sendControl x).out = h.out := rfl

@[simp] theorem Hw.sendOnPort_regs (p : Fin 16) (x : Message) : (h.sendOnPort p x).regs = h.regs := rfl
@[simp] theorem Hw.sendOnPort_latch (p : Fin 16) (x : Message) : (h.sendOnPort p x).latch = h.latch := rfl
@[simp] theorem Hw.sendOnPort_pow (p : Fin 16) (x : Message) : (h.sendOnPort p x).pow = h.pow := rfl
@[simp] theorem Hw.sendOnPort_clk (p : Fin 16) (x : Message) : (h.sendOnPort p x).clk = h.clk := rfl
@[simp] theorem Hw.sendOnPort_gate (p : Fin 16) (x : Message) : (h.sendOnPort p x).gate = h.gate := rfl
@[simp] theorem Hw.sendOnPort_regions (p : Fin 16) (x : Message) : (h.sendOnPort p x).regions = h.regions := rfl
@[simp] theorem Hw.sendOnPort_txns (p : Fin 16) (x : Message) : (h.sendOnPort p x).txns = h.txns := rfl
@[simp] theorem Hw.sendOnPort_nextTxn (p : Fin 16) (x : Message) : (h.sendOnPort p x).nextTxn = h.nextTxn := rfl
@[simp] theorem Hw.sendOnPort_sumpWords (p : Fin 16) (x : Message) : (h.sendOnPort p x).sumpWords = h.sumpWords := rfl
@[simp] theorem Hw.sendOnPort_ports (p : Fin 16) (x : Message) : (h.sendOnPort p x).ports = h.ports := rfl
@[simp] theorem Hw.sendOnPort_gkt (p : Fin 16) (x : Message) : (h.sendOnPort p x).gkt = h.gkt := rfl
@[simp] theorem Hw.sendOnPort_pump (p : Fin 16) (x : Message) : (h.sendOnPort p x).pump = h.pump := rfl
@[simp] theorem Hw.sendOnPort_gw (p : Fin 16) (x : Message) : (h.sendOnPort p x).gw = h.gw := rfl
@[simp] theorem Hw.sendOnPort_bru (p : Fin 16) (x : Message) : (h.sendOnPort p x).bru = h.bru := rfl
@[simp] theorem Hw.sendOnPort_shaper (p : Fin 16) (x : Message) : (h.sendOnPort p x).shaper = h.shaper := rfl
@[simp] theorem Hw.sendOnPort_sched (p : Fin 16) (x : Message) : (h.sendOnPort p x).sched = h.sched := rfl
@[simp] theorem Hw.sendOnPort_cfe (p : Fin 16) (x : Message) : (h.sendOnPort p x).cfe = h.cfe := rfl
@[simp] theorem Hw.sendOnPort_obj (p : Fin 16) (x : Message) : (h.sendOnPort p x).obj = h.obj := rfl
@[simp] theorem Hw.sendOnPort_fcu (p : Fin 16) (x : Message) : (h.sendOnPort p x).fcu = h.fcu := rfl
@[simp] theorem Hw.sendOnPort_clus (p : Fin 16) (x : Message) : (h.sendOnPort p x).clus = h.clus := rfl
@[simp] theorem Hw.sendOnPort_dom (p : Fin 16) (x : Message) : (h.sendOnPort p x).dom = h.dom := rfl
@[simp] theorem Hw.sendOnPort_hangs (p : Fin 16) (x : Message) : (h.sendOnPort p x).hangs = h.hangs := rfl
@[simp] theorem Hw.sendOnPort_resets (p : Fin 16) (x : Message) : (h.sendOnPort p x).resets = h.resets := rfl
@[simp] theorem Hw.sendOnPort_inject (p : Fin 16) (x : Message) : (h.sendOnPort p x).inject = h.inject := rfl
@[simp] theorem Hw.sendOnPort_well (p : Fin 16) (x : Message) : (h.sendOnPort p x).well = h.well := rfl
@[simp] theorem Hw.sendOnPort_cnt (p : Fin 16) (x : Message) : (h.sendOnPort p x).cnt = h.cnt := rfl
@[simp] theorem Hw.sendOnPort_icu (p : Fin 16) (x : Message) : (h.sendOnPort p x).icu = h.icu := rfl
@[simp] theorem Hw.sendOnPort_per (p : Fin 16) (x : Message) : (h.sendOnPort p x).per = h.per := rfl
@[simp] theorem Hw.sendOnPort_dmp (p : Fin 16) (x : Message) : (h.sendOnPort p x).dmp = h.dmp := rfl
@[simp] theorem Hw.sendOnPort_ide (p : Fin 16) (x : Message) : (h.sendOnPort p x).ide = h.ide := rfl
@[simp] theorem Hw.sendOnPort_bulk (p : Fin 16) (x : Message) : (h.sendOnPort p x).bulk = h.bulk := rfl
@[simp] theorem Hw.sendOnPort_cis (p : Fin 16) (x : Message) : (h.sendOnPort p x).cis = h.cis := rfl
@[simp] theorem Hw.sendOnPort_scu (p : Fin 16) (x : Message) : (h.sendOnPort p x).scu = h.scu := rfl
@[simp] theorem Hw.sendOnPort_lcs (p : Fin 16) (x : Message) : (h.sendOnPort p x).lcs = h.lcs := rfl
@[simp] theorem Hw.sendOnPort_rail (p : Fin 16) (x : Message) : (h.sendOnPort p x).rail = h.rail := rfl
@[simp] theorem Hw.sendOnPort_prime (p : Fin 16) (x : Message) : (h.sendOnPort p x).prime = h.prime := rfl
@[simp] theorem Hw.sendOnPort_tap (p : Fin 16) (x : Message) : (h.sendOnPort p x).tap = h.tap := rfl
@[simp] theorem Hw.sendOnPort_free (p : Fin 16) (x : Message) : (h.sendOnPort p x).free = h.free := rfl
@[simp] theorem Hw.sendOnPort_out (p : Fin 16) (x : Message) : (h.sendOnPort p x).out = h.out := rfl

@[simp] theorem Hw.dmUndriven_regs (a : DmAccess) : (h.dmUndriven a).regs = h.regs := rfl
@[simp] theorem Hw.dmUndriven_latch (a : DmAccess) : (h.dmUndriven a).latch = h.latch := rfl
@[simp] theorem Hw.dmUndriven_pow (a : DmAccess) : (h.dmUndriven a).pow = h.pow := rfl
@[simp] theorem Hw.dmUndriven_clk (a : DmAccess) : (h.dmUndriven a).clk = h.clk := rfl
@[simp] theorem Hw.dmUndriven_gate (a : DmAccess) : (h.dmUndriven a).gate = h.gate := rfl
@[simp] theorem Hw.dmUndriven_regions (a : DmAccess) : (h.dmUndriven a).regions = h.regions := rfl
@[simp] theorem Hw.dmUndriven_txns (a : DmAccess) : (h.dmUndriven a).txns = h.txns := rfl
@[simp] theorem Hw.dmUndriven_nextTxn (a : DmAccess) : (h.dmUndriven a).nextTxn = h.nextTxn := rfl
@[simp] theorem Hw.dmUndriven_rgl (a : DmAccess) : (h.dmUndriven a).rgl = h.rgl := rfl
@[simp] theorem Hw.dmUndriven_sumpWords (a : DmAccess) : (h.dmUndriven a).sumpWords = h.sumpWords := rfl
@[simp] theorem Hw.dmUndriven_ports (a : DmAccess) : (h.dmUndriven a).ports = h.ports := rfl
@[simp] theorem Hw.dmUndriven_gkt (a : DmAccess) : (h.dmUndriven a).gkt = h.gkt := rfl
@[simp] theorem Hw.dmUndriven_pump (a : DmAccess) : (h.dmUndriven a).pump = h.pump := rfl
@[simp] theorem Hw.dmUndriven_gw (a : DmAccess) : (h.dmUndriven a).gw = h.gw := rfl
@[simp] theorem Hw.dmUndriven_bru (a : DmAccess) : (h.dmUndriven a).bru = h.bru := rfl
@[simp] theorem Hw.dmUndriven_shaper (a : DmAccess) : (h.dmUndriven a).shaper = h.shaper := rfl
@[simp] theorem Hw.dmUndriven_sched (a : DmAccess) : (h.dmUndriven a).sched = h.sched := rfl
@[simp] theorem Hw.dmUndriven_cfe (a : DmAccess) : (h.dmUndriven a).cfe = h.cfe := rfl
@[simp] theorem Hw.dmUndriven_obj (a : DmAccess) : (h.dmUndriven a).obj = h.obj := rfl
@[simp] theorem Hw.dmUndriven_fcu (a : DmAccess) : (h.dmUndriven a).fcu = h.fcu := rfl
@[simp] theorem Hw.dmUndriven_clus (a : DmAccess) : (h.dmUndriven a).clus = h.clus := rfl
@[simp] theorem Hw.dmUndriven_dom (a : DmAccess) : (h.dmUndriven a).dom = h.dom := rfl
@[simp] theorem Hw.dmUndriven_hangs (a : DmAccess) : (h.dmUndriven a).hangs = h.hangs := rfl
@[simp] theorem Hw.dmUndriven_resets (a : DmAccess) : (h.dmUndriven a).resets = h.resets := rfl
@[simp] theorem Hw.dmUndriven_inject (a : DmAccess) : (h.dmUndriven a).inject = h.inject := rfl
@[simp] theorem Hw.dmUndriven_well (a : DmAccess) : (h.dmUndriven a).well = h.well := rfl
@[simp] theorem Hw.dmUndriven_cnt (a : DmAccess) : (h.dmUndriven a).cnt = h.cnt := rfl
@[simp] theorem Hw.dmUndriven_icu (a : DmAccess) : (h.dmUndriven a).icu = h.icu := rfl
@[simp] theorem Hw.dmUndriven_per (a : DmAccess) : (h.dmUndriven a).per = h.per := rfl
@[simp] theorem Hw.dmUndriven_ide (a : DmAccess) : (h.dmUndriven a).ide = h.ide := rfl
@[simp] theorem Hw.dmUndriven_bulk (a : DmAccess) : (h.dmUndriven a).bulk = h.bulk := rfl
@[simp] theorem Hw.dmUndriven_cis (a : DmAccess) : (h.dmUndriven a).cis = h.cis := rfl
@[simp] theorem Hw.dmUndriven_scu (a : DmAccess) : (h.dmUndriven a).scu = h.scu := rfl
@[simp] theorem Hw.dmUndriven_lcs (a : DmAccess) : (h.dmUndriven a).lcs = h.lcs := rfl
@[simp] theorem Hw.dmUndriven_rail (a : DmAccess) : (h.dmUndriven a).rail = h.rail := rfl
@[simp] theorem Hw.dmUndriven_prime (a : DmAccess) : (h.dmUndriven a).prime = h.prime := rfl
@[simp] theorem Hw.dmUndriven_tap (a : DmAccess) : (h.dmUndriven a).tap = h.tap := rfl
@[simp] theorem Hw.dmUndriven_free (a : DmAccess) : (h.dmUndriven a).free = h.free := rfl
@[simp] theorem Hw.dmUndriven_out (a : DmAccess) : (h.dmUndriven a).out = h.out := rfl

@[simp] theorem Hw.dmEnd_regs (u : DmUse) : (h.dmEnd u).regs = h.regs := rfl
@[simp] theorem Hw.dmEnd_latch (u : DmUse) : (h.dmEnd u).latch = h.latch := rfl
@[simp] theorem Hw.dmEnd_pow (u : DmUse) : (h.dmEnd u).pow = h.pow := rfl
@[simp] theorem Hw.dmEnd_clk (u : DmUse) : (h.dmEnd u).clk = h.clk := rfl
@[simp] theorem Hw.dmEnd_gate (u : DmUse) : (h.dmEnd u).gate = h.gate := rfl
@[simp] theorem Hw.dmEnd_regions (u : DmUse) : (h.dmEnd u).regions = h.regions := rfl
@[simp] theorem Hw.dmEnd_txns (u : DmUse) : (h.dmEnd u).txns = h.txns := rfl
@[simp] theorem Hw.dmEnd_nextTxn (u : DmUse) : (h.dmEnd u).nextTxn = h.nextTxn := rfl
@[simp] theorem Hw.dmEnd_rgl (u : DmUse) : (h.dmEnd u).rgl = h.rgl := rfl
@[simp] theorem Hw.dmEnd_sumpWords (u : DmUse) : (h.dmEnd u).sumpWords = h.sumpWords := rfl
@[simp] theorem Hw.dmEnd_ports (u : DmUse) : (h.dmEnd u).ports = h.ports := rfl
@[simp] theorem Hw.dmEnd_gkt (u : DmUse) : (h.dmEnd u).gkt = h.gkt := rfl
@[simp] theorem Hw.dmEnd_pump (u : DmUse) : (h.dmEnd u).pump = h.pump := rfl
@[simp] theorem Hw.dmEnd_gw (u : DmUse) : (h.dmEnd u).gw = h.gw := rfl
@[simp] theorem Hw.dmEnd_bru (u : DmUse) : (h.dmEnd u).bru = h.bru := rfl
@[simp] theorem Hw.dmEnd_shaper (u : DmUse) : (h.dmEnd u).shaper = h.shaper := rfl
@[simp] theorem Hw.dmEnd_sched (u : DmUse) : (h.dmEnd u).sched = h.sched := rfl
@[simp] theorem Hw.dmEnd_cfe (u : DmUse) : (h.dmEnd u).cfe = h.cfe := rfl
@[simp] theorem Hw.dmEnd_obj (u : DmUse) : (h.dmEnd u).obj = h.obj := rfl
@[simp] theorem Hw.dmEnd_fcu (u : DmUse) : (h.dmEnd u).fcu = h.fcu := rfl
@[simp] theorem Hw.dmEnd_clus (u : DmUse) : (h.dmEnd u).clus = h.clus := rfl
@[simp] theorem Hw.dmEnd_dom (u : DmUse) : (h.dmEnd u).dom = h.dom := rfl
@[simp] theorem Hw.dmEnd_hangs (u : DmUse) : (h.dmEnd u).hangs = h.hangs := rfl
@[simp] theorem Hw.dmEnd_resets (u : DmUse) : (h.dmEnd u).resets = h.resets := rfl
@[simp] theorem Hw.dmEnd_inject (u : DmUse) : (h.dmEnd u).inject = h.inject := rfl
@[simp] theorem Hw.dmEnd_well (u : DmUse) : (h.dmEnd u).well = h.well := rfl
@[simp] theorem Hw.dmEnd_cnt (u : DmUse) : (h.dmEnd u).cnt = h.cnt := rfl
@[simp] theorem Hw.dmEnd_icu (u : DmUse) : (h.dmEnd u).icu = h.icu := rfl
@[simp] theorem Hw.dmEnd_per (u : DmUse) : (h.dmEnd u).per = h.per := rfl
@[simp] theorem Hw.dmEnd_ide (u : DmUse) : (h.dmEnd u).ide = h.ide := rfl
@[simp] theorem Hw.dmEnd_bulk (u : DmUse) : (h.dmEnd u).bulk = h.bulk := rfl
@[simp] theorem Hw.dmEnd_cis (u : DmUse) : (h.dmEnd u).cis = h.cis := rfl
@[simp] theorem Hw.dmEnd_scu (u : DmUse) : (h.dmEnd u).scu = h.scu := rfl
@[simp] theorem Hw.dmEnd_lcs (u : DmUse) : (h.dmEnd u).lcs = h.lcs := rfl
@[simp] theorem Hw.dmEnd_rail (u : DmUse) : (h.dmEnd u).rail = h.rail := rfl
@[simp] theorem Hw.dmEnd_prime (u : DmUse) : (h.dmEnd u).prime = h.prime := rfl
@[simp] theorem Hw.dmEnd_tap (u : DmUse) : (h.dmEnd u).tap = h.tap := rfl
@[simp] theorem Hw.dmEnd_free (u : DmUse) : (h.dmEnd u).free = h.free := rfl
@[simp] theorem Hw.dmEnd_out (u : DmUse) : (h.dmEnd u).out = h.out := rfl

@[simp] theorem Hw.icuCount_latch (s : Nat) : (h.icuCount s).latch = h.latch := rfl
@[simp] theorem Hw.icuCount_pow (s : Nat) : (h.icuCount s).pow = h.pow := rfl
@[simp] theorem Hw.icuCount_clk (s : Nat) : (h.icuCount s).clk = h.clk := rfl
@[simp] theorem Hw.icuCount_gate (s : Nat) : (h.icuCount s).gate = h.gate := rfl
@[simp] theorem Hw.icuCount_regions (s : Nat) : (h.icuCount s).regions = h.regions := rfl
@[simp] theorem Hw.icuCount_txns (s : Nat) : (h.icuCount s).txns = h.txns := rfl
@[simp] theorem Hw.icuCount_nextTxn (s : Nat) : (h.icuCount s).nextTxn = h.nextTxn := rfl
@[simp] theorem Hw.icuCount_rgl (s : Nat) : (h.icuCount s).rgl = h.rgl := rfl
@[simp] theorem Hw.icuCount_sumpWords (s : Nat) : (h.icuCount s).sumpWords = h.sumpWords := rfl
@[simp] theorem Hw.icuCount_ports (s : Nat) : (h.icuCount s).ports = h.ports := rfl
@[simp] theorem Hw.icuCount_gkt (s : Nat) : (h.icuCount s).gkt = h.gkt := rfl
@[simp] theorem Hw.icuCount_pump (s : Nat) : (h.icuCount s).pump = h.pump := rfl
@[simp] theorem Hw.icuCount_gw (s : Nat) : (h.icuCount s).gw = h.gw := rfl
@[simp] theorem Hw.icuCount_bru (s : Nat) : (h.icuCount s).bru = h.bru := rfl
@[simp] theorem Hw.icuCount_shaper (s : Nat) : (h.icuCount s).shaper = h.shaper := rfl
@[simp] theorem Hw.icuCount_sched (s : Nat) : (h.icuCount s).sched = h.sched := rfl
@[simp] theorem Hw.icuCount_cfe (s : Nat) : (h.icuCount s).cfe = h.cfe := rfl
@[simp] theorem Hw.icuCount_obj (s : Nat) : (h.icuCount s).obj = h.obj := rfl
@[simp] theorem Hw.icuCount_fcu (s : Nat) : (h.icuCount s).fcu = h.fcu := rfl
@[simp] theorem Hw.icuCount_clus (s : Nat) : (h.icuCount s).clus = h.clus := rfl
@[simp] theorem Hw.icuCount_dom (s : Nat) : (h.icuCount s).dom = h.dom := rfl
@[simp] theorem Hw.icuCount_hangs (s : Nat) : (h.icuCount s).hangs = h.hangs := rfl
@[simp] theorem Hw.icuCount_resets (s : Nat) : (h.icuCount s).resets = h.resets := rfl
@[simp] theorem Hw.icuCount_inject (s : Nat) : (h.icuCount s).inject = h.inject := rfl
@[simp] theorem Hw.icuCount_well (s : Nat) : (h.icuCount s).well = h.well := rfl
@[simp] theorem Hw.icuCount_cnt (s : Nat) : (h.icuCount s).cnt = h.cnt := rfl
@[simp] theorem Hw.icuCount_per (s : Nat) : (h.icuCount s).per = h.per := rfl
@[simp] theorem Hw.icuCount_dmp (s : Nat) : (h.icuCount s).dmp = h.dmp := rfl
@[simp] theorem Hw.icuCount_ide (s : Nat) : (h.icuCount s).ide = h.ide := rfl
@[simp] theorem Hw.icuCount_bulk (s : Nat) : (h.icuCount s).bulk = h.bulk := rfl
@[simp] theorem Hw.icuCount_cis (s : Nat) : (h.icuCount s).cis = h.cis := rfl
@[simp] theorem Hw.icuCount_scu (s : Nat) : (h.icuCount s).scu = h.scu := rfl
@[simp] theorem Hw.icuCount_lcs (s : Nat) : (h.icuCount s).lcs = h.lcs := rfl
@[simp] theorem Hw.icuCount_rail (s : Nat) : (h.icuCount s).rail = h.rail := rfl
@[simp] theorem Hw.icuCount_prime (s : Nat) : (h.icuCount s).prime = h.prime := rfl
@[simp] theorem Hw.icuCount_tap (s : Nat) : (h.icuCount s).tap = h.tap := rfl
@[simp] theorem Hw.icuCount_free (s : Nat) : (h.icuCount s).free = h.free := rfl
@[simp] theorem Hw.icuCount_out (s : Nat) : (h.icuCount s).out = h.out := rfl

@[simp] theorem Hw.icuAssert_latch (s : Nat) : (h.icuAssert s).latch = h.latch := by
  unfold Hw.icuAssert; dsimp only; split <;> simp
@[simp] theorem Hw.icuAssert_pow (s : Nat) : (h.icuAssert s).pow = h.pow := by
  unfold Hw.icuAssert; dsimp only; split <;> simp
@[simp] theorem Hw.icuAssert_clk (s : Nat) : (h.icuAssert s).clk = h.clk := by
  unfold Hw.icuAssert; dsimp only; split <;> simp
@[simp] theorem Hw.icuAssert_gate (s : Nat) : (h.icuAssert s).gate = h.gate := by
  unfold Hw.icuAssert; dsimp only; split <;> simp
@[simp] theorem Hw.icuAssert_regions (s : Nat) : (h.icuAssert s).regions = h.regions := by
  unfold Hw.icuAssert; dsimp only; split <;> simp
@[simp] theorem Hw.icuAssert_txns (s : Nat) : (h.icuAssert s).txns = h.txns := by
  unfold Hw.icuAssert; dsimp only; split <;> simp
@[simp] theorem Hw.icuAssert_nextTxn (s : Nat) : (h.icuAssert s).nextTxn = h.nextTxn := by
  unfold Hw.icuAssert; dsimp only; split <;> simp
@[simp] theorem Hw.icuAssert_rgl (s : Nat) : (h.icuAssert s).rgl = h.rgl := by
  unfold Hw.icuAssert; dsimp only; split <;> simp
@[simp] theorem Hw.icuAssert_sumpWords (s : Nat) : (h.icuAssert s).sumpWords = h.sumpWords := by
  unfold Hw.icuAssert; dsimp only; split <;> simp
@[simp] theorem Hw.icuAssert_ports (s : Nat) : (h.icuAssert s).ports = h.ports := by
  unfold Hw.icuAssert; dsimp only; split <;> simp
@[simp] theorem Hw.icuAssert_gkt (s : Nat) : (h.icuAssert s).gkt = h.gkt := by
  unfold Hw.icuAssert; dsimp only; split <;> simp
@[simp] theorem Hw.icuAssert_pump (s : Nat) : (h.icuAssert s).pump = h.pump := by
  unfold Hw.icuAssert; dsimp only; split <;> simp
@[simp] theorem Hw.icuAssert_gw (s : Nat) : (h.icuAssert s).gw = h.gw := by
  unfold Hw.icuAssert; dsimp only; split <;> simp
@[simp] theorem Hw.icuAssert_bru (s : Nat) : (h.icuAssert s).bru = h.bru := by
  unfold Hw.icuAssert; dsimp only; split <;> simp
@[simp] theorem Hw.icuAssert_shaper (s : Nat) : (h.icuAssert s).shaper = h.shaper := by
  unfold Hw.icuAssert; dsimp only; split <;> simp
@[simp] theorem Hw.icuAssert_sched (s : Nat) : (h.icuAssert s).sched = h.sched := by
  unfold Hw.icuAssert; dsimp only; split <;> simp
@[simp] theorem Hw.icuAssert_cfe (s : Nat) : (h.icuAssert s).cfe = h.cfe := by
  unfold Hw.icuAssert; dsimp only; split <;> simp
@[simp] theorem Hw.icuAssert_obj (s : Nat) : (h.icuAssert s).obj = h.obj := by
  unfold Hw.icuAssert; dsimp only; split <;> simp
@[simp] theorem Hw.icuAssert_fcu (s : Nat) : (h.icuAssert s).fcu = h.fcu := by
  unfold Hw.icuAssert; dsimp only; split <;> simp
@[simp] theorem Hw.icuAssert_clus (s : Nat) : (h.icuAssert s).clus = h.clus := by
  unfold Hw.icuAssert; dsimp only; split <;> simp
@[simp] theorem Hw.icuAssert_dom (s : Nat) : (h.icuAssert s).dom = h.dom := by
  unfold Hw.icuAssert; dsimp only; split <;> simp
@[simp] theorem Hw.icuAssert_hangs (s : Nat) : (h.icuAssert s).hangs = h.hangs := by
  unfold Hw.icuAssert; dsimp only; split <;> simp
@[simp] theorem Hw.icuAssert_resets (s : Nat) : (h.icuAssert s).resets = h.resets := by
  unfold Hw.icuAssert; dsimp only; split <;> simp
@[simp] theorem Hw.icuAssert_inject (s : Nat) : (h.icuAssert s).inject = h.inject := by
  unfold Hw.icuAssert; dsimp only; split <;> simp
@[simp] theorem Hw.icuAssert_well (s : Nat) : (h.icuAssert s).well = h.well := by
  unfold Hw.icuAssert; dsimp only; split <;> simp
@[simp] theorem Hw.icuAssert_cnt (s : Nat) : (h.icuAssert s).cnt = h.cnt := by
  unfold Hw.icuAssert; dsimp only; split <;> simp
@[simp] theorem Hw.icuAssert_per (s : Nat) : (h.icuAssert s).per = h.per := by
  unfold Hw.icuAssert; dsimp only; split <;> simp
@[simp] theorem Hw.icuAssert_dmp (s : Nat) : (h.icuAssert s).dmp = h.dmp := by
  unfold Hw.icuAssert; dsimp only; split <;> simp
@[simp] theorem Hw.icuAssert_ide (s : Nat) : (h.icuAssert s).ide = h.ide := by
  unfold Hw.icuAssert; dsimp only; split <;> simp
@[simp] theorem Hw.icuAssert_bulk (s : Nat) : (h.icuAssert s).bulk = h.bulk := by
  unfold Hw.icuAssert; dsimp only; split <;> simp
@[simp] theorem Hw.icuAssert_cis (s : Nat) : (h.icuAssert s).cis = h.cis := by
  unfold Hw.icuAssert; dsimp only; split <;> simp
@[simp] theorem Hw.icuAssert_scu (s : Nat) : (h.icuAssert s).scu = h.scu := by
  unfold Hw.icuAssert; dsimp only; split <;> simp
@[simp] theorem Hw.icuAssert_lcs (s : Nat) : (h.icuAssert s).lcs = h.lcs := by
  unfold Hw.icuAssert; dsimp only; split <;> simp
@[simp] theorem Hw.icuAssert_rail (s : Nat) : (h.icuAssert s).rail = h.rail := by
  unfold Hw.icuAssert; dsimp only; split <;> simp
@[simp] theorem Hw.icuAssert_prime (s : Nat) : (h.icuAssert s).prime = h.prime := by
  unfold Hw.icuAssert; dsimp only; split <;> simp
@[simp] theorem Hw.icuAssert_tap (s : Nat) : (h.icuAssert s).tap = h.tap := by
  unfold Hw.icuAssert; dsimp only; split <;> simp
@[simp] theorem Hw.icuAssert_free (s : Nat) : (h.icuAssert s).free = h.free := by
  unfold Hw.icuAssert; dsimp only; split <;> simp
@[simp] theorem Hw.icuAssert_out (s : Nat) : (h.icuAssert s).out = h.out := by
  unfold Hw.icuAssert; dsimp only; split <;> simp

@[simp] theorem Hw.icuLevel_latch (p : Nat) : (h.icuLevel p).latch = h.latch := by
  unfold Hw.icuLevel; dsimp only; split <;> simp
@[simp] theorem Hw.icuLevel_pow (p : Nat) : (h.icuLevel p).pow = h.pow := by
  unfold Hw.icuLevel; dsimp only; split <;> simp
@[simp] theorem Hw.icuLevel_clk (p : Nat) : (h.icuLevel p).clk = h.clk := by
  unfold Hw.icuLevel; dsimp only; split <;> simp
@[simp] theorem Hw.icuLevel_gate (p : Nat) : (h.icuLevel p).gate = h.gate := by
  unfold Hw.icuLevel; dsimp only; split <;> simp
@[simp] theorem Hw.icuLevel_regions (p : Nat) : (h.icuLevel p).regions = h.regions := by
  unfold Hw.icuLevel; dsimp only; split <;> simp
@[simp] theorem Hw.icuLevel_txns (p : Nat) : (h.icuLevel p).txns = h.txns := by
  unfold Hw.icuLevel; dsimp only; split <;> simp
@[simp] theorem Hw.icuLevel_nextTxn (p : Nat) : (h.icuLevel p).nextTxn = h.nextTxn := by
  unfold Hw.icuLevel; dsimp only; split <;> simp
@[simp] theorem Hw.icuLevel_rgl (p : Nat) : (h.icuLevel p).rgl = h.rgl := by
  unfold Hw.icuLevel; dsimp only; split <;> simp
@[simp] theorem Hw.icuLevel_sumpWords (p : Nat) : (h.icuLevel p).sumpWords = h.sumpWords := by
  unfold Hw.icuLevel; dsimp only; split <;> simp
@[simp] theorem Hw.icuLevel_ports (p : Nat) : (h.icuLevel p).ports = h.ports := by
  unfold Hw.icuLevel; dsimp only; split <;> simp
@[simp] theorem Hw.icuLevel_gkt (p : Nat) : (h.icuLevel p).gkt = h.gkt := by
  unfold Hw.icuLevel; dsimp only; split <;> simp
@[simp] theorem Hw.icuLevel_pump (p : Nat) : (h.icuLevel p).pump = h.pump := by
  unfold Hw.icuLevel; dsimp only; split <;> simp
@[simp] theorem Hw.icuLevel_gw (p : Nat) : (h.icuLevel p).gw = h.gw := by
  unfold Hw.icuLevel; dsimp only; split <;> simp
@[simp] theorem Hw.icuLevel_bru (p : Nat) : (h.icuLevel p).bru = h.bru := by
  unfold Hw.icuLevel; dsimp only; split <;> simp
@[simp] theorem Hw.icuLevel_shaper (p : Nat) : (h.icuLevel p).shaper = h.shaper := by
  unfold Hw.icuLevel; dsimp only; split <;> simp
@[simp] theorem Hw.icuLevel_sched (p : Nat) : (h.icuLevel p).sched = h.sched := by
  unfold Hw.icuLevel; dsimp only; split <;> simp
@[simp] theorem Hw.icuLevel_cfe (p : Nat) : (h.icuLevel p).cfe = h.cfe := by
  unfold Hw.icuLevel; dsimp only; split <;> simp
@[simp] theorem Hw.icuLevel_obj (p : Nat) : (h.icuLevel p).obj = h.obj := by
  unfold Hw.icuLevel; dsimp only; split <;> simp
@[simp] theorem Hw.icuLevel_fcu (p : Nat) : (h.icuLevel p).fcu = h.fcu := by
  unfold Hw.icuLevel; dsimp only; split <;> simp
@[simp] theorem Hw.icuLevel_clus (p : Nat) : (h.icuLevel p).clus = h.clus := by
  unfold Hw.icuLevel; dsimp only; split <;> simp
@[simp] theorem Hw.icuLevel_dom (p : Nat) : (h.icuLevel p).dom = h.dom := by
  unfold Hw.icuLevel; dsimp only; split <;> simp
@[simp] theorem Hw.icuLevel_hangs (p : Nat) : (h.icuLevel p).hangs = h.hangs := by
  unfold Hw.icuLevel; dsimp only; split <;> simp
@[simp] theorem Hw.icuLevel_resets (p : Nat) : (h.icuLevel p).resets = h.resets := by
  unfold Hw.icuLevel; dsimp only; split <;> simp
@[simp] theorem Hw.icuLevel_inject (p : Nat) : (h.icuLevel p).inject = h.inject := by
  unfold Hw.icuLevel; dsimp only; split <;> simp
@[simp] theorem Hw.icuLevel_well (p : Nat) : (h.icuLevel p).well = h.well := by
  unfold Hw.icuLevel; dsimp only; split <;> simp
@[simp] theorem Hw.icuLevel_cnt (p : Nat) : (h.icuLevel p).cnt = h.cnt := by
  unfold Hw.icuLevel; dsimp only; split <;> simp
@[simp] theorem Hw.icuLevel_per (p : Nat) : (h.icuLevel p).per = h.per := by
  unfold Hw.icuLevel; dsimp only; split <;> simp
@[simp] theorem Hw.icuLevel_dmp (p : Nat) : (h.icuLevel p).dmp = h.dmp := by
  unfold Hw.icuLevel; dsimp only; split <;> simp
@[simp] theorem Hw.icuLevel_ide (p : Nat) : (h.icuLevel p).ide = h.ide := by
  unfold Hw.icuLevel; dsimp only; split <;> simp
@[simp] theorem Hw.icuLevel_bulk (p : Nat) : (h.icuLevel p).bulk = h.bulk := by
  unfold Hw.icuLevel; dsimp only; split <;> simp
@[simp] theorem Hw.icuLevel_cis (p : Nat) : (h.icuLevel p).cis = h.cis := by
  unfold Hw.icuLevel; dsimp only; split <;> simp
@[simp] theorem Hw.icuLevel_scu (p : Nat) : (h.icuLevel p).scu = h.scu := by
  unfold Hw.icuLevel; dsimp only; split <;> simp
@[simp] theorem Hw.icuLevel_lcs (p : Nat) : (h.icuLevel p).lcs = h.lcs := by
  unfold Hw.icuLevel; dsimp only; split <;> simp
@[simp] theorem Hw.icuLevel_rail (p : Nat) : (h.icuLevel p).rail = h.rail := by
  unfold Hw.icuLevel; dsimp only; split <;> simp
@[simp] theorem Hw.icuLevel_prime (p : Nat) : (h.icuLevel p).prime = h.prime := by
  unfold Hw.icuLevel; dsimp only; split <;> simp
@[simp] theorem Hw.icuLevel_tap (p : Nat) : (h.icuLevel p).tap = h.tap := by
  unfold Hw.icuLevel; dsimp only; split <;> simp
@[simp] theorem Hw.icuLevel_free (p : Nat) : (h.icuLevel p).free = h.free := by
  unfold Hw.icuLevel; dsimp only; split <;> simp
@[simp] theorem Hw.icuLevel_out (p : Nat) : (h.icuLevel p).out = h.out := by
  unfold Hw.icuLevel; dsimp only; split <;> simp

@[simp] theorem Hw.setIrq_latch (p k : Nat) : (h.setIrq p k).latch = h.latch := by
  simp [Hw.setIrq]
@[simp] theorem Hw.setIrq_pow (p k : Nat) : (h.setIrq p k).pow = h.pow := by
  simp [Hw.setIrq]
@[simp] theorem Hw.setIrq_clk (p k : Nat) : (h.setIrq p k).clk = h.clk := by
  simp [Hw.setIrq]
@[simp] theorem Hw.setIrq_gate (p k : Nat) : (h.setIrq p k).gate = h.gate := by
  simp [Hw.setIrq]
@[simp] theorem Hw.setIrq_regions (p k : Nat) : (h.setIrq p k).regions = h.regions := by
  simp [Hw.setIrq]
@[simp] theorem Hw.setIrq_txns (p k : Nat) : (h.setIrq p k).txns = h.txns := by
  simp [Hw.setIrq]
@[simp] theorem Hw.setIrq_nextTxn (p k : Nat) : (h.setIrq p k).nextTxn = h.nextTxn := by
  simp [Hw.setIrq]
@[simp] theorem Hw.setIrq_rgl (p k : Nat) : (h.setIrq p k).rgl = h.rgl := by
  simp [Hw.setIrq]
@[simp] theorem Hw.setIrq_sumpWords (p k : Nat) : (h.setIrq p k).sumpWords = h.sumpWords := by
  simp [Hw.setIrq]
@[simp] theorem Hw.setIrq_ports (p k : Nat) : (h.setIrq p k).ports = h.ports := by
  simp [Hw.setIrq]
@[simp] theorem Hw.setIrq_gkt (p k : Nat) : (h.setIrq p k).gkt = h.gkt := by
  simp [Hw.setIrq]
@[simp] theorem Hw.setIrq_pump (p k : Nat) : (h.setIrq p k).pump = h.pump := by
  simp [Hw.setIrq]
@[simp] theorem Hw.setIrq_gw (p k : Nat) : (h.setIrq p k).gw = h.gw := by
  simp [Hw.setIrq]
@[simp] theorem Hw.setIrq_bru (p k : Nat) : (h.setIrq p k).bru = h.bru := by
  simp [Hw.setIrq]
@[simp] theorem Hw.setIrq_shaper (p k : Nat) : (h.setIrq p k).shaper = h.shaper := by
  simp [Hw.setIrq]
@[simp] theorem Hw.setIrq_sched (p k : Nat) : (h.setIrq p k).sched = h.sched := by
  simp [Hw.setIrq]
@[simp] theorem Hw.setIrq_cfe (p k : Nat) : (h.setIrq p k).cfe = h.cfe := by
  simp [Hw.setIrq]
@[simp] theorem Hw.setIrq_obj (p k : Nat) : (h.setIrq p k).obj = h.obj := by
  simp [Hw.setIrq]
@[simp] theorem Hw.setIrq_fcu (p k : Nat) : (h.setIrq p k).fcu = h.fcu := by
  simp [Hw.setIrq]
@[simp] theorem Hw.setIrq_clus (p k : Nat) : (h.setIrq p k).clus = h.clus := by
  simp [Hw.setIrq]
@[simp] theorem Hw.setIrq_dom (p k : Nat) : (h.setIrq p k).dom = h.dom := by
  simp [Hw.setIrq]
@[simp] theorem Hw.setIrq_hangs (p k : Nat) : (h.setIrq p k).hangs = h.hangs := by
  simp [Hw.setIrq]
@[simp] theorem Hw.setIrq_resets (p k : Nat) : (h.setIrq p k).resets = h.resets := by
  simp [Hw.setIrq]
@[simp] theorem Hw.setIrq_inject (p k : Nat) : (h.setIrq p k).inject = h.inject := by
  simp [Hw.setIrq]
@[simp] theorem Hw.setIrq_well (p k : Nat) : (h.setIrq p k).well = h.well := by
  simp [Hw.setIrq]
@[simp] theorem Hw.setIrq_cnt (p k : Nat) : (h.setIrq p k).cnt = h.cnt := by
  simp [Hw.setIrq]
@[simp] theorem Hw.setIrq_per (p k : Nat) : (h.setIrq p k).per = h.per := by
  simp [Hw.setIrq]
@[simp] theorem Hw.setIrq_dmp (p k : Nat) : (h.setIrq p k).dmp = h.dmp := by
  simp [Hw.setIrq]
@[simp] theorem Hw.setIrq_ide (p k : Nat) : (h.setIrq p k).ide = h.ide := by
  simp [Hw.setIrq]
@[simp] theorem Hw.setIrq_bulk (p k : Nat) : (h.setIrq p k).bulk = h.bulk := by
  simp [Hw.setIrq]
@[simp] theorem Hw.setIrq_cis (p k : Nat) : (h.setIrq p k).cis = h.cis := by
  simp [Hw.setIrq]
@[simp] theorem Hw.setIrq_scu (p k : Nat) : (h.setIrq p k).scu = h.scu := by
  simp [Hw.setIrq]
@[simp] theorem Hw.setIrq_lcs (p k : Nat) : (h.setIrq p k).lcs = h.lcs := by
  simp [Hw.setIrq]
@[simp] theorem Hw.setIrq_rail (p k : Nat) : (h.setIrq p k).rail = h.rail := by
  simp [Hw.setIrq]
@[simp] theorem Hw.setIrq_prime (p k : Nat) : (h.setIrq p k).prime = h.prime := by
  simp [Hw.setIrq]
@[simp] theorem Hw.setIrq_tap (p k : Nat) : (h.setIrq p k).tap = h.tap := by
  simp [Hw.setIrq]
@[simp] theorem Hw.setIrq_free (p k : Nat) : (h.setIrq p k).free = h.free := by
  simp [Hw.setIrq]
@[simp] theorem Hw.setIrq_out (p k : Nat) : (h.setIrq p k).out = h.out := by
  simp [Hw.setIrq]

@[simp] theorem Hw.pageFault_latch (p : Nat) (f : PageFault) : (h.pageFault p f).latch = h.latch := by
  unfold Hw.pageFault; dsimp only; split <;> simp
@[simp] theorem Hw.pageFault_pow (p : Nat) (f : PageFault) : (h.pageFault p f).pow = h.pow := by
  unfold Hw.pageFault; dsimp only; split <;> simp
@[simp] theorem Hw.pageFault_clk (p : Nat) (f : PageFault) : (h.pageFault p f).clk = h.clk := by
  unfold Hw.pageFault; dsimp only; split <;> simp
@[simp] theorem Hw.pageFault_gate (p : Nat) (f : PageFault) : (h.pageFault p f).gate = h.gate := by
  unfold Hw.pageFault; dsimp only; split <;> simp
@[simp] theorem Hw.pageFault_regions (p : Nat) (f : PageFault) : (h.pageFault p f).regions = h.regions := by
  unfold Hw.pageFault; dsimp only; split <;> simp
@[simp] theorem Hw.pageFault_txns (p : Nat) (f : PageFault) : (h.pageFault p f).txns = h.txns := by
  unfold Hw.pageFault; dsimp only; split <;> simp
@[simp] theorem Hw.pageFault_nextTxn (p : Nat) (f : PageFault) : (h.pageFault p f).nextTxn = h.nextTxn := by
  unfold Hw.pageFault; dsimp only; split <;> simp
@[simp] theorem Hw.pageFault_rgl (p : Nat) (f : PageFault) : (h.pageFault p f).rgl = h.rgl := by
  unfold Hw.pageFault; dsimp only; split <;> simp
@[simp] theorem Hw.pageFault_sumpWords (p : Nat) (f : PageFault) : (h.pageFault p f).sumpWords = h.sumpWords := by
  unfold Hw.pageFault; dsimp only; split <;> simp
@[simp] theorem Hw.pageFault_ports (p : Nat) (f : PageFault) : (h.pageFault p f).ports = h.ports := by
  unfold Hw.pageFault; dsimp only; split <;> simp
@[simp] theorem Hw.pageFault_gkt (p : Nat) (f : PageFault) : (h.pageFault p f).gkt = h.gkt := by
  unfold Hw.pageFault; dsimp only; split <;> simp
@[simp] theorem Hw.pageFault_pump (p : Nat) (f : PageFault) : (h.pageFault p f).pump = h.pump := by
  unfold Hw.pageFault; dsimp only; split <;> simp
@[simp] theorem Hw.pageFault_gw (p : Nat) (f : PageFault) : (h.pageFault p f).gw = h.gw := by
  unfold Hw.pageFault; dsimp only; split <;> simp
@[simp] theorem Hw.pageFault_bru (p : Nat) (f : PageFault) : (h.pageFault p f).bru = h.bru := by
  unfold Hw.pageFault; dsimp only; split <;> simp
@[simp] theorem Hw.pageFault_shaper (p : Nat) (f : PageFault) : (h.pageFault p f).shaper = h.shaper := by
  unfold Hw.pageFault; dsimp only; split <;> simp
@[simp] theorem Hw.pageFault_sched (p : Nat) (f : PageFault) : (h.pageFault p f).sched = h.sched := by
  unfold Hw.pageFault; dsimp only; split <;> simp
@[simp] theorem Hw.pageFault_cfe (p : Nat) (f : PageFault) : (h.pageFault p f).cfe = h.cfe := by
  unfold Hw.pageFault; dsimp only; split <;> simp
@[simp] theorem Hw.pageFault_obj (p : Nat) (f : PageFault) : (h.pageFault p f).obj = h.obj := by
  unfold Hw.pageFault; dsimp only; split <;> simp
@[simp] theorem Hw.pageFault_fcu (p : Nat) (f : PageFault) : (h.pageFault p f).fcu = h.fcu := by
  unfold Hw.pageFault; dsimp only; split <;> simp
@[simp] theorem Hw.pageFault_clus (p : Nat) (f : PageFault) : (h.pageFault p f).clus = h.clus := by
  unfold Hw.pageFault; dsimp only; split <;> simp
@[simp] theorem Hw.pageFault_dom (p : Nat) (f : PageFault) : (h.pageFault p f).dom = h.dom := by
  unfold Hw.pageFault; dsimp only; split <;> simp
@[simp] theorem Hw.pageFault_hangs (p : Nat) (f : PageFault) : (h.pageFault p f).hangs = h.hangs := by
  unfold Hw.pageFault; dsimp only; split <;> simp
@[simp] theorem Hw.pageFault_resets (p : Nat) (f : PageFault) : (h.pageFault p f).resets = h.resets := by
  unfold Hw.pageFault; dsimp only; split <;> simp
@[simp] theorem Hw.pageFault_inject (p : Nat) (f : PageFault) : (h.pageFault p f).inject = h.inject := by
  unfold Hw.pageFault; dsimp only; split <;> simp
@[simp] theorem Hw.pageFault_well (p : Nat) (f : PageFault) : (h.pageFault p f).well = h.well := by
  unfold Hw.pageFault; dsimp only; split <;> simp
@[simp] theorem Hw.pageFault_cnt (p : Nat) (f : PageFault) : (h.pageFault p f).cnt = h.cnt := by
  unfold Hw.pageFault; dsimp only; split <;> simp
@[simp] theorem Hw.pageFault_per (p : Nat) (f : PageFault) : (h.pageFault p f).per = h.per := by
  unfold Hw.pageFault; dsimp only; split <;> simp
@[simp] theorem Hw.pageFault_dmp (p : Nat) (f : PageFault) : (h.pageFault p f).dmp = h.dmp := by
  unfold Hw.pageFault; dsimp only; split <;> simp
@[simp] theorem Hw.pageFault_ide (p : Nat) (f : PageFault) : (h.pageFault p f).ide = h.ide := by
  unfold Hw.pageFault; dsimp only; split <;> simp
@[simp] theorem Hw.pageFault_bulk (p : Nat) (f : PageFault) : (h.pageFault p f).bulk = h.bulk := by
  unfold Hw.pageFault; dsimp only; split <;> simp
@[simp] theorem Hw.pageFault_cis (p : Nat) (f : PageFault) : (h.pageFault p f).cis = h.cis := by
  unfold Hw.pageFault; dsimp only; split <;> simp
@[simp] theorem Hw.pageFault_scu (p : Nat) (f : PageFault) : (h.pageFault p f).scu = h.scu := by
  unfold Hw.pageFault; dsimp only; split <;> simp
@[simp] theorem Hw.pageFault_lcs (p : Nat) (f : PageFault) : (h.pageFault p f).lcs = h.lcs := by
  unfold Hw.pageFault; dsimp only; split <;> simp
@[simp] theorem Hw.pageFault_rail (p : Nat) (f : PageFault) : (h.pageFault p f).rail = h.rail := by
  unfold Hw.pageFault; dsimp only; split <;> simp
@[simp] theorem Hw.pageFault_prime (p : Nat) (f : PageFault) : (h.pageFault p f).prime = h.prime := by
  unfold Hw.pageFault; dsimp only; split <;> simp
@[simp] theorem Hw.pageFault_tap (p : Nat) (f : PageFault) : (h.pageFault p f).tap = h.tap := by
  unfold Hw.pageFault; dsimp only; split <;> simp
@[simp] theorem Hw.pageFault_free (p : Nat) (f : PageFault) : (h.pageFault p f).free = h.free := by
  unfold Hw.pageFault; dsimp only; split <;> simp
@[simp] theorem Hw.pageFault_out (p : Nat) (f : PageFault) : (h.pageFault p f).out = h.out := by
  unfold Hw.pageFault; dsimp only; split <;> simp

@[simp] theorem Hw.raiseWith_latch (r : Raise) : (h.raiseWith r).latch = h.latch := by
  unfold Hw.raiseWith; exact foldl_setIrq_keeps (·.latch) (fun h p k => Hw.setIrq_latch h p k) _ _
@[simp] theorem Hw.raiseWith_pow (r : Raise) : (h.raiseWith r).pow = h.pow := by
  unfold Hw.raiseWith; exact foldl_setIrq_keeps (·.pow) (fun h p k => Hw.setIrq_pow h p k) _ _
@[simp] theorem Hw.raiseWith_clk (r : Raise) : (h.raiseWith r).clk = h.clk := by
  unfold Hw.raiseWith; exact foldl_setIrq_keeps (·.clk) (fun h p k => Hw.setIrq_clk h p k) _ _
@[simp] theorem Hw.raiseWith_gate (r : Raise) : (h.raiseWith r).gate = h.gate := by
  unfold Hw.raiseWith; exact foldl_setIrq_keeps (·.gate) (fun h p k => Hw.setIrq_gate h p k) _ _
@[simp] theorem Hw.raiseWith_regions (r : Raise) : (h.raiseWith r).regions = h.regions := by
  unfold Hw.raiseWith; exact foldl_setIrq_keeps (·.regions) (fun h p k => Hw.setIrq_regions h p k) _ _
@[simp] theorem Hw.raiseWith_txns (r : Raise) : (h.raiseWith r).txns = h.txns := by
  unfold Hw.raiseWith; exact foldl_setIrq_keeps (·.txns) (fun h p k => Hw.setIrq_txns h p k) _ _
@[simp] theorem Hw.raiseWith_nextTxn (r : Raise) : (h.raiseWith r).nextTxn = h.nextTxn := by
  unfold Hw.raiseWith; exact foldl_setIrq_keeps (·.nextTxn) (fun h p k => Hw.setIrq_nextTxn h p k) _ _
@[simp] theorem Hw.raiseWith_rgl (r : Raise) : (h.raiseWith r).rgl = h.rgl := by
  unfold Hw.raiseWith; exact foldl_setIrq_keeps (·.rgl) (fun h p k => Hw.setIrq_rgl h p k) _ _
@[simp] theorem Hw.raiseWith_sumpWords (r : Raise) : (h.raiseWith r).sumpWords = h.sumpWords := by
  unfold Hw.raiseWith; exact foldl_setIrq_keeps (·.sumpWords) (fun h p k => Hw.setIrq_sumpWords h p k) _ _
@[simp] theorem Hw.raiseWith_ports (r : Raise) : (h.raiseWith r).ports = h.ports := by
  unfold Hw.raiseWith; exact foldl_setIrq_keeps (·.ports) (fun h p k => Hw.setIrq_ports h p k) _ _
@[simp] theorem Hw.raiseWith_gkt (r : Raise) : (h.raiseWith r).gkt = h.gkt := by
  unfold Hw.raiseWith; exact foldl_setIrq_keeps (·.gkt) (fun h p k => Hw.setIrq_gkt h p k) _ _
@[simp] theorem Hw.raiseWith_pump (r : Raise) : (h.raiseWith r).pump = h.pump := by
  unfold Hw.raiseWith; exact foldl_setIrq_keeps (·.pump) (fun h p k => Hw.setIrq_pump h p k) _ _
@[simp] theorem Hw.raiseWith_gw (r : Raise) : (h.raiseWith r).gw = h.gw := by
  unfold Hw.raiseWith; exact foldl_setIrq_keeps (·.gw) (fun h p k => Hw.setIrq_gw h p k) _ _
@[simp] theorem Hw.raiseWith_bru (r : Raise) : (h.raiseWith r).bru = h.bru := by
  unfold Hw.raiseWith; exact foldl_setIrq_keeps (·.bru) (fun h p k => Hw.setIrq_bru h p k) _ _
@[simp] theorem Hw.raiseWith_shaper (r : Raise) : (h.raiseWith r).shaper = h.shaper := by
  unfold Hw.raiseWith; exact foldl_setIrq_keeps (·.shaper) (fun h p k => Hw.setIrq_shaper h p k) _ _
@[simp] theorem Hw.raiseWith_sched (r : Raise) : (h.raiseWith r).sched = h.sched := by
  unfold Hw.raiseWith; exact foldl_setIrq_keeps (·.sched) (fun h p k => Hw.setIrq_sched h p k) _ _
@[simp] theorem Hw.raiseWith_cfe (r : Raise) : (h.raiseWith r).cfe = h.cfe := by
  unfold Hw.raiseWith; exact foldl_setIrq_keeps (·.cfe) (fun h p k => Hw.setIrq_cfe h p k) _ _
@[simp] theorem Hw.raiseWith_obj (r : Raise) : (h.raiseWith r).obj = h.obj := by
  unfold Hw.raiseWith; exact foldl_setIrq_keeps (·.obj) (fun h p k => Hw.setIrq_obj h p k) _ _
@[simp] theorem Hw.raiseWith_clus (r : Raise) : (h.raiseWith r).clus = h.clus := by
  unfold Hw.raiseWith; exact foldl_setIrq_keeps (·.clus) (fun h p k => Hw.setIrq_clus h p k) _ _
@[simp] theorem Hw.raiseWith_dom (r : Raise) : (h.raiseWith r).dom = h.dom := by
  unfold Hw.raiseWith; exact foldl_setIrq_keeps (·.dom) (fun h p k => Hw.setIrq_dom h p k) _ _
@[simp] theorem Hw.raiseWith_hangs (r : Raise) : (h.raiseWith r).hangs = h.hangs := by
  unfold Hw.raiseWith; exact foldl_setIrq_keeps (·.hangs) (fun h p k => Hw.setIrq_hangs h p k) _ _
@[simp] theorem Hw.raiseWith_resets (r : Raise) : (h.raiseWith r).resets = h.resets := by
  unfold Hw.raiseWith; exact foldl_setIrq_keeps (·.resets) (fun h p k => Hw.setIrq_resets h p k) _ _
@[simp] theorem Hw.raiseWith_well (r : Raise) : (h.raiseWith r).well = h.well := by
  unfold Hw.raiseWith; exact foldl_setIrq_keeps (·.well) (fun h p k => Hw.setIrq_well h p k) _ _
@[simp] theorem Hw.raiseWith_cnt (r : Raise) : (h.raiseWith r).cnt = h.cnt := by
  unfold Hw.raiseWith; exact foldl_setIrq_keeps (·.cnt) (fun h p k => Hw.setIrq_cnt h p k) _ _
@[simp] theorem Hw.raiseWith_per (r : Raise) : (h.raiseWith r).per = h.per := by
  unfold Hw.raiseWith; exact foldl_setIrq_keeps (·.per) (fun h p k => Hw.setIrq_per h p k) _ _
@[simp] theorem Hw.raiseWith_dmp (r : Raise) : (h.raiseWith r).dmp = h.dmp := by
  unfold Hw.raiseWith; exact foldl_setIrq_keeps (·.dmp) (fun h p k => Hw.setIrq_dmp h p k) _ _
@[simp] theorem Hw.raiseWith_ide (r : Raise) : (h.raiseWith r).ide = h.ide := by
  unfold Hw.raiseWith; exact foldl_setIrq_keeps (·.ide) (fun h p k => Hw.setIrq_ide h p k) _ _
@[simp] theorem Hw.raiseWith_bulk (r : Raise) : (h.raiseWith r).bulk = h.bulk := by
  unfold Hw.raiseWith; exact foldl_setIrq_keeps (·.bulk) (fun h p k => Hw.setIrq_bulk h p k) _ _
@[simp] theorem Hw.raiseWith_cis (r : Raise) : (h.raiseWith r).cis = h.cis := by
  unfold Hw.raiseWith; exact foldl_setIrq_keeps (·.cis) (fun h p k => Hw.setIrq_cis h p k) _ _
@[simp] theorem Hw.raiseWith_scu (r : Raise) : (h.raiseWith r).scu = h.scu := by
  unfold Hw.raiseWith; exact foldl_setIrq_keeps (·.scu) (fun h p k => Hw.setIrq_scu h p k) _ _
@[simp] theorem Hw.raiseWith_lcs (r : Raise) : (h.raiseWith r).lcs = h.lcs := by
  unfold Hw.raiseWith; exact foldl_setIrq_keeps (·.lcs) (fun h p k => Hw.setIrq_lcs h p k) _ _
@[simp] theorem Hw.raiseWith_rail (r : Raise) : (h.raiseWith r).rail = h.rail := by
  unfold Hw.raiseWith; exact foldl_setIrq_keeps (·.rail) (fun h p k => Hw.setIrq_rail h p k) _ _
@[simp] theorem Hw.raiseWith_prime (r : Raise) : (h.raiseWith r).prime = h.prime := by
  unfold Hw.raiseWith; exact foldl_setIrq_keeps (·.prime) (fun h p k => Hw.setIrq_prime h p k) _ _
@[simp] theorem Hw.raiseWith_tap (r : Raise) : (h.raiseWith r).tap = h.tap := by
  unfold Hw.raiseWith; exact foldl_setIrq_keeps (·.tap) (fun h p k => Hw.setIrq_tap h p k) _ _
@[simp] theorem Hw.raiseWith_free (r : Raise) : (h.raiseWith r).free = h.free := by
  unfold Hw.raiseWith; exact foldl_setIrq_keeps (·.free) (fun h p k => Hw.setIrq_free h p k) _ _
@[simp] theorem Hw.raiseWith_out (r : Raise) : (h.raiseWith r).out = h.out := by
  unfold Hw.raiseWith; exact foldl_setIrq_keeps (·.out) (fun h p k => Hw.setIrq_out h p k) _ _

@[simp] theorem Hw.raise_latch (s d a b c : Nat) : (h.raise s d a b c).latch = h.latch := by
  simp [Hw.raise]
@[simp] theorem Hw.raise_pow (s d a b c : Nat) : (h.raise s d a b c).pow = h.pow := by
  simp [Hw.raise]
@[simp] theorem Hw.raise_clk (s d a b c : Nat) : (h.raise s d a b c).clk = h.clk := by
  simp [Hw.raise]
@[simp] theorem Hw.raise_gate (s d a b c : Nat) : (h.raise s d a b c).gate = h.gate := by
  simp [Hw.raise]
@[simp] theorem Hw.raise_regions (s d a b c : Nat) : (h.raise s d a b c).regions = h.regions := by
  simp [Hw.raise]
@[simp] theorem Hw.raise_txns (s d a b c : Nat) : (h.raise s d a b c).txns = h.txns := by
  simp [Hw.raise]
@[simp] theorem Hw.raise_nextTxn (s d a b c : Nat) : (h.raise s d a b c).nextTxn = h.nextTxn := by
  simp [Hw.raise]
@[simp] theorem Hw.raise_rgl (s d a b c : Nat) : (h.raise s d a b c).rgl = h.rgl := by
  simp [Hw.raise]
@[simp] theorem Hw.raise_sumpWords (s d a b c : Nat) : (h.raise s d a b c).sumpWords = h.sumpWords := by
  simp [Hw.raise]
@[simp] theorem Hw.raise_ports (s d a b c : Nat) : (h.raise s d a b c).ports = h.ports := by
  simp [Hw.raise]
@[simp] theorem Hw.raise_gkt (s d a b c : Nat) : (h.raise s d a b c).gkt = h.gkt := by
  simp [Hw.raise]
@[simp] theorem Hw.raise_pump (s d a b c : Nat) : (h.raise s d a b c).pump = h.pump := by
  simp [Hw.raise]
@[simp] theorem Hw.raise_gw (s d a b c : Nat) : (h.raise s d a b c).gw = h.gw := by
  simp [Hw.raise]
@[simp] theorem Hw.raise_bru (s d a b c : Nat) : (h.raise s d a b c).bru = h.bru := by
  simp [Hw.raise]
@[simp] theorem Hw.raise_shaper (s d a b c : Nat) : (h.raise s d a b c).shaper = h.shaper := by
  simp [Hw.raise]
@[simp] theorem Hw.raise_sched (s d a b c : Nat) : (h.raise s d a b c).sched = h.sched := by
  simp [Hw.raise]
@[simp] theorem Hw.raise_cfe (s d a b c : Nat) : (h.raise s d a b c).cfe = h.cfe := by
  simp [Hw.raise]
@[simp] theorem Hw.raise_obj (s d a b c : Nat) : (h.raise s d a b c).obj = h.obj := by
  simp [Hw.raise]
@[simp] theorem Hw.raise_clus (s d a b c : Nat) : (h.raise s d a b c).clus = h.clus := by
  simp [Hw.raise]
@[simp] theorem Hw.raise_dom (s d a b c : Nat) : (h.raise s d a b c).dom = h.dom := by
  simp [Hw.raise]
@[simp] theorem Hw.raise_hangs (s d a b c : Nat) : (h.raise s d a b c).hangs = h.hangs := by
  simp [Hw.raise]
@[simp] theorem Hw.raise_resets (s d a b c : Nat) : (h.raise s d a b c).resets = h.resets := by
  simp [Hw.raise]
@[simp] theorem Hw.raise_well (s d a b c : Nat) : (h.raise s d a b c).well = h.well := by
  simp [Hw.raise]
@[simp] theorem Hw.raise_cnt (s d a b c : Nat) : (h.raise s d a b c).cnt = h.cnt := by
  simp [Hw.raise]
@[simp] theorem Hw.raise_per (s d a b c : Nat) : (h.raise s d a b c).per = h.per := by
  simp [Hw.raise]
@[simp] theorem Hw.raise_dmp (s d a b c : Nat) : (h.raise s d a b c).dmp = h.dmp := by
  simp [Hw.raise]
@[simp] theorem Hw.raise_ide (s d a b c : Nat) : (h.raise s d a b c).ide = h.ide := by
  simp [Hw.raise]
@[simp] theorem Hw.raise_bulk (s d a b c : Nat) : (h.raise s d a b c).bulk = h.bulk := by
  simp [Hw.raise]
@[simp] theorem Hw.raise_cis (s d a b c : Nat) : (h.raise s d a b c).cis = h.cis := by
  simp [Hw.raise]
@[simp] theorem Hw.raise_scu (s d a b c : Nat) : (h.raise s d a b c).scu = h.scu := by
  simp [Hw.raise]
@[simp] theorem Hw.raise_lcs (s d a b c : Nat) : (h.raise s d a b c).lcs = h.lcs := by
  simp [Hw.raise]
@[simp] theorem Hw.raise_rail (s d a b c : Nat) : (h.raise s d a b c).rail = h.rail := by
  simp [Hw.raise]
@[simp] theorem Hw.raise_prime (s d a b c : Nat) : (h.raise s d a b c).prime = h.prime := by
  simp [Hw.raise]
@[simp] theorem Hw.raise_tap (s d a b c : Nat) : (h.raise s d a b c).tap = h.tap := by
  simp [Hw.raise]
@[simp] theorem Hw.raise_free (s d a b c : Nat) : (h.raise s d a b c).free = h.free := by
  simp [Hw.raise]
@[simp] theorem Hw.raise_out (s d a b c : Nat) : (h.raise s d a b c).out = h.out := by
  simp [Hw.raise]

@[simp] theorem Hw.bttFault_latch (q : Option Nat) (t k a : Nat) : (h.bttFault q t k a).latch = h.latch := by
  unfold Hw.bttFault; exact (Hw.raise_latch _ _ _ _ _ _).trans ((Hw.setReg_latch _ _ _).trans (Hw.setReg_latch _ _ _))
@[simp] theorem Hw.bttFault_pow (q : Option Nat) (t k a : Nat) : (h.bttFault q t k a).pow = h.pow := by
  unfold Hw.bttFault; exact (Hw.raise_pow _ _ _ _ _ _).trans ((Hw.setReg_pow _ _ _).trans (Hw.setReg_pow _ _ _))
@[simp] theorem Hw.bttFault_clk (q : Option Nat) (t k a : Nat) : (h.bttFault q t k a).clk = h.clk := by
  unfold Hw.bttFault; exact (Hw.raise_clk _ _ _ _ _ _).trans ((Hw.setReg_clk _ _ _).trans (Hw.setReg_clk _ _ _))
@[simp] theorem Hw.bttFault_gate (q : Option Nat) (t k a : Nat) : (h.bttFault q t k a).gate = h.gate := by
  unfold Hw.bttFault; exact (Hw.raise_gate _ _ _ _ _ _).trans ((Hw.setReg_gate _ _ _).trans (Hw.setReg_gate _ _ _))
@[simp] theorem Hw.bttFault_regions (q : Option Nat) (t k a : Nat) : (h.bttFault q t k a).regions = h.regions := by
  unfold Hw.bttFault; exact (Hw.raise_regions _ _ _ _ _ _).trans ((Hw.setReg_regions _ _ _).trans (Hw.setReg_regions _ _ _))
@[simp] theorem Hw.bttFault_txns (q : Option Nat) (t k a : Nat) : (h.bttFault q t k a).txns = h.txns := by
  unfold Hw.bttFault; exact (Hw.raise_txns _ _ _ _ _ _).trans ((Hw.setReg_txns _ _ _).trans (Hw.setReg_txns _ _ _))
@[simp] theorem Hw.bttFault_nextTxn (q : Option Nat) (t k a : Nat) : (h.bttFault q t k a).nextTxn = h.nextTxn := by
  unfold Hw.bttFault; exact (Hw.raise_nextTxn _ _ _ _ _ _).trans ((Hw.setReg_nextTxn _ _ _).trans (Hw.setReg_nextTxn _ _ _))
@[simp] theorem Hw.bttFault_rgl (q : Option Nat) (t k a : Nat) : (h.bttFault q t k a).rgl = h.rgl := by
  unfold Hw.bttFault; exact (Hw.raise_rgl _ _ _ _ _ _).trans ((Hw.setReg_rgl _ _ _).trans (Hw.setReg_rgl _ _ _))
@[simp] theorem Hw.bttFault_sumpWords (q : Option Nat) (t k a : Nat) : (h.bttFault q t k a).sumpWords = h.sumpWords := by
  unfold Hw.bttFault; exact (Hw.raise_sumpWords _ _ _ _ _ _).trans ((Hw.setReg_sumpWords _ _ _).trans (Hw.setReg_sumpWords _ _ _))
@[simp] theorem Hw.bttFault_ports (q : Option Nat) (t k a : Nat) : (h.bttFault q t k a).ports = h.ports := by
  unfold Hw.bttFault; exact (Hw.raise_ports _ _ _ _ _ _).trans ((Hw.setReg_ports _ _ _).trans (Hw.setReg_ports _ _ _))
@[simp] theorem Hw.bttFault_gkt (q : Option Nat) (t k a : Nat) : (h.bttFault q t k a).gkt = h.gkt := by
  unfold Hw.bttFault; exact (Hw.raise_gkt _ _ _ _ _ _).trans ((Hw.setReg_gkt _ _ _).trans (Hw.setReg_gkt _ _ _))
@[simp] theorem Hw.bttFault_pump (q : Option Nat) (t k a : Nat) : (h.bttFault q t k a).pump = h.pump := by
  unfold Hw.bttFault; exact (Hw.raise_pump _ _ _ _ _ _).trans ((Hw.setReg_pump _ _ _).trans (Hw.setReg_pump _ _ _))
@[simp] theorem Hw.bttFault_gw (q : Option Nat) (t k a : Nat) : (h.bttFault q t k a).gw = h.gw := by
  unfold Hw.bttFault; exact (Hw.raise_gw _ _ _ _ _ _).trans ((Hw.setReg_gw _ _ _).trans (Hw.setReg_gw _ _ _))
@[simp] theorem Hw.bttFault_bru (q : Option Nat) (t k a : Nat) : (h.bttFault q t k a).bru = h.bru := by
  unfold Hw.bttFault; exact (Hw.raise_bru _ _ _ _ _ _).trans ((Hw.setReg_bru _ _ _).trans (Hw.setReg_bru _ _ _))
@[simp] theorem Hw.bttFault_shaper (q : Option Nat) (t k a : Nat) : (h.bttFault q t k a).shaper = h.shaper := by
  unfold Hw.bttFault; exact (Hw.raise_shaper _ _ _ _ _ _).trans ((Hw.setReg_shaper _ _ _).trans (Hw.setReg_shaper _ _ _))
@[simp] theorem Hw.bttFault_sched (q : Option Nat) (t k a : Nat) : (h.bttFault q t k a).sched = h.sched := by
  unfold Hw.bttFault; exact (Hw.raise_sched _ _ _ _ _ _).trans ((Hw.setReg_sched _ _ _).trans (Hw.setReg_sched _ _ _))
@[simp] theorem Hw.bttFault_cfe (q : Option Nat) (t k a : Nat) : (h.bttFault q t k a).cfe = h.cfe := by
  unfold Hw.bttFault; exact (Hw.raise_cfe _ _ _ _ _ _).trans ((Hw.setReg_cfe _ _ _).trans (Hw.setReg_cfe _ _ _))
@[simp] theorem Hw.bttFault_obj (q : Option Nat) (t k a : Nat) : (h.bttFault q t k a).obj = h.obj := by
  unfold Hw.bttFault; exact (Hw.raise_obj _ _ _ _ _ _).trans ((Hw.setReg_obj _ _ _).trans (Hw.setReg_obj _ _ _))
@[simp] theorem Hw.bttFault_clus (q : Option Nat) (t k a : Nat) : (h.bttFault q t k a).clus = h.clus := by
  unfold Hw.bttFault; exact (Hw.raise_clus _ _ _ _ _ _).trans ((Hw.setReg_clus _ _ _).trans (Hw.setReg_clus _ _ _))
@[simp] theorem Hw.bttFault_dom (q : Option Nat) (t k a : Nat) : (h.bttFault q t k a).dom = h.dom := by
  unfold Hw.bttFault; exact (Hw.raise_dom _ _ _ _ _ _).trans ((Hw.setReg_dom _ _ _).trans (Hw.setReg_dom _ _ _))
@[simp] theorem Hw.bttFault_hangs (q : Option Nat) (t k a : Nat) : (h.bttFault q t k a).hangs = h.hangs := by
  unfold Hw.bttFault; exact (Hw.raise_hangs _ _ _ _ _ _).trans ((Hw.setReg_hangs _ _ _).trans (Hw.setReg_hangs _ _ _))
@[simp] theorem Hw.bttFault_resets (q : Option Nat) (t k a : Nat) : (h.bttFault q t k a).resets = h.resets := by
  unfold Hw.bttFault; exact (Hw.raise_resets _ _ _ _ _ _).trans ((Hw.setReg_resets _ _ _).trans (Hw.setReg_resets _ _ _))
@[simp] theorem Hw.bttFault_well (q : Option Nat) (t k a : Nat) : (h.bttFault q t k a).well = h.well := by
  unfold Hw.bttFault; exact (Hw.raise_well _ _ _ _ _ _).trans ((Hw.setReg_well _ _ _).trans (Hw.setReg_well _ _ _))
@[simp] theorem Hw.bttFault_cnt (q : Option Nat) (t k a : Nat) : (h.bttFault q t k a).cnt = h.cnt := by
  unfold Hw.bttFault; exact (Hw.raise_cnt _ _ _ _ _ _).trans ((Hw.setReg_cnt _ _ _).trans (Hw.setReg_cnt _ _ _))
@[simp] theorem Hw.bttFault_per (q : Option Nat) (t k a : Nat) : (h.bttFault q t k a).per = h.per := by
  unfold Hw.bttFault; exact (Hw.raise_per _ _ _ _ _ _).trans ((Hw.setReg_per _ _ _).trans (Hw.setReg_per _ _ _))
@[simp] theorem Hw.bttFault_dmp (q : Option Nat) (t k a : Nat) : (h.bttFault q t k a).dmp = h.dmp := by
  unfold Hw.bttFault; exact (Hw.raise_dmp _ _ _ _ _ _).trans ((Hw.setReg_dmp _ _ _).trans (Hw.setReg_dmp _ _ _))
@[simp] theorem Hw.bttFault_ide (q : Option Nat) (t k a : Nat) : (h.bttFault q t k a).ide = h.ide := by
  unfold Hw.bttFault; exact (Hw.raise_ide _ _ _ _ _ _).trans ((Hw.setReg_ide _ _ _).trans (Hw.setReg_ide _ _ _))
@[simp] theorem Hw.bttFault_bulk (q : Option Nat) (t k a : Nat) : (h.bttFault q t k a).bulk = h.bulk := by
  unfold Hw.bttFault; exact (Hw.raise_bulk _ _ _ _ _ _).trans ((Hw.setReg_bulk _ _ _).trans (Hw.setReg_bulk _ _ _))
@[simp] theorem Hw.bttFault_cis (q : Option Nat) (t k a : Nat) : (h.bttFault q t k a).cis = h.cis := by
  unfold Hw.bttFault; exact (Hw.raise_cis _ _ _ _ _ _).trans ((Hw.setReg_cis _ _ _).trans (Hw.setReg_cis _ _ _))
@[simp] theorem Hw.bttFault_scu (q : Option Nat) (t k a : Nat) : (h.bttFault q t k a).scu = h.scu := by
  unfold Hw.bttFault; exact (Hw.raise_scu _ _ _ _ _ _).trans ((Hw.setReg_scu _ _ _).trans (Hw.setReg_scu _ _ _))
@[simp] theorem Hw.bttFault_lcs (q : Option Nat) (t k a : Nat) : (h.bttFault q t k a).lcs = h.lcs := by
  unfold Hw.bttFault; exact (Hw.raise_lcs _ _ _ _ _ _).trans ((Hw.setReg_lcs _ _ _).trans (Hw.setReg_lcs _ _ _))
@[simp] theorem Hw.bttFault_rail (q : Option Nat) (t k a : Nat) : (h.bttFault q t k a).rail = h.rail := by
  unfold Hw.bttFault; exact (Hw.raise_rail _ _ _ _ _ _).trans ((Hw.setReg_rail _ _ _).trans (Hw.setReg_rail _ _ _))
@[simp] theorem Hw.bttFault_prime (q : Option Nat) (t k a : Nat) : (h.bttFault q t k a).prime = h.prime := by
  unfold Hw.bttFault; exact (Hw.raise_prime _ _ _ _ _ _).trans ((Hw.setReg_prime _ _ _).trans (Hw.setReg_prime _ _ _))
@[simp] theorem Hw.bttFault_tap (q : Option Nat) (t k a : Nat) : (h.bttFault q t k a).tap = h.tap := by
  unfold Hw.bttFault; exact (Hw.raise_tap _ _ _ _ _ _).trans ((Hw.setReg_tap _ _ _).trans (Hw.setReg_tap _ _ _))
@[simp] theorem Hw.bttFault_free (q : Option Nat) (t k a : Nat) : (h.bttFault q t k a).free = h.free := by
  unfold Hw.bttFault; exact (Hw.raise_free _ _ _ _ _ _).trans ((Hw.setReg_free _ _ _).trans (Hw.setReg_free _ _ _))
@[simp] theorem Hw.bttFault_out (q : Option Nat) (t k a : Nat) : (h.bttFault q t k a).out = h.out := by
  unfold Hw.bttFault; exact (Hw.raise_out _ _ _ _ _ _).trans ((Hw.setReg_out _ _ _).trans (Hw.setReg_out _ _ _))

@[simp] theorem Hw.dmDrive_regs (u : DmUse) (p : Option Nat) (a b : Nat) (d : Option (List Byte)) : (h.dmDrive u p a b d).regs = h.regs := by
  cases d <;> rfl
@[simp] theorem Hw.dmDrive_latch (u : DmUse) (p : Option Nat) (a b : Nat) (d : Option (List Byte)) : (h.dmDrive u p a b d).latch = h.latch := by
  cases d <;> rfl
@[simp] theorem Hw.dmDrive_pow (u : DmUse) (p : Option Nat) (a b : Nat) (d : Option (List Byte)) : (h.dmDrive u p a b d).pow = h.pow := by
  cases d <;> rfl
@[simp] theorem Hw.dmDrive_clk (u : DmUse) (p : Option Nat) (a b : Nat) (d : Option (List Byte)) : (h.dmDrive u p a b d).clk = h.clk := by
  cases d <;> rfl
@[simp] theorem Hw.dmDrive_gate (u : DmUse) (p : Option Nat) (a b : Nat) (d : Option (List Byte)) : (h.dmDrive u p a b d).gate = h.gate := by
  cases d <;> rfl
@[simp] theorem Hw.dmDrive_regions (u : DmUse) (p : Option Nat) (a b : Nat) (d : Option (List Byte)) : (h.dmDrive u p a b d).regions = h.regions := by
  cases d <;> rfl
@[simp] theorem Hw.dmDrive_txns (u : DmUse) (p : Option Nat) (a b : Nat) (d : Option (List Byte)) : (h.dmDrive u p a b d).txns = h.txns := by
  cases d <;> rfl
@[simp] theorem Hw.dmDrive_nextTxn (u : DmUse) (p : Option Nat) (a b : Nat) (d : Option (List Byte)) : (h.dmDrive u p a b d).nextTxn = h.nextTxn := by
  cases d <;> rfl
@[simp] theorem Hw.dmDrive_rgl (u : DmUse) (p : Option Nat) (a b : Nat) (d : Option (List Byte)) : (h.dmDrive u p a b d).rgl = h.rgl := by
  cases d <;> rfl
@[simp] theorem Hw.dmDrive_sumpWords (u : DmUse) (p : Option Nat) (a b : Nat) (d : Option (List Byte)) : (h.dmDrive u p a b d).sumpWords = h.sumpWords := by
  cases d <;> rfl
@[simp] theorem Hw.dmDrive_ports (u : DmUse) (p : Option Nat) (a b : Nat) (d : Option (List Byte)) : (h.dmDrive u p a b d).ports = h.ports := by
  cases d <;> rfl
@[simp] theorem Hw.dmDrive_gkt (u : DmUse) (p : Option Nat) (a b : Nat) (d : Option (List Byte)) : (h.dmDrive u p a b d).gkt = h.gkt := by
  cases d <;> rfl
@[simp] theorem Hw.dmDrive_pump (u : DmUse) (p : Option Nat) (a b : Nat) (d : Option (List Byte)) : (h.dmDrive u p a b d).pump = h.pump := by
  cases d <;> rfl
@[simp] theorem Hw.dmDrive_gw (u : DmUse) (p : Option Nat) (a b : Nat) (d : Option (List Byte)) : (h.dmDrive u p a b d).gw = h.gw := by
  cases d <;> rfl
@[simp] theorem Hw.dmDrive_bru (u : DmUse) (p : Option Nat) (a b : Nat) (d : Option (List Byte)) : (h.dmDrive u p a b d).bru = h.bru := by
  cases d <;> rfl
@[simp] theorem Hw.dmDrive_shaper (u : DmUse) (p : Option Nat) (a b : Nat) (d : Option (List Byte)) : (h.dmDrive u p a b d).shaper = h.shaper := by
  cases d <;> rfl
@[simp] theorem Hw.dmDrive_sched (u : DmUse) (p : Option Nat) (a b : Nat) (d : Option (List Byte)) : (h.dmDrive u p a b d).sched = h.sched := by
  cases d <;> rfl
@[simp] theorem Hw.dmDrive_cfe (u : DmUse) (p : Option Nat) (a b : Nat) (d : Option (List Byte)) : (h.dmDrive u p a b d).cfe = h.cfe := by
  cases d <;> rfl
@[simp] theorem Hw.dmDrive_obj (u : DmUse) (p : Option Nat) (a b : Nat) (d : Option (List Byte)) : (h.dmDrive u p a b d).obj = h.obj := by
  cases d <;> rfl
@[simp] theorem Hw.dmDrive_fcu (u : DmUse) (p : Option Nat) (a b : Nat) (d : Option (List Byte)) : (h.dmDrive u p a b d).fcu = h.fcu := by
  cases d <;> rfl
@[simp] theorem Hw.dmDrive_clus (u : DmUse) (p : Option Nat) (a b : Nat) (d : Option (List Byte)) : (h.dmDrive u p a b d).clus = h.clus := by
  cases d <;> rfl
@[simp] theorem Hw.dmDrive_dom (u : DmUse) (p : Option Nat) (a b : Nat) (d : Option (List Byte)) : (h.dmDrive u p a b d).dom = h.dom := by
  cases d <;> rfl
@[simp] theorem Hw.dmDrive_hangs (u : DmUse) (p : Option Nat) (a b : Nat) (d : Option (List Byte)) : (h.dmDrive u p a b d).hangs = h.hangs := by
  cases d <;> rfl
@[simp] theorem Hw.dmDrive_resets (u : DmUse) (p : Option Nat) (a b : Nat) (d : Option (List Byte)) : (h.dmDrive u p a b d).resets = h.resets := by
  cases d <;> rfl
@[simp] theorem Hw.dmDrive_inject (u : DmUse) (p : Option Nat) (a b : Nat) (d : Option (List Byte)) : (h.dmDrive u p a b d).inject = h.inject := by
  cases d <;> rfl
@[simp] theorem Hw.dmDrive_well (u : DmUse) (p : Option Nat) (a b : Nat) (d : Option (List Byte)) : (h.dmDrive u p a b d).well = h.well := by
  cases d <;> rfl
@[simp] theorem Hw.dmDrive_cnt (u : DmUse) (p : Option Nat) (a b : Nat) (d : Option (List Byte)) : (h.dmDrive u p a b d).cnt = h.cnt := by
  cases d <;> rfl
@[simp] theorem Hw.dmDrive_icu (u : DmUse) (p : Option Nat) (a b : Nat) (d : Option (List Byte)) : (h.dmDrive u p a b d).icu = h.icu := by
  cases d <;> rfl
@[simp] theorem Hw.dmDrive_per (u : DmUse) (p : Option Nat) (a b : Nat) (d : Option (List Byte)) : (h.dmDrive u p a b d).per = h.per := by
  cases d <;> rfl
@[simp] theorem Hw.dmDrive_ide (u : DmUse) (p : Option Nat) (a b : Nat) (d : Option (List Byte)) : (h.dmDrive u p a b d).ide = h.ide := by
  cases d <;> rfl
@[simp] theorem Hw.dmDrive_bulk (u : DmUse) (p : Option Nat) (a b : Nat) (d : Option (List Byte)) : (h.dmDrive u p a b d).bulk = h.bulk := by
  cases d <;> rfl
@[simp] theorem Hw.dmDrive_cis (u : DmUse) (p : Option Nat) (a b : Nat) (d : Option (List Byte)) : (h.dmDrive u p a b d).cis = h.cis := by
  cases d <;> rfl
@[simp] theorem Hw.dmDrive_scu (u : DmUse) (p : Option Nat) (a b : Nat) (d : Option (List Byte)) : (h.dmDrive u p a b d).scu = h.scu := by
  cases d <;> rfl
@[simp] theorem Hw.dmDrive_lcs (u : DmUse) (p : Option Nat) (a b : Nat) (d : Option (List Byte)) : (h.dmDrive u p a b d).lcs = h.lcs := by
  cases d <;> rfl
@[simp] theorem Hw.dmDrive_rail (u : DmUse) (p : Option Nat) (a b : Nat) (d : Option (List Byte)) : (h.dmDrive u p a b d).rail = h.rail := by
  cases d <;> rfl
@[simp] theorem Hw.dmDrive_prime (u : DmUse) (p : Option Nat) (a b : Nat) (d : Option (List Byte)) : (h.dmDrive u p a b d).prime = h.prime := by
  cases d <;> rfl
@[simp] theorem Hw.dmDrive_tap (u : DmUse) (p : Option Nat) (a b : Nat) (d : Option (List Byte)) : (h.dmDrive u p a b d).tap = h.tap := by
  cases d <;> rfl
@[simp] theorem Hw.dmDrive_free (u : DmUse) (p : Option Nat) (a b : Nat) (d : Option (List Byte)) : (h.dmDrive u p a b d).free = h.free := by
  cases d <;> rfl

@[simp] theorem Hw.dmFaulted_latch (a : DmAccess) (k : Nat) : (h.dmFaulted a k).latch = h.latch := by
  unfold Hw.dmFaulted; split
  · rfl
  · exact (Hw.dmUndriven_latch _ _).trans (Hw.bttFault_latch _ _ _ _ _)
@[simp] theorem Hw.dmFaulted_pow (a : DmAccess) (k : Nat) : (h.dmFaulted a k).pow = h.pow := by
  unfold Hw.dmFaulted; split
  · rfl
  · exact (Hw.dmUndriven_pow _ _).trans (Hw.bttFault_pow _ _ _ _ _)
@[simp] theorem Hw.dmFaulted_clk (a : DmAccess) (k : Nat) : (h.dmFaulted a k).clk = h.clk := by
  unfold Hw.dmFaulted; split
  · rfl
  · exact (Hw.dmUndriven_clk _ _).trans (Hw.bttFault_clk _ _ _ _ _)
@[simp] theorem Hw.dmFaulted_gate (a : DmAccess) (k : Nat) : (h.dmFaulted a k).gate = h.gate := by
  unfold Hw.dmFaulted; split
  · rfl
  · exact (Hw.dmUndriven_gate _ _).trans (Hw.bttFault_gate _ _ _ _ _)
@[simp] theorem Hw.dmFaulted_regions (a : DmAccess) (k : Nat) : (h.dmFaulted a k).regions = h.regions := by
  unfold Hw.dmFaulted; split
  · rfl
  · exact (Hw.dmUndriven_regions _ _).trans (Hw.bttFault_regions _ _ _ _ _)
@[simp] theorem Hw.dmFaulted_txns (a : DmAccess) (k : Nat) : (h.dmFaulted a k).txns = h.txns := by
  unfold Hw.dmFaulted; split
  · rfl
  · exact (Hw.dmUndriven_txns _ _).trans (Hw.bttFault_txns _ _ _ _ _)
@[simp] theorem Hw.dmFaulted_nextTxn (a : DmAccess) (k : Nat) : (h.dmFaulted a k).nextTxn = h.nextTxn := by
  unfold Hw.dmFaulted; split
  · rfl
  · exact (Hw.dmUndriven_nextTxn _ _).trans (Hw.bttFault_nextTxn _ _ _ _ _)
@[simp] theorem Hw.dmFaulted_rgl (a : DmAccess) (k : Nat) : (h.dmFaulted a k).rgl = h.rgl := by
  unfold Hw.dmFaulted; split
  · rfl
  · exact (Hw.dmUndriven_rgl _ _).trans (Hw.bttFault_rgl _ _ _ _ _)
@[simp] theorem Hw.dmFaulted_sumpWords (a : DmAccess) (k : Nat) : (h.dmFaulted a k).sumpWords = h.sumpWords := by
  unfold Hw.dmFaulted; split
  · rfl
  · exact (Hw.dmUndriven_sumpWords _ _).trans (Hw.bttFault_sumpWords _ _ _ _ _)
@[simp] theorem Hw.dmFaulted_ports (a : DmAccess) (k : Nat) : (h.dmFaulted a k).ports = h.ports := by
  unfold Hw.dmFaulted; split
  · rfl
  · exact (Hw.dmUndriven_ports _ _).trans (Hw.bttFault_ports _ _ _ _ _)
@[simp] theorem Hw.dmFaulted_gkt (a : DmAccess) (k : Nat) : (h.dmFaulted a k).gkt = h.gkt := by
  unfold Hw.dmFaulted; split
  · rfl
  · exact (Hw.dmUndriven_gkt _ _).trans (Hw.bttFault_gkt _ _ _ _ _)
@[simp] theorem Hw.dmFaulted_pump (a : DmAccess) (k : Nat) : (h.dmFaulted a k).pump = h.pump := by
  unfold Hw.dmFaulted; split
  · rfl
  · exact (Hw.dmUndriven_pump _ _).trans (Hw.bttFault_pump _ _ _ _ _)
@[simp] theorem Hw.dmFaulted_gw (a : DmAccess) (k : Nat) : (h.dmFaulted a k).gw = h.gw := by
  unfold Hw.dmFaulted; split
  · rfl
  · exact (Hw.dmUndriven_gw _ _).trans (Hw.bttFault_gw _ _ _ _ _)
@[simp] theorem Hw.dmFaulted_bru (a : DmAccess) (k : Nat) : (h.dmFaulted a k).bru = h.bru := by
  unfold Hw.dmFaulted; split
  · rfl
  · exact (Hw.dmUndriven_bru _ _).trans (Hw.bttFault_bru _ _ _ _ _)
@[simp] theorem Hw.dmFaulted_shaper (a : DmAccess) (k : Nat) : (h.dmFaulted a k).shaper = h.shaper := by
  unfold Hw.dmFaulted; split
  · rfl
  · exact (Hw.dmUndriven_shaper _ _).trans (Hw.bttFault_shaper _ _ _ _ _)
@[simp] theorem Hw.dmFaulted_sched (a : DmAccess) (k : Nat) : (h.dmFaulted a k).sched = h.sched := by
  unfold Hw.dmFaulted; split
  · rfl
  · exact (Hw.dmUndriven_sched _ _).trans (Hw.bttFault_sched _ _ _ _ _)
@[simp] theorem Hw.dmFaulted_cfe (a : DmAccess) (k : Nat) : (h.dmFaulted a k).cfe = h.cfe := by
  unfold Hw.dmFaulted; split
  · rfl
  · exact (Hw.dmUndriven_cfe _ _).trans (Hw.bttFault_cfe _ _ _ _ _)
@[simp] theorem Hw.dmFaulted_obj (a : DmAccess) (k : Nat) : (h.dmFaulted a k).obj = h.obj := by
  unfold Hw.dmFaulted; split
  · rfl
  · exact (Hw.dmUndriven_obj _ _).trans (Hw.bttFault_obj _ _ _ _ _)
@[simp] theorem Hw.dmFaulted_clus (a : DmAccess) (k : Nat) : (h.dmFaulted a k).clus = h.clus := by
  unfold Hw.dmFaulted; split
  · rfl
  · exact (Hw.dmUndriven_clus _ _).trans (Hw.bttFault_clus _ _ _ _ _)
@[simp] theorem Hw.dmFaulted_dom (a : DmAccess) (k : Nat) : (h.dmFaulted a k).dom = h.dom := by
  unfold Hw.dmFaulted; split
  · rfl
  · exact (Hw.dmUndriven_dom _ _).trans (Hw.bttFault_dom _ _ _ _ _)
@[simp] theorem Hw.dmFaulted_hangs (a : DmAccess) (k : Nat) : (h.dmFaulted a k).hangs = h.hangs := by
  unfold Hw.dmFaulted; split
  · rfl
  · exact (Hw.dmUndriven_hangs _ _).trans (Hw.bttFault_hangs _ _ _ _ _)
@[simp] theorem Hw.dmFaulted_resets (a : DmAccess) (k : Nat) : (h.dmFaulted a k).resets = h.resets := by
  unfold Hw.dmFaulted; split
  · rfl
  · exact (Hw.dmUndriven_resets _ _).trans (Hw.bttFault_resets _ _ _ _ _)
@[simp] theorem Hw.dmFaulted_well (a : DmAccess) (k : Nat) : (h.dmFaulted a k).well = h.well := by
  unfold Hw.dmFaulted; split
  · rfl
  · exact (Hw.dmUndriven_well _ _).trans (Hw.bttFault_well _ _ _ _ _)
@[simp] theorem Hw.dmFaulted_cnt (a : DmAccess) (k : Nat) : (h.dmFaulted a k).cnt = h.cnt := by
  unfold Hw.dmFaulted; split
  · rfl
  · exact (Hw.dmUndriven_cnt _ _).trans (Hw.bttFault_cnt _ _ _ _ _)
@[simp] theorem Hw.dmFaulted_per (a : DmAccess) (k : Nat) : (h.dmFaulted a k).per = h.per := by
  unfold Hw.dmFaulted; split
  · rfl
  · exact (Hw.dmUndriven_per _ _).trans (Hw.bttFault_per _ _ _ _ _)
@[simp] theorem Hw.dmFaulted_ide (a : DmAccess) (k : Nat) : (h.dmFaulted a k).ide = h.ide := by
  unfold Hw.dmFaulted; split
  · rfl
  · exact (Hw.dmUndriven_ide _ _).trans (Hw.bttFault_ide _ _ _ _ _)
@[simp] theorem Hw.dmFaulted_bulk (a : DmAccess) (k : Nat) : (h.dmFaulted a k).bulk = h.bulk := by
  unfold Hw.dmFaulted; split
  · rfl
  · exact (Hw.dmUndriven_bulk _ _).trans (Hw.bttFault_bulk _ _ _ _ _)
@[simp] theorem Hw.dmFaulted_cis (a : DmAccess) (k : Nat) : (h.dmFaulted a k).cis = h.cis := by
  unfold Hw.dmFaulted; split
  · rfl
  · exact (Hw.dmUndriven_cis _ _).trans (Hw.bttFault_cis _ _ _ _ _)
@[simp] theorem Hw.dmFaulted_scu (a : DmAccess) (k : Nat) : (h.dmFaulted a k).scu = h.scu := by
  unfold Hw.dmFaulted; split
  · rfl
  · exact (Hw.dmUndriven_scu _ _).trans (Hw.bttFault_scu _ _ _ _ _)
@[simp] theorem Hw.dmFaulted_lcs (a : DmAccess) (k : Nat) : (h.dmFaulted a k).lcs = h.lcs := by
  unfold Hw.dmFaulted; split
  · rfl
  · exact (Hw.dmUndriven_lcs _ _).trans (Hw.bttFault_lcs _ _ _ _ _)
@[simp] theorem Hw.dmFaulted_rail (a : DmAccess) (k : Nat) : (h.dmFaulted a k).rail = h.rail := by
  unfold Hw.dmFaulted; split
  · rfl
  · exact (Hw.dmUndriven_rail _ _).trans (Hw.bttFault_rail _ _ _ _ _)
@[simp] theorem Hw.dmFaulted_prime (a : DmAccess) (k : Nat) : (h.dmFaulted a k).prime = h.prime := by
  unfold Hw.dmFaulted; split
  · rfl
  · exact (Hw.dmUndriven_prime _ _).trans (Hw.bttFault_prime _ _ _ _ _)
@[simp] theorem Hw.dmFaulted_tap (a : DmAccess) (k : Nat) : (h.dmFaulted a k).tap = h.tap := by
  unfold Hw.dmFaulted; split
  · rfl
  · exact (Hw.dmUndriven_tap _ _).trans (Hw.bttFault_tap _ _ _ _ _)
@[simp] theorem Hw.dmFaulted_free (a : DmAccess) (k : Nat) : (h.dmFaulted a k).free = h.free := by
  unfold Hw.dmFaulted; split
  · rfl
  · exact (Hw.dmUndriven_free _ _).trans (Hw.bttFault_free _ _ _ _ _)
@[simp] theorem Hw.dmFaulted_out (a : DmAccess) (k : Nat) : (h.dmFaulted a k).out = h.out := by
  unfold Hw.dmFaulted; split
  · rfl
  · exact (Hw.dmUndriven_out _ _).trans (Hw.bttFault_out _ _ _ _ _)

@[simp] theorem Hw.dmGo_latch (a : DmAccess) (e : BitVec 64) : (h.dmGo a e).latch = h.latch := by
  unfold Hw.dmGo; split
  · exact Hw.dmFaulted_latch _ _ _
  · exact Hw.dmDrive_latch _ _ _ _ _ _
@[simp] theorem Hw.dmGo_pow (a : DmAccess) (e : BitVec 64) : (h.dmGo a e).pow = h.pow := by
  unfold Hw.dmGo; split
  · exact Hw.dmFaulted_pow _ _ _
  · exact Hw.dmDrive_pow _ _ _ _ _ _
@[simp] theorem Hw.dmGo_clk (a : DmAccess) (e : BitVec 64) : (h.dmGo a e).clk = h.clk := by
  unfold Hw.dmGo; split
  · exact Hw.dmFaulted_clk _ _ _
  · exact Hw.dmDrive_clk _ _ _ _ _ _
@[simp] theorem Hw.dmGo_gate (a : DmAccess) (e : BitVec 64) : (h.dmGo a e).gate = h.gate := by
  unfold Hw.dmGo; split
  · exact Hw.dmFaulted_gate _ _ _
  · exact Hw.dmDrive_gate _ _ _ _ _ _
@[simp] theorem Hw.dmGo_regions (a : DmAccess) (e : BitVec 64) : (h.dmGo a e).regions = h.regions := by
  unfold Hw.dmGo; split
  · exact Hw.dmFaulted_regions _ _ _
  · exact Hw.dmDrive_regions _ _ _ _ _ _
@[simp] theorem Hw.dmGo_txns (a : DmAccess) (e : BitVec 64) : (h.dmGo a e).txns = h.txns := by
  unfold Hw.dmGo; split
  · exact Hw.dmFaulted_txns _ _ _
  · exact Hw.dmDrive_txns _ _ _ _ _ _
@[simp] theorem Hw.dmGo_nextTxn (a : DmAccess) (e : BitVec 64) : (h.dmGo a e).nextTxn = h.nextTxn := by
  unfold Hw.dmGo; split
  · exact Hw.dmFaulted_nextTxn _ _ _
  · exact Hw.dmDrive_nextTxn _ _ _ _ _ _
@[simp] theorem Hw.dmGo_rgl (a : DmAccess) (e : BitVec 64) : (h.dmGo a e).rgl = h.rgl := by
  unfold Hw.dmGo; split
  · exact Hw.dmFaulted_rgl _ _ _
  · exact Hw.dmDrive_rgl _ _ _ _ _ _
@[simp] theorem Hw.dmGo_sumpWords (a : DmAccess) (e : BitVec 64) : (h.dmGo a e).sumpWords = h.sumpWords := by
  unfold Hw.dmGo; split
  · exact Hw.dmFaulted_sumpWords _ _ _
  · exact Hw.dmDrive_sumpWords _ _ _ _ _ _
@[simp] theorem Hw.dmGo_ports (a : DmAccess) (e : BitVec 64) : (h.dmGo a e).ports = h.ports := by
  unfold Hw.dmGo; split
  · exact Hw.dmFaulted_ports _ _ _
  · exact Hw.dmDrive_ports _ _ _ _ _ _
@[simp] theorem Hw.dmGo_gkt (a : DmAccess) (e : BitVec 64) : (h.dmGo a e).gkt = h.gkt := by
  unfold Hw.dmGo; split
  · exact Hw.dmFaulted_gkt _ _ _
  · exact Hw.dmDrive_gkt _ _ _ _ _ _
@[simp] theorem Hw.dmGo_pump (a : DmAccess) (e : BitVec 64) : (h.dmGo a e).pump = h.pump := by
  unfold Hw.dmGo; split
  · exact Hw.dmFaulted_pump _ _ _
  · exact Hw.dmDrive_pump _ _ _ _ _ _
@[simp] theorem Hw.dmGo_gw (a : DmAccess) (e : BitVec 64) : (h.dmGo a e).gw = h.gw := by
  unfold Hw.dmGo; split
  · exact Hw.dmFaulted_gw _ _ _
  · exact Hw.dmDrive_gw _ _ _ _ _ _
@[simp] theorem Hw.dmGo_bru (a : DmAccess) (e : BitVec 64) : (h.dmGo a e).bru = h.bru := by
  unfold Hw.dmGo; split
  · exact Hw.dmFaulted_bru _ _ _
  · exact Hw.dmDrive_bru _ _ _ _ _ _
@[simp] theorem Hw.dmGo_shaper (a : DmAccess) (e : BitVec 64) : (h.dmGo a e).shaper = h.shaper := by
  unfold Hw.dmGo; split
  · exact Hw.dmFaulted_shaper _ _ _
  · exact Hw.dmDrive_shaper _ _ _ _ _ _
@[simp] theorem Hw.dmGo_sched (a : DmAccess) (e : BitVec 64) : (h.dmGo a e).sched = h.sched := by
  unfold Hw.dmGo; split
  · exact Hw.dmFaulted_sched _ _ _
  · exact Hw.dmDrive_sched _ _ _ _ _ _
@[simp] theorem Hw.dmGo_cfe (a : DmAccess) (e : BitVec 64) : (h.dmGo a e).cfe = h.cfe := by
  unfold Hw.dmGo; split
  · exact Hw.dmFaulted_cfe _ _ _
  · exact Hw.dmDrive_cfe _ _ _ _ _ _
@[simp] theorem Hw.dmGo_obj (a : DmAccess) (e : BitVec 64) : (h.dmGo a e).obj = h.obj := by
  unfold Hw.dmGo; split
  · exact Hw.dmFaulted_obj _ _ _
  · exact Hw.dmDrive_obj _ _ _ _ _ _
@[simp] theorem Hw.dmGo_clus (a : DmAccess) (e : BitVec 64) : (h.dmGo a e).clus = h.clus := by
  unfold Hw.dmGo; split
  · exact Hw.dmFaulted_clus _ _ _
  · exact Hw.dmDrive_clus _ _ _ _ _ _
@[simp] theorem Hw.dmGo_dom (a : DmAccess) (e : BitVec 64) : (h.dmGo a e).dom = h.dom := by
  unfold Hw.dmGo; split
  · exact Hw.dmFaulted_dom _ _ _
  · exact Hw.dmDrive_dom _ _ _ _ _ _
@[simp] theorem Hw.dmGo_hangs (a : DmAccess) (e : BitVec 64) : (h.dmGo a e).hangs = h.hangs := by
  unfold Hw.dmGo; split
  · exact Hw.dmFaulted_hangs _ _ _
  · exact Hw.dmDrive_hangs _ _ _ _ _ _
@[simp] theorem Hw.dmGo_resets (a : DmAccess) (e : BitVec 64) : (h.dmGo a e).resets = h.resets := by
  unfold Hw.dmGo; split
  · exact Hw.dmFaulted_resets _ _ _
  · exact Hw.dmDrive_resets _ _ _ _ _ _
@[simp] theorem Hw.dmGo_well (a : DmAccess) (e : BitVec 64) : (h.dmGo a e).well = h.well := by
  unfold Hw.dmGo; split
  · exact Hw.dmFaulted_well _ _ _
  · exact Hw.dmDrive_well _ _ _ _ _ _
@[simp] theorem Hw.dmGo_cnt (a : DmAccess) (e : BitVec 64) : (h.dmGo a e).cnt = h.cnt := by
  unfold Hw.dmGo; split
  · exact Hw.dmFaulted_cnt _ _ _
  · exact Hw.dmDrive_cnt _ _ _ _ _ _
@[simp] theorem Hw.dmGo_per (a : DmAccess) (e : BitVec 64) : (h.dmGo a e).per = h.per := by
  unfold Hw.dmGo; split
  · exact Hw.dmFaulted_per _ _ _
  · exact Hw.dmDrive_per _ _ _ _ _ _
@[simp] theorem Hw.dmGo_ide (a : DmAccess) (e : BitVec 64) : (h.dmGo a e).ide = h.ide := by
  unfold Hw.dmGo; split
  · exact Hw.dmFaulted_ide _ _ _
  · exact Hw.dmDrive_ide _ _ _ _ _ _
@[simp] theorem Hw.dmGo_bulk (a : DmAccess) (e : BitVec 64) : (h.dmGo a e).bulk = h.bulk := by
  unfold Hw.dmGo; split
  · exact Hw.dmFaulted_bulk _ _ _
  · exact Hw.dmDrive_bulk _ _ _ _ _ _
@[simp] theorem Hw.dmGo_cis (a : DmAccess) (e : BitVec 64) : (h.dmGo a e).cis = h.cis := by
  unfold Hw.dmGo; split
  · exact Hw.dmFaulted_cis _ _ _
  · exact Hw.dmDrive_cis _ _ _ _ _ _
@[simp] theorem Hw.dmGo_scu (a : DmAccess) (e : BitVec 64) : (h.dmGo a e).scu = h.scu := by
  unfold Hw.dmGo; split
  · exact Hw.dmFaulted_scu _ _ _
  · exact Hw.dmDrive_scu _ _ _ _ _ _
@[simp] theorem Hw.dmGo_lcs (a : DmAccess) (e : BitVec 64) : (h.dmGo a e).lcs = h.lcs := by
  unfold Hw.dmGo; split
  · exact Hw.dmFaulted_lcs _ _ _
  · exact Hw.dmDrive_lcs _ _ _ _ _ _
@[simp] theorem Hw.dmGo_rail (a : DmAccess) (e : BitVec 64) : (h.dmGo a e).rail = h.rail := by
  unfold Hw.dmGo; split
  · exact Hw.dmFaulted_rail _ _ _
  · exact Hw.dmDrive_rail _ _ _ _ _ _
@[simp] theorem Hw.dmGo_prime (a : DmAccess) (e : BitVec 64) : (h.dmGo a e).prime = h.prime := by
  unfold Hw.dmGo; split
  · exact Hw.dmFaulted_prime _ _ _
  · exact Hw.dmDrive_prime _ _ _ _ _ _
@[simp] theorem Hw.dmGo_tap (a : DmAccess) (e : BitVec 64) : (h.dmGo a e).tap = h.tap := by
  unfold Hw.dmGo; split
  · exact Hw.dmFaulted_tap _ _ _
  · exact Hw.dmDrive_tap _ _ _ _ _ _
@[simp] theorem Hw.dmGo_free (a : DmAccess) (e : BitVec 64) : (h.dmGo a e).free = h.free := by
  unfold Hw.dmGo; split
  · exact Hw.dmFaulted_free _ _ _
  · exact Hw.dmDrive_free _ _ _ _ _ _

@[simp] theorem Hw.walkRead_regs (p : Nat) (l : Option (BitVec 64)) : (h.walkRead p l).regs = h.regs := rfl
@[simp] theorem Hw.walkRead_latch (p : Nat) (l : Option (BitVec 64)) : (h.walkRead p l).latch = h.latch := rfl
@[simp] theorem Hw.walkRead_pow (p : Nat) (l : Option (BitVec 64)) : (h.walkRead p l).pow = h.pow := rfl
@[simp] theorem Hw.walkRead_clk (p : Nat) (l : Option (BitVec 64)) : (h.walkRead p l).clk = h.clk := rfl
@[simp] theorem Hw.walkRead_gate (p : Nat) (l : Option (BitVec 64)) : (h.walkRead p l).gate = h.gate := rfl
@[simp] theorem Hw.walkRead_regions (p : Nat) (l : Option (BitVec 64)) : (h.walkRead p l).regions = h.regions := rfl
@[simp] theorem Hw.walkRead_txns (p : Nat) (l : Option (BitVec 64)) : (h.walkRead p l).txns = h.txns := rfl
@[simp] theorem Hw.walkRead_nextTxn (p : Nat) (l : Option (BitVec 64)) : (h.walkRead p l).nextTxn = h.nextTxn := rfl
@[simp] theorem Hw.walkRead_rgl (p : Nat) (l : Option (BitVec 64)) : (h.walkRead p l).rgl = h.rgl := rfl
@[simp] theorem Hw.walkRead_sumpWords (p : Nat) (l : Option (BitVec 64)) : (h.walkRead p l).sumpWords = h.sumpWords := rfl
@[simp] theorem Hw.walkRead_ports (p : Nat) (l : Option (BitVec 64)) : (h.walkRead p l).ports = h.ports := rfl
@[simp] theorem Hw.walkRead_gkt (p : Nat) (l : Option (BitVec 64)) : (h.walkRead p l).gkt = h.gkt := rfl
@[simp] theorem Hw.walkRead_pump (p : Nat) (l : Option (BitVec 64)) : (h.walkRead p l).pump = h.pump := rfl
@[simp] theorem Hw.walkRead_gw (p : Nat) (l : Option (BitVec 64)) : (h.walkRead p l).gw = h.gw := rfl
@[simp] theorem Hw.walkRead_bru (p : Nat) (l : Option (BitVec 64)) : (h.walkRead p l).bru = h.bru := rfl
@[simp] theorem Hw.walkRead_shaper (p : Nat) (l : Option (BitVec 64)) : (h.walkRead p l).shaper = h.shaper := rfl
@[simp] theorem Hw.walkRead_sched (p : Nat) (l : Option (BitVec 64)) : (h.walkRead p l).sched = h.sched := rfl
@[simp] theorem Hw.walkRead_cfe (p : Nat) (l : Option (BitVec 64)) : (h.walkRead p l).cfe = h.cfe := rfl
@[simp] theorem Hw.walkRead_obj (p : Nat) (l : Option (BitVec 64)) : (h.walkRead p l).obj = h.obj := rfl
@[simp] theorem Hw.walkRead_fcu (p : Nat) (l : Option (BitVec 64)) : (h.walkRead p l).fcu = h.fcu := rfl
@[simp] theorem Hw.walkRead_clus (p : Nat) (l : Option (BitVec 64)) : (h.walkRead p l).clus = h.clus := rfl
@[simp] theorem Hw.walkRead_dom (p : Nat) (l : Option (BitVec 64)) : (h.walkRead p l).dom = h.dom := rfl
@[simp] theorem Hw.walkRead_hangs (p : Nat) (l : Option (BitVec 64)) : (h.walkRead p l).hangs = h.hangs := rfl
@[simp] theorem Hw.walkRead_resets (p : Nat) (l : Option (BitVec 64)) : (h.walkRead p l).resets = h.resets := rfl
@[simp] theorem Hw.walkRead_inject (p : Nat) (l : Option (BitVec 64)) : (h.walkRead p l).inject = h.inject := rfl
@[simp] theorem Hw.walkRead_well (p : Nat) (l : Option (BitVec 64)) : (h.walkRead p l).well = h.well := rfl
@[simp] theorem Hw.walkRead_cnt (p : Nat) (l : Option (BitVec 64)) : (h.walkRead p l).cnt = h.cnt := rfl
@[simp] theorem Hw.walkRead_icu (p : Nat) (l : Option (BitVec 64)) : (h.walkRead p l).icu = h.icu := rfl
@[simp] theorem Hw.walkRead_per (p : Nat) (l : Option (BitVec 64)) : (h.walkRead p l).per = h.per := rfl
@[simp] theorem Hw.walkRead_ide (p : Nat) (l : Option (BitVec 64)) : (h.walkRead p l).ide = h.ide := rfl
@[simp] theorem Hw.walkRead_bulk (p : Nat) (l : Option (BitVec 64)) : (h.walkRead p l).bulk = h.bulk := rfl
@[simp] theorem Hw.walkRead_cis (p : Nat) (l : Option (BitVec 64)) : (h.walkRead p l).cis = h.cis := rfl
@[simp] theorem Hw.walkRead_scu (p : Nat) (l : Option (BitVec 64)) : (h.walkRead p l).scu = h.scu := rfl
@[simp] theorem Hw.walkRead_lcs (p : Nat) (l : Option (BitVec 64)) : (h.walkRead p l).lcs = h.lcs := rfl
@[simp] theorem Hw.walkRead_rail (p : Nat) (l : Option (BitVec 64)) : (h.walkRead p l).rail = h.rail := rfl
@[simp] theorem Hw.walkRead_prime (p : Nat) (l : Option (BitVec 64)) : (h.walkRead p l).prime = h.prime := rfl
@[simp] theorem Hw.walkRead_tap (p : Nat) (l : Option (BitVec 64)) : (h.walkRead p l).tap = h.tap := rfl
@[simp] theorem Hw.walkRead_free (p : Nat) (l : Option (BitVec 64)) : (h.walkRead p l).free = h.free := rfl

@[simp] theorem Hw.dmAsk_latch (a : DmAccess) : (h.dmAsk a).latch = h.latch := by
  unfold Hw.dmAsk; split
  · exact Hw.dmFaulted_latch _ _ _
  · split
    · exact Hw.dmGo_latch _ _ _
    · dsimp only; split
      · rfl
      · exact (Hw.walkRead_latch _ _ _).trans (Hw.incReg_latch _ _)
@[simp] theorem Hw.dmAsk_pow (a : DmAccess) : (h.dmAsk a).pow = h.pow := by
  unfold Hw.dmAsk; split
  · exact Hw.dmFaulted_pow _ _ _
  · split
    · exact Hw.dmGo_pow _ _ _
    · dsimp only; split
      · rfl
      · exact (Hw.walkRead_pow _ _ _).trans (Hw.incReg_pow _ _)
@[simp] theorem Hw.dmAsk_clk (a : DmAccess) : (h.dmAsk a).clk = h.clk := by
  unfold Hw.dmAsk; split
  · exact Hw.dmFaulted_clk _ _ _
  · split
    · exact Hw.dmGo_clk _ _ _
    · dsimp only; split
      · rfl
      · exact (Hw.walkRead_clk _ _ _).trans (Hw.incReg_clk _ _)
@[simp] theorem Hw.dmAsk_gate (a : DmAccess) : (h.dmAsk a).gate = h.gate := by
  unfold Hw.dmAsk; split
  · exact Hw.dmFaulted_gate _ _ _
  · split
    · exact Hw.dmGo_gate _ _ _
    · dsimp only; split
      · rfl
      · exact (Hw.walkRead_gate _ _ _).trans (Hw.incReg_gate _ _)
@[simp] theorem Hw.dmAsk_regions (a : DmAccess) : (h.dmAsk a).regions = h.regions := by
  unfold Hw.dmAsk; split
  · exact Hw.dmFaulted_regions _ _ _
  · split
    · exact Hw.dmGo_regions _ _ _
    · dsimp only; split
      · rfl
      · exact (Hw.walkRead_regions _ _ _).trans (Hw.incReg_regions _ _)
@[simp] theorem Hw.dmAsk_txns (a : DmAccess) : (h.dmAsk a).txns = h.txns := by
  unfold Hw.dmAsk; split
  · exact Hw.dmFaulted_txns _ _ _
  · split
    · exact Hw.dmGo_txns _ _ _
    · dsimp only; split
      · rfl
      · exact (Hw.walkRead_txns _ _ _).trans (Hw.incReg_txns _ _)
@[simp] theorem Hw.dmAsk_nextTxn (a : DmAccess) : (h.dmAsk a).nextTxn = h.nextTxn := by
  unfold Hw.dmAsk; split
  · exact Hw.dmFaulted_nextTxn _ _ _
  · split
    · exact Hw.dmGo_nextTxn _ _ _
    · dsimp only; split
      · rfl
      · exact (Hw.walkRead_nextTxn _ _ _).trans (Hw.incReg_nextTxn _ _)
@[simp] theorem Hw.dmAsk_rgl (a : DmAccess) : (h.dmAsk a).rgl = h.rgl := by
  unfold Hw.dmAsk; split
  · exact Hw.dmFaulted_rgl _ _ _
  · split
    · exact Hw.dmGo_rgl _ _ _
    · dsimp only; split
      · rfl
      · exact (Hw.walkRead_rgl _ _ _).trans (Hw.incReg_rgl _ _)
@[simp] theorem Hw.dmAsk_sumpWords (a : DmAccess) : (h.dmAsk a).sumpWords = h.sumpWords := by
  unfold Hw.dmAsk; split
  · exact Hw.dmFaulted_sumpWords _ _ _
  · split
    · exact Hw.dmGo_sumpWords _ _ _
    · dsimp only; split
      · rfl
      · exact (Hw.walkRead_sumpWords _ _ _).trans (Hw.incReg_sumpWords _ _)
@[simp] theorem Hw.dmAsk_ports (a : DmAccess) : (h.dmAsk a).ports = h.ports := by
  unfold Hw.dmAsk; split
  · exact Hw.dmFaulted_ports _ _ _
  · split
    · exact Hw.dmGo_ports _ _ _
    · dsimp only; split
      · rfl
      · exact (Hw.walkRead_ports _ _ _).trans (Hw.incReg_ports _ _)
@[simp] theorem Hw.dmAsk_gkt (a : DmAccess) : (h.dmAsk a).gkt = h.gkt := by
  unfold Hw.dmAsk; split
  · exact Hw.dmFaulted_gkt _ _ _
  · split
    · exact Hw.dmGo_gkt _ _ _
    · dsimp only; split
      · rfl
      · exact (Hw.walkRead_gkt _ _ _).trans (Hw.incReg_gkt _ _)
@[simp] theorem Hw.dmAsk_pump (a : DmAccess) : (h.dmAsk a).pump = h.pump := by
  unfold Hw.dmAsk; split
  · exact Hw.dmFaulted_pump _ _ _
  · split
    · exact Hw.dmGo_pump _ _ _
    · dsimp only; split
      · rfl
      · exact (Hw.walkRead_pump _ _ _).trans (Hw.incReg_pump _ _)
@[simp] theorem Hw.dmAsk_gw (a : DmAccess) : (h.dmAsk a).gw = h.gw := by
  unfold Hw.dmAsk; split
  · exact Hw.dmFaulted_gw _ _ _
  · split
    · exact Hw.dmGo_gw _ _ _
    · dsimp only; split
      · rfl
      · exact (Hw.walkRead_gw _ _ _).trans (Hw.incReg_gw _ _)
@[simp] theorem Hw.dmAsk_bru (a : DmAccess) : (h.dmAsk a).bru = h.bru := by
  unfold Hw.dmAsk; split
  · exact Hw.dmFaulted_bru _ _ _
  · split
    · exact Hw.dmGo_bru _ _ _
    · dsimp only; split
      · rfl
      · exact (Hw.walkRead_bru _ _ _).trans (Hw.incReg_bru _ _)
@[simp] theorem Hw.dmAsk_shaper (a : DmAccess) : (h.dmAsk a).shaper = h.shaper := by
  unfold Hw.dmAsk; split
  · exact Hw.dmFaulted_shaper _ _ _
  · split
    · exact Hw.dmGo_shaper _ _ _
    · dsimp only; split
      · rfl
      · exact (Hw.walkRead_shaper _ _ _).trans (Hw.incReg_shaper _ _)
@[simp] theorem Hw.dmAsk_sched (a : DmAccess) : (h.dmAsk a).sched = h.sched := by
  unfold Hw.dmAsk; split
  · exact Hw.dmFaulted_sched _ _ _
  · split
    · exact Hw.dmGo_sched _ _ _
    · dsimp only; split
      · rfl
      · exact (Hw.walkRead_sched _ _ _).trans (Hw.incReg_sched _ _)
@[simp] theorem Hw.dmAsk_cfe (a : DmAccess) : (h.dmAsk a).cfe = h.cfe := by
  unfold Hw.dmAsk; split
  · exact Hw.dmFaulted_cfe _ _ _
  · split
    · exact Hw.dmGo_cfe _ _ _
    · dsimp only; split
      · rfl
      · exact (Hw.walkRead_cfe _ _ _).trans (Hw.incReg_cfe _ _)
@[simp] theorem Hw.dmAsk_obj (a : DmAccess) : (h.dmAsk a).obj = h.obj := by
  unfold Hw.dmAsk; split
  · exact Hw.dmFaulted_obj _ _ _
  · split
    · exact Hw.dmGo_obj _ _ _
    · dsimp only; split
      · rfl
      · exact (Hw.walkRead_obj _ _ _).trans (Hw.incReg_obj _ _)
@[simp] theorem Hw.dmAsk_clus (a : DmAccess) : (h.dmAsk a).clus = h.clus := by
  unfold Hw.dmAsk; split
  · exact Hw.dmFaulted_clus _ _ _
  · split
    · exact Hw.dmGo_clus _ _ _
    · dsimp only; split
      · rfl
      · exact (Hw.walkRead_clus _ _ _).trans (Hw.incReg_clus _ _)
@[simp] theorem Hw.dmAsk_dom (a : DmAccess) : (h.dmAsk a).dom = h.dom := by
  unfold Hw.dmAsk; split
  · exact Hw.dmFaulted_dom _ _ _
  · split
    · exact Hw.dmGo_dom _ _ _
    · dsimp only; split
      · rfl
      · exact (Hw.walkRead_dom _ _ _).trans (Hw.incReg_dom _ _)
@[simp] theorem Hw.dmAsk_hangs (a : DmAccess) : (h.dmAsk a).hangs = h.hangs := by
  unfold Hw.dmAsk; split
  · exact Hw.dmFaulted_hangs _ _ _
  · split
    · exact Hw.dmGo_hangs _ _ _
    · dsimp only; split
      · rfl
      · exact (Hw.walkRead_hangs _ _ _).trans (Hw.incReg_hangs _ _)
@[simp] theorem Hw.dmAsk_resets (a : DmAccess) : (h.dmAsk a).resets = h.resets := by
  unfold Hw.dmAsk; split
  · exact Hw.dmFaulted_resets _ _ _
  · split
    · exact Hw.dmGo_resets _ _ _
    · dsimp only; split
      · rfl
      · exact (Hw.walkRead_resets _ _ _).trans (Hw.incReg_resets _ _)
@[simp] theorem Hw.dmAsk_well (a : DmAccess) : (h.dmAsk a).well = h.well := by
  unfold Hw.dmAsk; split
  · exact Hw.dmFaulted_well _ _ _
  · split
    · exact Hw.dmGo_well _ _ _
    · dsimp only; split
      · rfl
      · exact (Hw.walkRead_well _ _ _).trans (Hw.incReg_well _ _)
@[simp] theorem Hw.dmAsk_cnt (a : DmAccess) : (h.dmAsk a).cnt = h.cnt := by
  unfold Hw.dmAsk; split
  · exact Hw.dmFaulted_cnt _ _ _
  · split
    · exact Hw.dmGo_cnt _ _ _
    · dsimp only; split
      · rfl
      · exact (Hw.walkRead_cnt _ _ _).trans (Hw.incReg_cnt _ _)
@[simp] theorem Hw.dmAsk_per (a : DmAccess) : (h.dmAsk a).per = h.per := by
  unfold Hw.dmAsk; split
  · exact Hw.dmFaulted_per _ _ _
  · split
    · exact Hw.dmGo_per _ _ _
    · dsimp only; split
      · rfl
      · exact (Hw.walkRead_per _ _ _).trans (Hw.incReg_per _ _)
@[simp] theorem Hw.dmAsk_ide (a : DmAccess) : (h.dmAsk a).ide = h.ide := by
  unfold Hw.dmAsk; split
  · exact Hw.dmFaulted_ide _ _ _
  · split
    · exact Hw.dmGo_ide _ _ _
    · dsimp only; split
      · rfl
      · exact (Hw.walkRead_ide _ _ _).trans (Hw.incReg_ide _ _)
@[simp] theorem Hw.dmAsk_bulk (a : DmAccess) : (h.dmAsk a).bulk = h.bulk := by
  unfold Hw.dmAsk; split
  · exact Hw.dmFaulted_bulk _ _ _
  · split
    · exact Hw.dmGo_bulk _ _ _
    · dsimp only; split
      · rfl
      · exact (Hw.walkRead_bulk _ _ _).trans (Hw.incReg_bulk _ _)
@[simp] theorem Hw.dmAsk_cis (a : DmAccess) : (h.dmAsk a).cis = h.cis := by
  unfold Hw.dmAsk; split
  · exact Hw.dmFaulted_cis _ _ _
  · split
    · exact Hw.dmGo_cis _ _ _
    · dsimp only; split
      · rfl
      · exact (Hw.walkRead_cis _ _ _).trans (Hw.incReg_cis _ _)
@[simp] theorem Hw.dmAsk_scu (a : DmAccess) : (h.dmAsk a).scu = h.scu := by
  unfold Hw.dmAsk; split
  · exact Hw.dmFaulted_scu _ _ _
  · split
    · exact Hw.dmGo_scu _ _ _
    · dsimp only; split
      · rfl
      · exact (Hw.walkRead_scu _ _ _).trans (Hw.incReg_scu _ _)
@[simp] theorem Hw.dmAsk_lcs (a : DmAccess) : (h.dmAsk a).lcs = h.lcs := by
  unfold Hw.dmAsk; split
  · exact Hw.dmFaulted_lcs _ _ _
  · split
    · exact Hw.dmGo_lcs _ _ _
    · dsimp only; split
      · rfl
      · exact (Hw.walkRead_lcs _ _ _).trans (Hw.incReg_lcs _ _)
@[simp] theorem Hw.dmAsk_rail (a : DmAccess) : (h.dmAsk a).rail = h.rail := by
  unfold Hw.dmAsk; split
  · exact Hw.dmFaulted_rail _ _ _
  · split
    · exact Hw.dmGo_rail _ _ _
    · dsimp only; split
      · rfl
      · exact (Hw.walkRead_rail _ _ _).trans (Hw.incReg_rail _ _)
@[simp] theorem Hw.dmAsk_prime (a : DmAccess) : (h.dmAsk a).prime = h.prime := by
  unfold Hw.dmAsk; split
  · exact Hw.dmFaulted_prime _ _ _
  · split
    · exact Hw.dmGo_prime _ _ _
    · dsimp only; split
      · rfl
      · exact (Hw.walkRead_prime _ _ _).trans (Hw.incReg_prime _ _)
@[simp] theorem Hw.dmAsk_tap (a : DmAccess) : (h.dmAsk a).tap = h.tap := by
  unfold Hw.dmAsk; split
  · exact Hw.dmFaulted_tap _ _ _
  · split
    · exact Hw.dmGo_tap _ _ _
    · dsimp only; split
      · rfl
      · exact (Hw.walkRead_tap _ _ _).trans (Hw.incReg_tap _ _)
@[simp] theorem Hw.dmAsk_free (a : DmAccess) : (h.dmAsk a).free = h.free := by
  unfold Hw.dmAsk; split
  · exact Hw.dmFaulted_free _ _ _
  · split
    · exact Hw.dmGo_free _ _ _
    · dsimp only; split
      · rfl
      · exact (Hw.walkRead_free _ _ _).trans (Hw.incReg_free _ _)

@[simp] theorem Hw.dmWrite_latch (u : DmUse) (q : Option Nat) (t a : Nat) (d : List Byte) : (h.dmWrite u q t a d).latch = h.latch := by
  unfold Hw.dmWrite; exact foldl_keeps (·.latch) _ (fun _ _ => Hw.dmAsk_latch _ _) _ _
@[simp] theorem Hw.dmWrite_pow (u : DmUse) (q : Option Nat) (t a : Nat) (d : List Byte) : (h.dmWrite u q t a d).pow = h.pow := by
  unfold Hw.dmWrite; exact foldl_keeps (·.pow) _ (fun _ _ => Hw.dmAsk_pow _ _) _ _
@[simp] theorem Hw.dmWrite_clk (u : DmUse) (q : Option Nat) (t a : Nat) (d : List Byte) : (h.dmWrite u q t a d).clk = h.clk := by
  unfold Hw.dmWrite; exact foldl_keeps (·.clk) _ (fun _ _ => Hw.dmAsk_clk _ _) _ _
@[simp] theorem Hw.dmWrite_gate (u : DmUse) (q : Option Nat) (t a : Nat) (d : List Byte) : (h.dmWrite u q t a d).gate = h.gate := by
  unfold Hw.dmWrite; exact foldl_keeps (·.gate) _ (fun _ _ => Hw.dmAsk_gate _ _) _ _
@[simp] theorem Hw.dmWrite_regions (u : DmUse) (q : Option Nat) (t a : Nat) (d : List Byte) : (h.dmWrite u q t a d).regions = h.regions := by
  unfold Hw.dmWrite; exact foldl_keeps (·.regions) _ (fun _ _ => Hw.dmAsk_regions _ _) _ _
@[simp] theorem Hw.dmWrite_txns (u : DmUse) (q : Option Nat) (t a : Nat) (d : List Byte) : (h.dmWrite u q t a d).txns = h.txns := by
  unfold Hw.dmWrite; exact foldl_keeps (·.txns) _ (fun _ _ => Hw.dmAsk_txns _ _) _ _
@[simp] theorem Hw.dmWrite_nextTxn (u : DmUse) (q : Option Nat) (t a : Nat) (d : List Byte) : (h.dmWrite u q t a d).nextTxn = h.nextTxn := by
  unfold Hw.dmWrite; exact foldl_keeps (·.nextTxn) _ (fun _ _ => Hw.dmAsk_nextTxn _ _) _ _
@[simp] theorem Hw.dmWrite_rgl (u : DmUse) (q : Option Nat) (t a : Nat) (d : List Byte) : (h.dmWrite u q t a d).rgl = h.rgl := by
  unfold Hw.dmWrite; exact foldl_keeps (·.rgl) _ (fun _ _ => Hw.dmAsk_rgl _ _) _ _
@[simp] theorem Hw.dmWrite_sumpWords (u : DmUse) (q : Option Nat) (t a : Nat) (d : List Byte) : (h.dmWrite u q t a d).sumpWords = h.sumpWords := by
  unfold Hw.dmWrite; exact foldl_keeps (·.sumpWords) _ (fun _ _ => Hw.dmAsk_sumpWords _ _) _ _
@[simp] theorem Hw.dmWrite_ports (u : DmUse) (q : Option Nat) (t a : Nat) (d : List Byte) : (h.dmWrite u q t a d).ports = h.ports := by
  unfold Hw.dmWrite; exact foldl_keeps (·.ports) _ (fun _ _ => Hw.dmAsk_ports _ _) _ _
@[simp] theorem Hw.dmWrite_gkt (u : DmUse) (q : Option Nat) (t a : Nat) (d : List Byte) : (h.dmWrite u q t a d).gkt = h.gkt := by
  unfold Hw.dmWrite; exact foldl_keeps (·.gkt) _ (fun _ _ => Hw.dmAsk_gkt _ _) _ _
@[simp] theorem Hw.dmWrite_pump (u : DmUse) (q : Option Nat) (t a : Nat) (d : List Byte) : (h.dmWrite u q t a d).pump = h.pump := by
  unfold Hw.dmWrite; exact foldl_keeps (·.pump) _ (fun _ _ => Hw.dmAsk_pump _ _) _ _
@[simp] theorem Hw.dmWrite_gw (u : DmUse) (q : Option Nat) (t a : Nat) (d : List Byte) : (h.dmWrite u q t a d).gw = h.gw := by
  unfold Hw.dmWrite; exact foldl_keeps (·.gw) _ (fun _ _ => Hw.dmAsk_gw _ _) _ _
@[simp] theorem Hw.dmWrite_bru (u : DmUse) (q : Option Nat) (t a : Nat) (d : List Byte) : (h.dmWrite u q t a d).bru = h.bru := by
  unfold Hw.dmWrite; exact foldl_keeps (·.bru) _ (fun _ _ => Hw.dmAsk_bru _ _) _ _
@[simp] theorem Hw.dmWrite_shaper (u : DmUse) (q : Option Nat) (t a : Nat) (d : List Byte) : (h.dmWrite u q t a d).shaper = h.shaper := by
  unfold Hw.dmWrite; exact foldl_keeps (·.shaper) _ (fun _ _ => Hw.dmAsk_shaper _ _) _ _
@[simp] theorem Hw.dmWrite_sched (u : DmUse) (q : Option Nat) (t a : Nat) (d : List Byte) : (h.dmWrite u q t a d).sched = h.sched := by
  unfold Hw.dmWrite; exact foldl_keeps (·.sched) _ (fun _ _ => Hw.dmAsk_sched _ _) _ _
@[simp] theorem Hw.dmWrite_cfe (u : DmUse) (q : Option Nat) (t a : Nat) (d : List Byte) : (h.dmWrite u q t a d).cfe = h.cfe := by
  unfold Hw.dmWrite; exact foldl_keeps (·.cfe) _ (fun _ _ => Hw.dmAsk_cfe _ _) _ _
@[simp] theorem Hw.dmWrite_obj (u : DmUse) (q : Option Nat) (t a : Nat) (d : List Byte) : (h.dmWrite u q t a d).obj = h.obj := by
  unfold Hw.dmWrite; exact foldl_keeps (·.obj) _ (fun _ _ => Hw.dmAsk_obj _ _) _ _
@[simp] theorem Hw.dmWrite_clus (u : DmUse) (q : Option Nat) (t a : Nat) (d : List Byte) : (h.dmWrite u q t a d).clus = h.clus := by
  unfold Hw.dmWrite; exact foldl_keeps (·.clus) _ (fun _ _ => Hw.dmAsk_clus _ _) _ _
@[simp] theorem Hw.dmWrite_dom (u : DmUse) (q : Option Nat) (t a : Nat) (d : List Byte) : (h.dmWrite u q t a d).dom = h.dom := by
  unfold Hw.dmWrite; exact foldl_keeps (·.dom) _ (fun _ _ => Hw.dmAsk_dom _ _) _ _
@[simp] theorem Hw.dmWrite_hangs (u : DmUse) (q : Option Nat) (t a : Nat) (d : List Byte) : (h.dmWrite u q t a d).hangs = h.hangs := by
  unfold Hw.dmWrite; exact foldl_keeps (·.hangs) _ (fun _ _ => Hw.dmAsk_hangs _ _) _ _
@[simp] theorem Hw.dmWrite_resets (u : DmUse) (q : Option Nat) (t a : Nat) (d : List Byte) : (h.dmWrite u q t a d).resets = h.resets := by
  unfold Hw.dmWrite; exact foldl_keeps (·.resets) _ (fun _ _ => Hw.dmAsk_resets _ _) _ _
@[simp] theorem Hw.dmWrite_well (u : DmUse) (q : Option Nat) (t a : Nat) (d : List Byte) : (h.dmWrite u q t a d).well = h.well := by
  unfold Hw.dmWrite; exact foldl_keeps (·.well) _ (fun _ _ => Hw.dmAsk_well _ _) _ _
@[simp] theorem Hw.dmWrite_cnt (u : DmUse) (q : Option Nat) (t a : Nat) (d : List Byte) : (h.dmWrite u q t a d).cnt = h.cnt := by
  unfold Hw.dmWrite; exact foldl_keeps (·.cnt) _ (fun _ _ => Hw.dmAsk_cnt _ _) _ _
@[simp] theorem Hw.dmWrite_per (u : DmUse) (q : Option Nat) (t a : Nat) (d : List Byte) : (h.dmWrite u q t a d).per = h.per := by
  unfold Hw.dmWrite; exact foldl_keeps (·.per) _ (fun _ _ => Hw.dmAsk_per _ _) _ _
@[simp] theorem Hw.dmWrite_ide (u : DmUse) (q : Option Nat) (t a : Nat) (d : List Byte) : (h.dmWrite u q t a d).ide = h.ide := by
  unfold Hw.dmWrite; exact foldl_keeps (·.ide) _ (fun _ _ => Hw.dmAsk_ide _ _) _ _
@[simp] theorem Hw.dmWrite_bulk (u : DmUse) (q : Option Nat) (t a : Nat) (d : List Byte) : (h.dmWrite u q t a d).bulk = h.bulk := by
  unfold Hw.dmWrite; exact foldl_keeps (·.bulk) _ (fun _ _ => Hw.dmAsk_bulk _ _) _ _
@[simp] theorem Hw.dmWrite_cis (u : DmUse) (q : Option Nat) (t a : Nat) (d : List Byte) : (h.dmWrite u q t a d).cis = h.cis := by
  unfold Hw.dmWrite; exact foldl_keeps (·.cis) _ (fun _ _ => Hw.dmAsk_cis _ _) _ _
@[simp] theorem Hw.dmWrite_scu (u : DmUse) (q : Option Nat) (t a : Nat) (d : List Byte) : (h.dmWrite u q t a d).scu = h.scu := by
  unfold Hw.dmWrite; exact foldl_keeps (·.scu) _ (fun _ _ => Hw.dmAsk_scu _ _) _ _
@[simp] theorem Hw.dmWrite_lcs (u : DmUse) (q : Option Nat) (t a : Nat) (d : List Byte) : (h.dmWrite u q t a d).lcs = h.lcs := by
  unfold Hw.dmWrite; exact foldl_keeps (·.lcs) _ (fun _ _ => Hw.dmAsk_lcs _ _) _ _
@[simp] theorem Hw.dmWrite_rail (u : DmUse) (q : Option Nat) (t a : Nat) (d : List Byte) : (h.dmWrite u q t a d).rail = h.rail := by
  unfold Hw.dmWrite; exact foldl_keeps (·.rail) _ (fun _ _ => Hw.dmAsk_rail _ _) _ _
@[simp] theorem Hw.dmWrite_prime (u : DmUse) (q : Option Nat) (t a : Nat) (d : List Byte) : (h.dmWrite u q t a d).prime = h.prime := by
  unfold Hw.dmWrite; exact foldl_keeps (·.prime) _ (fun _ _ => Hw.dmAsk_prime _ _) _ _
@[simp] theorem Hw.dmWrite_tap (u : DmUse) (q : Option Nat) (t a : Nat) (d : List Byte) : (h.dmWrite u q t a d).tap = h.tap := by
  unfold Hw.dmWrite; exact foldl_keeps (·.tap) _ (fun _ _ => Hw.dmAsk_tap _ _) _ _
@[simp] theorem Hw.dmWrite_free (u : DmUse) (q : Option Nat) (t a : Nat) (d : List Byte) : (h.dmWrite u q t a d).free = h.free := by
  unfold Hw.dmWrite; exact foldl_keeps (·.free) _ (fun _ _ => Hw.dmAsk_free _ _) _ _

@[simp] theorem Hw.dmRead_latch (u : DmUse) (q : Option Nat) (t a b : Nat) : (h.dmRead u q t a b).latch = h.latch := by
  unfold Hw.dmRead; exact foldl_keeps (·.latch) _ (fun _ _ => Hw.dmAsk_latch _ _) _ _
@[simp] theorem Hw.dmRead_pow (u : DmUse) (q : Option Nat) (t a b : Nat) : (h.dmRead u q t a b).pow = h.pow := by
  unfold Hw.dmRead; exact foldl_keeps (·.pow) _ (fun _ _ => Hw.dmAsk_pow _ _) _ _
@[simp] theorem Hw.dmRead_clk (u : DmUse) (q : Option Nat) (t a b : Nat) : (h.dmRead u q t a b).clk = h.clk := by
  unfold Hw.dmRead; exact foldl_keeps (·.clk) _ (fun _ _ => Hw.dmAsk_clk _ _) _ _
@[simp] theorem Hw.dmRead_gate (u : DmUse) (q : Option Nat) (t a b : Nat) : (h.dmRead u q t a b).gate = h.gate := by
  unfold Hw.dmRead; exact foldl_keeps (·.gate) _ (fun _ _ => Hw.dmAsk_gate _ _) _ _
@[simp] theorem Hw.dmRead_regions (u : DmUse) (q : Option Nat) (t a b : Nat) : (h.dmRead u q t a b).regions = h.regions := by
  unfold Hw.dmRead; exact foldl_keeps (·.regions) _ (fun _ _ => Hw.dmAsk_regions _ _) _ _
@[simp] theorem Hw.dmRead_txns (u : DmUse) (q : Option Nat) (t a b : Nat) : (h.dmRead u q t a b).txns = h.txns := by
  unfold Hw.dmRead; exact foldl_keeps (·.txns) _ (fun _ _ => Hw.dmAsk_txns _ _) _ _
@[simp] theorem Hw.dmRead_nextTxn (u : DmUse) (q : Option Nat) (t a b : Nat) : (h.dmRead u q t a b).nextTxn = h.nextTxn := by
  unfold Hw.dmRead; exact foldl_keeps (·.nextTxn) _ (fun _ _ => Hw.dmAsk_nextTxn _ _) _ _
@[simp] theorem Hw.dmRead_rgl (u : DmUse) (q : Option Nat) (t a b : Nat) : (h.dmRead u q t a b).rgl = h.rgl := by
  unfold Hw.dmRead; exact foldl_keeps (·.rgl) _ (fun _ _ => Hw.dmAsk_rgl _ _) _ _
@[simp] theorem Hw.dmRead_sumpWords (u : DmUse) (q : Option Nat) (t a b : Nat) : (h.dmRead u q t a b).sumpWords = h.sumpWords := by
  unfold Hw.dmRead; exact foldl_keeps (·.sumpWords) _ (fun _ _ => Hw.dmAsk_sumpWords _ _) _ _
@[simp] theorem Hw.dmRead_ports (u : DmUse) (q : Option Nat) (t a b : Nat) : (h.dmRead u q t a b).ports = h.ports := by
  unfold Hw.dmRead; exact foldl_keeps (·.ports) _ (fun _ _ => Hw.dmAsk_ports _ _) _ _
@[simp] theorem Hw.dmRead_gkt (u : DmUse) (q : Option Nat) (t a b : Nat) : (h.dmRead u q t a b).gkt = h.gkt := by
  unfold Hw.dmRead; exact foldl_keeps (·.gkt) _ (fun _ _ => Hw.dmAsk_gkt _ _) _ _
@[simp] theorem Hw.dmRead_pump (u : DmUse) (q : Option Nat) (t a b : Nat) : (h.dmRead u q t a b).pump = h.pump := by
  unfold Hw.dmRead; exact foldl_keeps (·.pump) _ (fun _ _ => Hw.dmAsk_pump _ _) _ _
@[simp] theorem Hw.dmRead_gw (u : DmUse) (q : Option Nat) (t a b : Nat) : (h.dmRead u q t a b).gw = h.gw := by
  unfold Hw.dmRead; exact foldl_keeps (·.gw) _ (fun _ _ => Hw.dmAsk_gw _ _) _ _
@[simp] theorem Hw.dmRead_bru (u : DmUse) (q : Option Nat) (t a b : Nat) : (h.dmRead u q t a b).bru = h.bru := by
  unfold Hw.dmRead; exact foldl_keeps (·.bru) _ (fun _ _ => Hw.dmAsk_bru _ _) _ _
@[simp] theorem Hw.dmRead_shaper (u : DmUse) (q : Option Nat) (t a b : Nat) : (h.dmRead u q t a b).shaper = h.shaper := by
  unfold Hw.dmRead; exact foldl_keeps (·.shaper) _ (fun _ _ => Hw.dmAsk_shaper _ _) _ _
@[simp] theorem Hw.dmRead_sched (u : DmUse) (q : Option Nat) (t a b : Nat) : (h.dmRead u q t a b).sched = h.sched := by
  unfold Hw.dmRead; exact foldl_keeps (·.sched) _ (fun _ _ => Hw.dmAsk_sched _ _) _ _
@[simp] theorem Hw.dmRead_cfe (u : DmUse) (q : Option Nat) (t a b : Nat) : (h.dmRead u q t a b).cfe = h.cfe := by
  unfold Hw.dmRead; exact foldl_keeps (·.cfe) _ (fun _ _ => Hw.dmAsk_cfe _ _) _ _
@[simp] theorem Hw.dmRead_obj (u : DmUse) (q : Option Nat) (t a b : Nat) : (h.dmRead u q t a b).obj = h.obj := by
  unfold Hw.dmRead; exact foldl_keeps (·.obj) _ (fun _ _ => Hw.dmAsk_obj _ _) _ _
@[simp] theorem Hw.dmRead_clus (u : DmUse) (q : Option Nat) (t a b : Nat) : (h.dmRead u q t a b).clus = h.clus := by
  unfold Hw.dmRead; exact foldl_keeps (·.clus) _ (fun _ _ => Hw.dmAsk_clus _ _) _ _
@[simp] theorem Hw.dmRead_dom (u : DmUse) (q : Option Nat) (t a b : Nat) : (h.dmRead u q t a b).dom = h.dom := by
  unfold Hw.dmRead; exact foldl_keeps (·.dom) _ (fun _ _ => Hw.dmAsk_dom _ _) _ _
@[simp] theorem Hw.dmRead_hangs (u : DmUse) (q : Option Nat) (t a b : Nat) : (h.dmRead u q t a b).hangs = h.hangs := by
  unfold Hw.dmRead; exact foldl_keeps (·.hangs) _ (fun _ _ => Hw.dmAsk_hangs _ _) _ _
@[simp] theorem Hw.dmRead_resets (u : DmUse) (q : Option Nat) (t a b : Nat) : (h.dmRead u q t a b).resets = h.resets := by
  unfold Hw.dmRead; exact foldl_keeps (·.resets) _ (fun _ _ => Hw.dmAsk_resets _ _) _ _
@[simp] theorem Hw.dmRead_well (u : DmUse) (q : Option Nat) (t a b : Nat) : (h.dmRead u q t a b).well = h.well := by
  unfold Hw.dmRead; exact foldl_keeps (·.well) _ (fun _ _ => Hw.dmAsk_well _ _) _ _
@[simp] theorem Hw.dmRead_cnt (u : DmUse) (q : Option Nat) (t a b : Nat) : (h.dmRead u q t a b).cnt = h.cnt := by
  unfold Hw.dmRead; exact foldl_keeps (·.cnt) _ (fun _ _ => Hw.dmAsk_cnt _ _) _ _
@[simp] theorem Hw.dmRead_per (u : DmUse) (q : Option Nat) (t a b : Nat) : (h.dmRead u q t a b).per = h.per := by
  unfold Hw.dmRead; exact foldl_keeps (·.per) _ (fun _ _ => Hw.dmAsk_per _ _) _ _
@[simp] theorem Hw.dmRead_ide (u : DmUse) (q : Option Nat) (t a b : Nat) : (h.dmRead u q t a b).ide = h.ide := by
  unfold Hw.dmRead; exact foldl_keeps (·.ide) _ (fun _ _ => Hw.dmAsk_ide _ _) _ _
@[simp] theorem Hw.dmRead_bulk (u : DmUse) (q : Option Nat) (t a b : Nat) : (h.dmRead u q t a b).bulk = h.bulk := by
  unfold Hw.dmRead; exact foldl_keeps (·.bulk) _ (fun _ _ => Hw.dmAsk_bulk _ _) _ _
@[simp] theorem Hw.dmRead_cis (u : DmUse) (q : Option Nat) (t a b : Nat) : (h.dmRead u q t a b).cis = h.cis := by
  unfold Hw.dmRead; exact foldl_keeps (·.cis) _ (fun _ _ => Hw.dmAsk_cis _ _) _ _
@[simp] theorem Hw.dmRead_scu (u : DmUse) (q : Option Nat) (t a b : Nat) : (h.dmRead u q t a b).scu = h.scu := by
  unfold Hw.dmRead; exact foldl_keeps (·.scu) _ (fun _ _ => Hw.dmAsk_scu _ _) _ _
@[simp] theorem Hw.dmRead_lcs (u : DmUse) (q : Option Nat) (t a b : Nat) : (h.dmRead u q t a b).lcs = h.lcs := by
  unfold Hw.dmRead; exact foldl_keeps (·.lcs) _ (fun _ _ => Hw.dmAsk_lcs _ _) _ _
@[simp] theorem Hw.dmRead_rail (u : DmUse) (q : Option Nat) (t a b : Nat) : (h.dmRead u q t a b).rail = h.rail := by
  unfold Hw.dmRead; exact foldl_keeps (·.rail) _ (fun _ _ => Hw.dmAsk_rail _ _) _ _
@[simp] theorem Hw.dmRead_prime (u : DmUse) (q : Option Nat) (t a b : Nat) : (h.dmRead u q t a b).prime = h.prime := by
  unfold Hw.dmRead; exact foldl_keeps (·.prime) _ (fun _ _ => Hw.dmAsk_prime _ _) _ _
@[simp] theorem Hw.dmRead_tap (u : DmUse) (q : Option Nat) (t a b : Nat) : (h.dmRead u q t a b).tap = h.tap := by
  unfold Hw.dmRead; exact foldl_keeps (·.tap) _ (fun _ _ => Hw.dmAsk_tap _ _) _ _
@[simp] theorem Hw.dmRead_free (u : DmUse) (q : Option Nat) (t a b : Nat) : (h.dmRead u q t a b).free = h.free := by
  unfold Hw.dmRead; exact foldl_keeps (·.free) _ (fun _ _ => Hw.dmAsk_free _ _) _ _

end Sys2Proof.Machine
end

