-- ==== Sys2Proof/Laws/Ops.lean ====
section
/-! SUPPORT. What each shared operation does, said once. -/

namespace Sys2Proof.Machine

/-- A raise appends one report of its source. -/
theorem Hw.raiseWith_inflight (h : Hw) (r : Raise) :
    (h.raiseWith r).fcu.inflight = h.fcu.inflight ++ [(h.clk.now, if h.firedBy r.source then { r with injected := true } else r)] := by
  unfold Hw.raiseWith; rw [foldl_setIrq_keeps (·.fcu) (fun h p k => Hw.setIrq_fcu h p k)]

theorem Hw.raise_inflight (h : Hw) (s d a b c : Nat) :
    (h.raise s d a b c).fcu.inflight =
      h.fcu.inflight ++ [(h.clk.now, ⟨s, BitVec.ofNat 32 d, BitVec.ofNat 32 a, BitVec.ofNat 32 b, BitVec.ofNat 32 c, h.firedBy s, []⟩)] := by
  unfold Hw.raise; rw [Hw.raiseWith_inflight]
  by_cases hf : h.firedBy s = true
  · simp [hf]
  · simp [Bool.eq_false_iff.mpr hf]

/-- A raise is one report of its source. -/
theorem Hw.raise_reported (h : Hw) (s d a b c : Nat) : Reported h (h.raise s d a b c) s :=
  ⟨_, h.raise_inflight s d a b c, rfl⟩

/-- A report counts from any state with the same reports and time. -/
theorem Reported.of_fcu {h h' u : Hw} {s : Nat} (r : Reported h' u s) (e : h'.fcu = h.fcu) (ec : h'.clk = h.clk) : Reported h u s := by
  obtain ⟨x, hx, hs⟩ := r; exact ⟨x, by rw [hx, e, ec], hs⟩

/-- What a table holds at an index that is not listed any more. -/
theorem Tbl.get_erase_self {β : Type} (t : Tbl β) (d : β) (k : Nat) : Tbl.get (t.filter fun p => p.1 != k) d k = d := by
  induction t with
  | nil => rfl
  | cons p rest ih => obtain ⟨i, w⟩ := p; by_cases h : i = k <;> simp [h, Tbl.get, ih]

/-- Every other index reads as before an index was taken off the list. -/
theorem Tbl.get_erase_ne {β : Type} (t : Tbl β) (d : β) (k j : Nat) (hj : j ≠ k) : Tbl.get (t.filter fun p => p.1 != k) d j = t.get d j := by
  induction t with
  | nil => rfl
  | cons p rest ih => obtain ⟨i, w⟩ := p; by_cases h : i = k <;> simp [h, Tbl.get, ih, Ne.symm hj]

/-- What a table holds at an index that has been listed. -/
theorem Tbl.get_insert_self {β : Type} (t : Tbl β) (d : β) (k : Nat) (v : β) : (t.insert k v).get d k = v := by
  induction t with
  | nil => simp [Tbl.insert, Tbl.get]
  | cons p rest ih =>
    obtain ⟨i, w⟩ := p
    unfold Tbl.insert
    split
    · simp [Tbl.get]
    · split <;> simp_all [Tbl.get]

/-- Every other index reads as before an index was listed. -/
theorem Tbl.get_insert_ne {β : Type} (t : Tbl β) (d : β) (k j : Nat) (v : β) (hj : j ≠ k) : (t.insert k v).get d j = t.get d j := by
  induction t with
  | nil => simp [Tbl.insert, Tbl.get, Ne.symm hj]
  | cons p rest ih =>
    obtain ⟨i, w⟩ := p
    unfold Tbl.insert
    split
    · simp [Tbl.get, Ne.symm hj]
    · split
      · rename_i e; subst e; simp [Tbl.get, Ne.symm hj]
      · simp [Tbl.get, ih]

/-- What any table holds where a value was put, be it the default. -/
theorem Tbl.get_put_self {β : Type} [DecidableEq β] (t : Tbl β) (d : β) (k : Nat) (v : β) : (t.put d k v).get d k = v := by
  unfold Tbl.put
  split
  · rename_i h; rw [h]; exact Tbl.get_erase_self t d k
  · exact Tbl.get_insert_self t d k v

/-- Every other index of a table reads as before a put. -/
theorem Tbl.get_put_ne {β : Type} [DecidableEq β] (t : Tbl β) (d : β) (k j : Nat) (v : β) (hj : j ≠ k) : (t.put d k v).get d j = t.get d j := by
  unfold Tbl.put
  split
  · exact Tbl.get_erase_ne t d k j hj
  · exact Tbl.get_insert_ne t d k j v hj

/-- A canonical table is canonical from any lower bound. -/
theorem Tbl.wfFrom_weaken {β : Type} [DecidableEq β] (d : Nat → β) (t : Tbl β) (n m : Nat) (hm : m ≤ n) (w : Tbl.wfFrom d n t = true) :
    Tbl.wfFrom d m t = true := by
  cases t with
  | nil => rfl
  | cons q rs =>
    obtain ⟨j, x⟩ := q
    simp only [Tbl.wfFrom, Bool.and_eq_true, decide_eq_true_eq] at w ⊢
    exact ⟨⟨by omega, w.1.2⟩, w.2⟩

/-- A put keeps the canonical form. -/
theorem Tbl.wfFrom_put {β : Type} [DecidableEq β] (t : Tbl β) (d : Nat → β) (k lo : Nat) (v : β) (hk : lo ≤ k)
    (w : Tbl.wfFrom d lo t = true) : Tbl.wfFrom d lo (t.put (d k) k v) = true := by
  unfold Tbl.put
  split
  · clear hk
    induction t generalizing lo with
    | nil => rfl
    | cons p rest ih =>
      obtain ⟨i, x⟩ := p
      simp only [Tbl.wfFrom, Bool.and_eq_true, decide_eq_true_eq] at w
      rw [List.filter_cons]
      split
      · simp only [Tbl.wfFrom, Bool.and_eq_true, decide_eq_true_eq]; exact ⟨w.1, ih (i + 1) w.2⟩
      · exact ih lo (Tbl.wfFrom_weaken d rest (i + 1) lo (by omega) w.2)
  · rename_i hv
    induction t generalizing lo with
    | nil => simp [Tbl.insert, Tbl.wfFrom, hk, hv]
    | cons p rest ih =>
      obtain ⟨i, x⟩ := p
      simp only [Tbl.wfFrom, Bool.and_eq_true, decide_eq_true_eq] at w
      unfold Tbl.insert
      split
      · simp only [Tbl.wfFrom, Bool.and_eq_true, decide_eq_true_eq]; exact ⟨⟨hk, hv⟩, ⟨⟨by omega, w.1.2⟩, w.2⟩⟩
      · split
        · rename_i e; subst e; simp only [Tbl.wfFrom, Bool.and_eq_true, decide_eq_true_eq]; exact ⟨⟨hk, hv⟩, w.2⟩
        · simp only [Tbl.wfFrom, Bool.and_eq_true, decide_eq_true_eq]; exact ⟨w.1, ih (i + 1) (by omega) w.2⟩

end Sys2Proof.Machine
end

