-- ==== Sys2Proof/Tests/Slice0.lean ====
section
/-! SUPPORT. Checks of this model's own on small states: each statement's hypotheses hold together somewhere, ill-formed commands are
refused, and commands do what the spec says of one case. Expected values come from the spec's rules. -/

set_option Elab.async false

namespace Sys2Proof.Machine

/-! States and records of the checks. -/

/-- After priming, with nothing configured. -/
def wUp : Hw := { Hw.reset with prime.ready := true, prime.phase := none }

/-- A state with this volatile part. -/
def wAt (h : Hw) : State := { State.reset with hw := h }

/-- A member of a domain with its fabric aperture enabled. -/
def wMember : Hw := (wUp.setReg Reg.CAP_MEMBER 0x80000001).setReg Reg.GATE_APERTURE 0x80000000

/-- A request, or one answered. -/
def wTxn : Txn :=
  { id := 7, src := .utp 7, tag := 0x3FF, kind := .load, cls := some .link, slice := 1, region := 0, gen := 0, addr := 0x40000, lines := 1, atype := 0,
    deadline := none, grantTime := 0, stage := .ready, data := [], epoch := 5, emin := 5, family := 0, keyed := false, again := none, fill := 0, verified := false, cover := 0,
    port := none, pgen := 0, reissues := 0, status := .ok, answer := [0], checks := [], checked := false, sentAt := 0, arg := 0, slot := none }

/-- A state in which one transaction is outstanding. -/
def wWith (h : Hw) (t : Txn) : State := wAt { h with txns := [t] }

/-- A header. -/
def wHdr : Header :=
  { op := 0, vc := 0, cls := 0, dflits := 0, resp := false, status := 0, dmode := 0, src := 2, dst := 1, addr := 0, rack := 0, lines := 0, arg := 0, txn := 7, pgen := 0 }

/-- A message with an inline area. -/
def wMsg (area : List (Nat × Nat)) : Message := ⟨wHdr, inlineOf area, []⟩

/-- A load of one line at pool address 0x40000. -/
def wReq : UtpReq := ⟨0, 0x40000, 0, 0, 0x3FF, 5, 0⟩

/-- A slice bound to PASID 5. -/
def wSlice (st : SliceSt) : Slice := { Slice.unbound with st := st, pasid := 5 }

/-! Requests and their answers. -/

theorem test_EveryRequestIsAnsweredOnce : (wAt wUp).hw.gateRuns = true := by decide +kernel

theorem test_RequestRefusals : (wAt wUp).hw.prime.ready = true ∧ (wAt wUp).hw.pow.rung = .u0 ∧ (wAt wUp).hw.breaksR52 7 { wReq with op := 15 } = true ∧
    (wAt wUp).hw.breaksR52 7 wReq = false ∧ (wAt wUp).hw.sliceOfPasid wReq.pasid.toNat = none ∧
    (wAt (wUp.setSlice 1023 (wSlice .dead))).hw.prime.ready = true ∧ (wAt (wUp.setSlice 1023 (wSlice .dead))).hw.breaksR52 0 wReq = false ∧
    (wAt (wUp.setSlice 1023 (wSlice .dead))).hw.sliceOfPasid wReq.pasid.toNat = some 1023 ∧
    ((wAt (wUp.setSlice 1023 (wSlice .dead))).hw.slice 1023).st ≠ .active := by decide +kernel

/-- A member with an active slice and a window that grants it reads. -/
def wGranting : State :=
  wAt { wMember.setSlice 1 (wSlice .active) with gate.windows := [⟨1, 0, 2 ^ 25, 3, 9, .link, .active, 1, [], none⟩] }

theorem test_RequestGranted : wGranting.hw.prime.ready = true ∧ wGranting.hw.pow.rung = .u0 ∧ wGranting.hw.breaksR52 0 wReq = false ∧
    opOfCode wReq.op.toNat = some .load ∧ wGranting.hw.sliceOfPasid wReq.pasid.toNat = some 1 ∧ (wGranting.hw.slice 1).st = .active ∧
    wGranting.hw.inFabric wReq.addr.toNat = true ∧ wGranting.hw.joined = true ∧ wGranting.hw.dom.leaving = [] ∧ wGranting.hw.crossRack wReq.addr.toNat = false ∧
    wGranting.hw.windowFor 1 (granuleOf wReq.addr.toNat) = some ⟨1, 0, 2 ^ 25, 3, 9, .link, .active, 1, [], none⟩ ∧ classAllows .link .load = true ∧
    (1 : BitVec 4) &&& permNeeded .load 0 = permNeeded .load 0 ∧ wGranting.hw.fencedFor (.utp 0) (some .link) = false ∧ wGranting.hw.spaceFor (.utp 0) = true := by
  simp only [show ∀ h : Hw, h.spaceFor (.utp 0) = (decide (h.poolUsed + h.agedAhead 0 < Config.poolPlaces + 1) && decide (h.sourcePlaces (.utp 0) < 64)) from fun _ => rfl]
  decide +kernel

theorem test_WriteDataBeats : (wAt wUp).hw.awaiting 7 = none ∧
    (∀ c ∈ [some RClass.link, some .sealed, none],
      (wWith wUp { wTxn with stage := .awaitData, kind := .store, cls := c }).hw.awaiting 7 = some { wTxn with stage := .awaitData, kind := .store, cls := c }) ∧
    (ReqKind.store.compute && (0 : BitVec 2) == 3) = false ∧
    (wWith wUp { wTxn with stage := .awaitData, kind := .filter, atype := 3 }).hw.awaiting 7 = some { wTxn with stage := .awaitData, kind := .filter, atype := 3 } ∧
    ReqKind.filter.compute = true := by decide +kernel

theorem test_PortStall : ∀ st ∈ [Stage.awaitData, .ready], { wTxn with stage := st } ∈ (wWith wUp { wTxn with stage := st }).hw.txns := by decide +kernel

theorem test_AnswersAndTags : (wWith wUp { wTxn with kind := .store }).hw.readyTxn 7 0x3FF false = some { wTxn with kind := .store } ∧
    (wWith wUp { wTxn with kind := .filter }).hw.readyTxn 7 0x3FF true = some { wTxn with kind := .filter } ∧
    (wWith wUp { wTxn with checked := true, checks := [.pass] }).hw.readyTxn 7 0x3FF true = some { wTxn with checked := true, checks := [.pass] } ∧
    (∀ x ∈ (wWith wUp { wTxn with checked := true, checks := [.pass] }).hw.windows 7, x.failed = false) ∧
    ({ wUp with txns := [{ wTxn with checks := [.stale] }, { wTxn with tag := 0, stage := .window, checks := [.pass] }] } : Hw).readyTxn 7 0x3FF true = some { wTxn with checks := [.stale] } ∧
    ({ wTxn with checks := [.stale] }.failed && (({ wUp with txns := [{ wTxn with checks := [.stale] }, { wTxn with tag := 0, stage := .window, checks := [.pass] }] } : Hw).windows 7).any fun x => !x.checked) = true ∧
    { wTxn with stage := .window, checked := true } ∈ (wWith wUp { wTxn with stage := .window, checked := true }).hw.txns ∧ { wTxn with stage := .window, checked := true }.failed = false ∧
    (∀ x ∈ (wWith wUp { wTxn with stage := .window, checked := true }).hw.txns, x.src = .utp 7 → x.tag = 0x3FF → x = { wTxn with stage := .window, checked := true }) := by decide +kernel

theorem test_ReservedComputeType : (wWith wUp { wTxn with stage := .awaitData, kind := .gather, atype := 3 }).hw.awaiting 7 = some { wTxn with stage := .awaitData, kind := .gather, atype := 3 } ∧
    (wWith wUp { wTxn with kind := .gather, answer := List.replicate 4 0 }).hw.readyTxn 7 0x3FF true = some { wTxn with kind := .gather, answer := List.replicate 4 0 } ∧
    ReqKind.gather.compute = true := by decide +kernel

/-! Windows. -/

/-- A region of the last granule that slice 1023 may read and write. -/
def wRegion : Region :=
  { cls := .link, state := .active, lqFull := false, lanes2 := false, probeOk := false, gen := 9, base := 2 ^ 25 - 1, size := 1, fill := 0, family := 0, shares := [(7, 1023, 3)] }

/-- A resolution of the last granule for slice 1023. -/
def wRes (stage : WalkStage) (retried : Bool) (found : Option (Option (Nat × Region))) : Resolution := ⟨1023, 2 ^ 25 - 1, stage, retried, found, 0, false, 0, none, none, []⟩

/-- A state in which one resolution is in flight. -/
def wResolving (r : Resolution) (rtc : List (Nat × Region)) : State := wAt { wUp with gate.resolutions := [r], gate.rtc := rtc }

/-- The resolution that a state holds for slice 1023 and the last granule. -/
def wFoundRes (s : State) : Option Resolution := s.hw.gate.resolutions.find? fun x => x.slice == (1023 : Fin 1024).val && x.granule == 2 ^ 25 - 1

theorem test_WindowResolutionEnds : wFoundRes (wResolving (wRes .dir false (some none)) []) = some (wRes .dir false (some none)) ∧
    (wRes .dir false (some none)).era = (wResolving (wRes .dir false (some none)) []).hw.gate.era ∧
    (wResolving (wRes .dir false (some none)) []).hw.agedFirst (wRes .dir false (some none)) = false ∧
    (∀ e ∈ [wRegion, { wRegion with shares := [] }],
      let r := wRes .cached false (some (some (65535, e)))
      let s := wResolving r [(65535, e)]
      wFoundRes s = some r ∧ r.era = s.hw.gate.era ∧ s.hw.agedFirst r = false ∧ (s.hw.gate.rtc.find? fun p => p.1 == 65535) = some (65535, e) ∧
      e.base ≤ 2 ^ 25 - 1 ∧ 2 ^ 25 - 1 < e.base + e.size ∧ e.state = .active ∧ s.hw.gate.windows.length < 256 ∧ r.pins = []) ∧
    (wRegion.shares.find? fun x => x.2.1 == 1023) = some (7, 1023, 3) ∧ (({ wRegion with shares := [] } : Region).shares.find? fun x => x.2.1 == 1023) = none := by decide +kernel

/-- The Region Table entry of an active LINK region of granule 0 with its CRC. -/
def wEntry : Line :=
  let low := 1 + 2 * 2 + 2 ^ 64
  BitVec.ofNat 512 (low + crc32c low 480 * 2 ^ 480)

/-- The read that a resolution waits for. -/
def wWalkRead : DmTxn := { id := 0, port := 0, write := false, addr := 0, use := .walk 1023 (2 ^ 25 - 1), page := some 0, fault := false, stale := false }

/-- A state in which that read is open, with the directory's word for the last granule. -/
def wWalking (stage : WalkStage) (retried : Bool) (dir map : Word) : State :=
  let s := wResolving (wRes stage retried none) []
  wAt { s.hw with dmp.open_ := [wWalkRead], regions.dir := if dir = 0 then [] else [((2 ^ 25 - 1) / 512, dir)], regions.maps := if map = 0 then [] else [(511, map)] }

theorem test_WalkReads :
    (∀ x ∈ [(WalkStage.dir, false), (.table 65535, false), (.map 0, true)],
      wFoundRes (wWalking x.1 x.2 0 0) = some (wRes x.1 x.2 none) ∧ (wWalking x.1 x.2 0 0).hw.dmOpen (.walk 1023 (2 ^ 25 - 1)) = some wWalkRead ∧ x.1 ≠ .cached ∧
      (wRes x.1 x.2 none).era = (wWalking x.1 x.2 0 0).hw.gate.era) ∧
    (wWalking .dir false 0 0).hw.dirStep ((wWalking .dir false 0 0).hw.regions.dir.get 0 ((2 ^ 25 - 1) / 512)) = some none ∧
    (wWalking .dir false 0x40000000 0).hw.dirStep ((wWalking .dir false 0x40000000 0).hw.regions.dir.get 0 ((2 ^ 25 - 1) / 512)) ≠ some none ∧
    mapStep ((wWalking (.map 0) false 0 0).hw.regions.maps.get 0 (512 * 0 + (2 ^ 25 - 1) % 512)) = some none ∧ (wWalking (.table 65535) false 0 0).hw.inject.remaining = 0 ∧ wWalkRead.fault = false := by
  decide +kernel

theorem test_RegionEntryDecodes : regionDecode wEntry (regionCrcOk wEntry) =
    some { cls := .link, state := .active, lqFull := false, lanes2 := false, probeOk := false, gen := 0, base := 0, size := 1, fill := 0, family := 0, shares := [] } := by
  decide +kernel

theorem test_WindowInvalidate : wUp.prime.ready = true ∧ bit (1 : Word) 0 = true ∧ bit (0x03FF0002 : Word) 1 = true := by decide +kernel

/-! SEAL traffic and granule keys. -/

/-- A SEAL store that has been passed to port 15. -/
def wStore : Txn := { wTxn with kind := .store, cls := some .sealed, stage := .passed, port := some 15, family := 1, data := [⟨1, 0⟩] }

/-- The slot of the family key of family 1. -/
def wFam1 : Slot := { Slot.free with st := 1, kind := 1, usage := 0x41, family := 1 }

theorem test_SealStoreLeaves : (wWith wUp wStore).hw.enginesRun = true ∧ (wWith wUp wStore).hw.txn (7 : BitVec 32).toNat = some wStore ∧
    (wWith { wUp with cis.sets := [⟨1, 5, 511⟩] } wStore).hw.keySetFor 1 5 7 = true ∧ (wWith wUp wStore).hw.keySetFor 1 5 7 = false ∧ (wWith wUp wStore).hw.mayDerive 1 5 = false ∧
    (wWith { wUp with cis.slots := [(2176, wFam1)] } wStore).hw.mayDerive 1 5 = true ∧ (wWith { wUp with cis.slots := [(2176, wFam1)] } wStore).hw.keySetFor 1 5 7 = false := by decide +kernel

theorem test_MacCheckEnds : ∀ t ∈ [{ wTxn with cls := some .sealed, stage := .held, checks := [.pass] }, { wTxn with cls := some .sealed, stage := .held, checks := [.pass, .macFail] },
      { wTxn with cls := some .sealed, stage := .window, checks := [.stale] }],
    (wWith wUp t).hw.txn (7 : BitVec 32).toNat = some t ∧ t.src = .utp 7 ∧ t.checked = false ∧ t.checks ≠ [] ∧ t.failed = t.checks.any (fun c => c != .pass) ∧
    (t.stage = .window → (wWith wUp t).hw.windows 7 = [t]) := by decide +kernel

theorem test_SealLoadAnswered :
    let t : Txn := { wTxn with cls := some .sealed, stage := .inFlight, family := 1, keyed := true }
    let s := wWith { wUp with cis.sets := [⟨1, 5, 511⟩] } t
    let live := fun (m : Message) => (List.range (t.expected m.lines)).all fun k => match m.lines[k]? with | some l => (s.hw.lineEpoch t (t.lineAddr k) l.etag).isSome | none => true
    s.hw.matchTxn ((wMsg []).hdr.txn).toNat = some t ∧ s.hw.inject.remaining = 0 ∧ live { wMsg [] with lines := [⟨0, 0x10000000⟩] } = true ∧ s.hw.keyMissing t = [] ∧
    live { wMsg [] with lines := [⟨0, 0x20000000⟩] } = false ∧ (wAt wUp).hw.matchTxn ((wMsg []).hdr.txn).toNat = none := by decide +kernel

theorem test_QuarantineReleased : bit (0x800003FF : Word) 31 = true ∧
    ((wAt (wUp.setSlice 1023 { wSlice .active with quar := true })).hw.slice (fld (0x800003FF : Word) 0 10)).quar = true ∧ (wUp.setSlice 1023 { wSlice .active with quar := true }).prime.ready = true := by decide +kernel

/-- A granule's entry under this member. -/
def wKey : GktEntry := ⟨1, 5, false, 0, 1⟩

/-- A SEAL load of granule 0 that waits for its key. -/
def wKeyWait : Txn := { wTxn with cls := some .sealed, stage := .keyWait }

/-- A read of the partition that is open. -/
def wPartRead : DmTxn := { wWalkRead with use := .partition 9 }

theorem test_KeyTableFills : (wWith wUp wKeyWait).hw.txn (7 : BitVec 32).toNat = some wKeyWait ∧ wKeyWait.keyed = false ∧
    (wWith { wUp with gkt.cache := [(granuleOf 0x40000, wKey)] } wKeyWait).hw.cached (granuleOf wKeyWait.addr.toNat) = some wKey ∧
    (wWith wUp wKeyWait).hw.cached (granuleOf wKeyWait.addr.toNat) = none ∧
    (let s := wAt { wUp with gkt.fills := [⟨9, 1, none, false, false⟩], gkt.part := [(9, wKey.word)], dmp.open_ := [wPartRead] }
     (s.hw.gkt.fills.find? fun f => f.granule == 9 && f.txn == none) = some ⟨9, 1, none, false, false⟩ ∧ s.hw.dmOpen (.partition 9) = some wPartRead ∧ wPartRead.fault = false ∧
     s.hw.inject.remaining = 0 ∧ gktUsable (s.hw.partWord 9) = true) ∧
    (∀ o ∈ [true, false], ((wAt { wUp with gkt.fills := [⟨9, 2, some 7, o, false⟩] }).hw.gkt.fills.find? fun f => f.txn == some (wMsg [(8, wKey.word.toNat)]).hdr.txn.toNat) = some ⟨9, 2, some 7, o, false⟩) ∧
    gktCrcOk (BitVec.ofNat 64 (inlineField (wMsg [(8, wKey.word.toNat)]).inlineArea 8 64)) = true ∧ (wMsg []).hdr.status ≠ 2 := by decide +kernel

theorem test_MemberAppliesNotices : wMember.joined = true ∧ wMember.gkt.pinned = [] ∧ (wMember.gkt.acks.any fun a => a.home == (wMsg []).hdr.src.toNat && a.seq == 0) = false ∧
    inlineField (wMsg [(0, 1)]).inlineArea 0 8 = 1 ∧
    (let s := wAt { wMember with gkt.acks := [⟨2, 65535, 7, [], []⟩] }
     (s.hw.gkt.acks.find? fun a => a.home == (2 : BitVec 16).toNat && a.seq == (65535 : BitVec 16).toNat) = some ⟨2, 65535, 7, [], []⟩ ∧
     s.hw.ackDue ⟨2, 65535, 7, [], []⟩ = true ∧ (2 : BitVec 16).toNat ≠ wMember.memberId) ∧
    (wWith wMember { wStore with stage := .inFlight }).hw.ackDue ⟨2, 65535, 7, [7], []⟩ = false := by decide +kernel

theorem test_KeySetDerived : wUp.hasKeySet 65535 0 = false ∧ wUp.freeSetPos ≠ none ∧
    ({ wUp with cis.slots := [(2176, { Slot.free with st := 1, kind := 1, usage := 0x41, family := 65535 })] } : Hw).mayDerive 65535 0 = true := by decide +kernel

/-- An open round of granule 9. -/
def wRound (seq : Nat) (missing : List Nat) (sends : Nat) : Round := ⟨seq, 7, 0, 9, 1, [9], missing, sends, none, 0⟩

theorem test_HomeServes : gktUsable ((wAt { wUp with gkt.part := [(9, wKey.word)] }).hw.partWord (inlineField (wMsg [(0, 9)]).inlineArea 0 25)) = true ∧
    (wUp.bttCheck none (wUp.partAddr 9) false [(0, 0x10001), (0x10000, 1)]).2 = none ∧
    (∀ ms ∈ [[2], [2, 3]], ((wAt { wUp with gkt.rounds := [wRound 0 ms 3] }).hw.gkt.rounds.find? fun r => r.seq == inlineField (wMsg []).inlineArea 0 16) = some (wRound 0 ms 3)) ∧
    ([2, 3].filter (· ≠ (wMsg []).hdr.src.toNat) ≠ []) ∧ ([2].filter (· ≠ (wMsg []).hdr.src.toNat) = []) ∧
    (∀ n ∈ [3, 4], ((wAt { wUp with gkt.rounds := [wRound 65535 [2] n] }).hw.gkt.rounds.find? fun r => r.seq == (65535 : BitVec 16).toNat) = some (wRound 65535 [2] n)) ∧
    ({ wUp with gkt.closes := [(9, 5, false)] } : Hw).gkt.closes ≠ [] := by decide +kernel

/-! The Rekey Pump. -/

/-- A granule that the Pump sweeps from the epoch before 5. -/
def wWet : Wet := { granule := 9, epoch := 5, family := 1, nextRead := 32764, cursor := 0, reads := [], writes := [], finished := [], authFail := false, stopping := false, stuck := false }

/-- A state of the Pump on a member that holds the keys of family 1. -/
def wPump (w : Wet) (ts : List Txn) : State :=
  wAt { wMember with
    pump := { wMember.pump with wet := some w, budget := 256 }
    txns := ts
    gkt.part := [(9, { wKey with pstate := 3, dual := true }.word)]
    cis.slots := [(2176, { Slot.free with st := 1, kind := 1, usage := 0x41, family := 1 })]
    cis.sets := [⟨1, 5, 0⟩, ⟨1, 4, 511⟩] }

theorem test_PumpLineByEtag : (wPump wWet []).hw.pump.wet = some wWet ∧ (wPump wWet []).hw.inject.remaining = 0 ∧ SealedLine.etag ⟨0, 0x10000000⟩ = wWet.epoch % 4 ∧
    SealedLine.etag ⟨0, 0⟩ ≠ wWet.epoch % 4 ∧ SealedLine.etag ⟨0, 0⟩ = (wWet.epoch - 1) % 4 ∧ SealedLine.etag ⟨0, 0x20000000⟩ ≠ wWet.epoch % 4 ∧
    SealedLine.etag ⟨0, 0x20000000⟩ ≠ (wWet.epoch - 1) % 4 := by decide +kernel

theorem test_PumpSweeps : (wPump wWet []).hw.joined = true ∧ (wPump wWet []).hw.pumpRuns = true ∧ wWet.stopping = false ∧ wWet.nextRead < 32768 ∧
    (wPump wWet []).hw.mayDerive wWet.family wWet.epoch = true ∧ (wPump wWet []).hw.hasKeySet wWet.family wWet.epoch = true ∧
    (wPump wWet []).hw.hasKeySet wWet.family (wWet.epoch - 1) = true ∧ 256 ≤ (wPump wWet []).hw.pump.budget ∧
    ({ (wPump wWet []).hw with pump.budget := 255 } : Hw).pump.budget < 256 ∧ ({ (wPump wWet []).hw with pump.budget := 255 } : Hw).pumpRuns = true ∧
    (wPump { wWet with reads := [(7, 32764)] } [wTxn]).hw.txn (wMsg []).hdr.txn.toNat = some wTxn ∧
    (({ wWet with reads := [(7, 32764)] } : Wet).reads.find? fun r => r.1 == wTxn.id) = some (wTxn.id, 32764) ∧
    SealedLine.etag ⟨0, 0x10000000⟩ = wWet.epoch % 4 ∧ (wMsg []).hdr.status ≠ 2 := by decide +kernel

theorem test_PumpFinishesGranule : (wPump { wWet with writes := [(7, 0)] } [wTxn]).hw.txn (wMsg []).hdr.txn.toNat = some wTxn ∧
    (({ wWet with writes := [(7, 0)] } : Wet).writes.find? fun r => r.1 == wTxn.id) = some (wTxn.id, 0) ∧ wWet.stopping = false ∧ 32768 ≤ ({ wWet with cursor := 32768 } : Wet).cursor ∧
    (wPump { wWet with cursor := 32768 } []).hw.pump.ranges = [] ∧ (wPump { wWet with cursor := 32768 } []).hw.pump.wet = some { wWet with cursor := 32768 } := by decide +kernel

theorem test_PumpStopsAndPaces : (wPump { wWet with stuck := true, stopping := true } []).hw.pump.wet = some { wWet with stuck := true, stopping := true } ∧
    (wPump { wWet with stuck := true, stopping := true } []).hw.pump.ranges = [] ∧ (wPump { wWet with stuck := true, stopping := true } []).hw.pump.aborting = [] ∧
    ({ wWet with stuck := true, stopping := true } : Wet).reads = [] ∧ ({ wWet with stuck := true, stopping := true } : Wet).writes = [] ∧ wWet.stuck = false := by decide +kernel

/-! The Regulator, the egress scheduler and the Link Ports. -/

/-- A Link Port in a session. -/
def wPort : LinkPort := { LinkPort.idle with used := true, linkUp := true, sess := .up }

/-- Work that waits. -/
def wWork (work : Work) (master : Nat) : WorkItem :=
  { seq := 3, master := master, slice := 1, work := work, bytes := 64, port := some 0, vc := 3, flits := 1, aged := false, promoted := false, deadline := none, waitedFor := 0,
    party := (0, master), ahead := [] }

/-- A control message. -/
def wControl : Message := ⟨{ wHdr with op := 0x24, vc := 3, cls := 3 }, 0, []⟩

/-- A member with a session on port 0, through which the pool is reached, and one piece of work that waits. -/
def wRegulated (i : WorkItem) (ts : List Txn) : State :=
  wAt { (wMember.setReg Reg.LINK_POOL_PORTS 1).setReg Reg.CAP_PORTS 0xFFFF with ports := [(0, wPort)], txns := ts, rgl.items := [i] }

theorem test_ServiceOrder : (wRegulated (wWork (.message wControl) 12) []).hw.nextWork = some (wWork (.message wControl) 12, 2) := by decide +kernel

theorem test_RegulatorPasses : ({ wUp with pow.rung := .u3 } : Hw).enginesRun = false ∧ (wRegulated (wWork (.message wControl) 12) []).hw.enginesRun = true ∧
    (wRegulated (wWork (.message wControl) 12) []).hw.itemPort (wWork (.message wControl) 12) = some 0 ∧
    ((wRegulated (wWork (.message wControl) 12) []).hw.masterClass 12 == 0 && (wRegulated (wWork (.message wControl) 12) []).hw.atCap 12) = false ∧
    wControl.hdr.op ≠ 0x20 ∧ wControl.hdr.op ≠ 0x28 ∧ wControl.hdr.cls ≠ 4 ∧
    (∀ t ∈ [{ wTxn with stage := .queued }, { wTxn with stage := .queued, kind := .store, cls := some .sealed, data := [⟨0, 0⟩] }],
      ((wRegulated (wWork (.txn 7) 7) [t]).hw.nextWork.map (·.1)) = some (wWork (.txn 7) 7) ∧ (wRegulated (wWork (.txn 7) 7) [t]).hw.itemPort (wWork (.txn 7) 7) = some 0 ∧
      (wRegulated (wWork (.txn 7) 7) [t]).hw.enginesRun = true ∧
      ((wRegulated (wWork (.txn 7) 7) [t]).hw.masterClass 7 == 0 && (wRegulated (wWork (.txn 7) 7) [t]).hw.atCap 7) = false ∧
      (wRegulated (wWork (.txn 7) 7) [t]).hw.txn 7 = some t ∧ t.kind ≠ .bulk ∧ (t.cls = some .link ∨ t.kind.writes = true) ∧ t.src ≠ .pump) := by decide +kernel

/-- Work of master 9 that waits; masters of a class may be capped. -/
def wAging (cls cap charged : Nat) : State :=
  wAt { ((wUp.setReg (Reg.REG_Mm_CFG 9) (BitVec.ofNat 32 cls)).setReg (Reg.REG_Mm_CAP 9) (BitVec.ofNat 32 cap)) with
    rgl.items := [wWork (.txn 7) 9], rgl.charged := if charged = 0 then [] else [(9, charged)] }

theorem test_WorkAges : ((wAging 1 0 0).hw.rgl.items.find? fun x => x.seq == 3) = some (wWork (.txn 7) 9) ∧ (wAging 1 0 0).hw.atCap 9 = false ∧
    (wAging 2 0 0).hw.atCap 9 = false ∧ (wAging 2 0 0).hw.masterClass 9 = 2 ∧ (wAging 2 1 256).hw.atCap 9 = true ∧ (wAging 2 1 256).hw.masterClass 9 ≠ 0 ∧
    ((wAging 1 0 0).hw.atCap 9 && (wAging 1 0 0).hw.masterClass 9 != 0) = false ∧ (wWork (.txn 7) 9).aged = false ∧ (wWork (.txn 7) 9).promoted = false := by decide +kernel

/-- A message at the head of a queue. -/
def wItem : EgressItem := ⟨none, { wControl with hdr := { wControl.hdr with vc := 0 } }, 1, false, true, none, 0, 12, []⟩

/-- A port in a session with a queue on VC 0. -/
def wSending (v : EgressVc) : State := wAt { wUp with ports := [(15, { wPort with vcs := [(0, v)] })] }

theorem test_EgressVisits : (wAt wUp).hw.enginesRun = true ∧ ((wAt wUp).hw.port 15).linkUp = false ∧ (wSending ⟨[wItem], 1, 1, false⟩).hw.portFenced 15 = false ∧
    (((wSending ⟨[], 1, 1, false⟩).hw.port 15).vc 0).queue = [] ∧ wItem.ready = true ∧ wItem.started = false ∧ wItem.deadline = none ∧ wItem.msg.hdr.op ≠ 0x31 ∧ wItem.msg.hdr.op ≠ 0x32 ∧ ((wSending ⟨[wItem], 1, 1, false⟩).hw.port 15).linkUp = true ∧ (wSending ⟨[wItem], 1, 1, false⟩).hw.dom.leaving = [] ∧
    (((wSending ⟨[wItem], 1, 1, false⟩).hw.port 15).vc 0).queue = [wItem] ∧ ((wSending ⟨[wItem], 1, 1, false⟩).hw.port 15).nextVc.toNat = 0 ∧ (0xE : BitVec 4).getLsbD 0 = false ∧
    (1 : BitVec 4).getLsbD 0 = true ∧ wItem.left = wItem.msg.flits ∧ wItem.msg.hdr.vc = ((wSending ⟨[wItem], 1, 1, false⟩).hw.port 15).nextVc ∧ wItem.msg.flits ≤ 1 ∧
    (wSending ⟨[wItem], 1, 1, false⟩).hw.portReady 15 wItem.msg = true := by decide +kernel

theorem test_CreditsAndGates : (((wSending ⟨[], 0, 254, false⟩).hw.port 15).vc 0).credits < 255 ∧ 255 ≤ (((wSending ⟨[], 0, 255, false⟩).hw.port 15).vc 0).credits ∧
    (wAt ((wSending ⟨[wItem], 0, 0, false⟩).hw.setReg Reg.EGRESS_GATE_MAX 1)).hw.regF Reg.EGRESS_GATE_MAX 0 16 ≠ 0 ∧
    (((wAt ((wSending ⟨[wItem], 0, 0, false⟩).hw.setReg Reg.EGRESS_GATE_MAX 1)).hw.port 15).vc 0).queue ≠ [] ∧
    (((wAt ((wSending ⟨[wItem], 0, 0, false⟩).hw.setReg Reg.EGRESS_GATE_MAX 1)).hw.port 15).vc 0).stuck = false ∧ (((wSending ⟨[wItem], 0, 0, true⟩).hw.port 15).vc 0).stuck = true := by decide +kernel

/-- A request's header on VC 1 with no data flits, and its message on the wire. -/
def wWire : WireMessage := ⟨({ wHdr with op := 0x01, vc := 1, cls := 2, lines := 1 } : Header).bits, 0, 0, 0, []⟩

/-- A port that has granted credits on VC 1. -/
def wReceiving (sess : Sess) (granted : Nat) : State := wAt { wUp with ports := [(15, { wPort with sess := sess, granted := if granted = 0 then [] else [(1, granted)] })] }

/-- The tag of a flit is checked with an opaque cipher (log entry 5), so the check ends one way or the other; its other premises hold here. -/
theorem test_IngressFlits : ((wAt wUp).hw.port 15).linkUp = false ∧ ((wReceiving .up 0).hw.port 15).linkUp = true ∧
    ((wReceiving .up 0).hw.port 15).granted.get 0 (Header.ofBits wWire.header).vc.toNat = 0 ∧
    1 + (Header.ofBits wWire.header).dflits.toNat ≤ ((wReceiving .none 1).hw.port 15).granted.get 0 (Header.ofBits wWire.header).vc.toNat ∧
    ({ (wReceiving .none 1).hw with pow.rung := .u3 } : Hw).ingressHeld 15 = true ∧
    (wReceiving .none 1).hw.ingressHeld 15 = false ∧ ((wReceiving .none 1).hw.deterministic && (Header.ofBits wWire.header).vc.toNat == 3) = false ∧
    ((wReceiving .none 1).hw.port 15).waiting = [] ∧ (Header.ofBits wWire.header).isSess = false ∧ (wReceiving .up 1).hw.inject.remaining = 0 ∧
    (Header.ofBits wWire.header).badOp = false ∧ (Header.ofBits wWire.header).badStatus = false ∧ (Header.ofBits wWire.header).resp = false ∧ headerClean wWire.header = true ∧
    (wReceiving .up 1).hw.deadSlot (Header.ofBits wWire.header) = false := by decide +kernel

theorem test_LinkEvents : ((wAt { wUp with ports := [(15, { wPort with held := [(3, 32)] })] }).hw.port 15).held.get 0 3 ≠ 0 ∧
    (wAt { wUp with ports := [(15, { wPort with held := [(3, 32)] })] }).hw.portFenced 15 = false ∧ ((wAt wUp).hw.port 15).linkUp = false ∧
    ((wReceiving .up 0).hw.port 15).linkUp = true ∧ ((wReceiving .up 0).hw.port 15).used = true ∧ (wReceiving .up 0).hw.dom.leaving = [] ∧
    ((wReceiving .up 0).hw.port 15).pgen ≠ 255 ∧ (∀ q, q < 17 → ((wReceiving .up 0).hw.port q).waiting = []) := by decide +kernel

theorem test_LostRequests : ∀ t ∈ [{ wTxn with stage := .rerouted, reissues := 2 }, { wTxn with stage := .rerouted, kind := .cas }, { wTxn with stage := .rerouted, reissues := 3 }, { wTxn with stage := .inFlight },
      { wTxn with stage := .egress }],
    (wWith wUp t).hw.txn (7 : BitVec 32).toNat = some t ∧ t.src = .utp 7 ∧ (t.stage = .rerouted → t.kind.atomic = true ∨ t.kind.atomic = false) ∧ (t.stage = .egress → (wWith wUp t).hw.firstFlitLeft t = false) := by decide +kernel

theorem test_ResponsesComplete : (wAt wUp).hw.matchTxn (wMsg []).hdr.txn.toNat = none ∧
    (∀ t ∈ [{ wTxn with stage := .inFlight }, { wTxn with stage := .inFlight, kind := .cas }], (wWith wUp t).hw.matchTxn (wMsg []).hdr.txn.toNat = some t ∧ t.cls = some .link ∧ t.src = .utp 7) ∧
    ReqKind.cas.atomic = true ∧ (wMsg []).hdr.status ≠ 2 ∧ ({ wHdr with status := 2 } : Header).status = 2 := by decide +kernel

/-- A member whose port 15 is in a handshake. -/
def wShaking (eph : Option Nat) (fin : Bool) : State :=
  wAt { (wMember.setReg Reg.CISTERN_DRBG_STAT 1).setReg 0x15010 1 with ports := [(15, { wPort with sess := .setup, eph := eph, finSent := fin })] }

theorem test_Handshake : (wShaking none false).hw.handshaking 15 = true ∧ ((wShaking none false).hw.port 15).eph = none ∧ (wShaking none false).hw.drbgReady = true ∧
    (wShaking none false).hw.freeTransient = some 96 ∧ (wShaking (some 96) false).hw.handshaking 15 = true ∧ ((wShaking (some 96) false).hw.port 15).finSent = false ∧
    ((wShaking (some 96) false).hw.port 15).eph = some 96 ∧ (wShaking (some 96) true).hw.handshaking 15 = true ∧ ((wShaking (some 96) true).hw.port 15).finSent = true := by decide +kernel

/-- Certificates and signatures are checked with opaque functions: given a chain that the policy's root vouches for, the rest of the premises of SESS_RESP hold. -/
theorem test_HandshakeResponse (chain key ident : List Byte) (hc : Config.chainSubject 0 chain = some (key, ident)) :
    (wShaking (some 96) false).hw.handshaking 15 = true ∧ ((wShaking (some 96) false).hw.port 15).eph = some 96 ∧
    Config.chainSubject (match (wShaking (some 96) false).hw.dom.policy with | some q => q.fabricRoot | none => 0) chain = some (key, ident) :=
  ⟨by decide +kernel, by decide +kernel, hc⟩

theorem test_SessionEvents : ((wReceiving .up 0).hw.port 15).sess = .up ∧ (wReceiving .up 0).hw.updateDue ((wReceiving .up 0).hw.port 15) = false ∧
    (let s := wAt { wUp with ports := [(15, { wPort with txSeq := [(0, 2 ^ 32)] })] }
     s.hw.updateDue (s.hw.port 15) = true ∧ (∀ v, v < 4 → (s.hw.port 15).txGen.get 0 v = (s.hw.port 15).curGen.1 ∧ ((s.hw.port 15).vc v).queue = []) ∧ (∀ i ∈ s.hw.rgl.items, i.port ≠ some 15)) ∧
    ((wReceiving .up 0).hw.port 15).lastKu.get 0 (wMsg [(0, 1)]).hdr.vc.toNat = 0 ∧
    BitVec.ofNat 16 (inlineField (wMsg [(0, 1)]).inlineArea 0 16) = ((wReceiving .up 0).hw.port 15).rxGen.get 0 0 + 1 ∧ ((wReceiving .up 0).hw.port 15).rxGen.get 0 0 + 1 ≠ 0 ∧
    ((wAt { wUp with ports := [(15, { wPort with lastKu := [(0, 1)] })] }).hw.port 15).lastKu.get 0 0 ≠ 0 ∧ (wAt wUp).hw.clk.now < (1 : Nat) - 1 + 1000000 ∧ bit (1 : Word) 0 = true ∧
    (wReceiving .up 0).hw.dom.leaving = [] ∧ ((wReceiving .up 0).hw.port 15).used = true := by decide +kernel

/-- A state with fence 4095 as given. -/
def wFence (st : FenceSt) (last : Option (Nat × Nat)) : State := wAt (wUp.setFence 4095 { Fence.unused with st := st, cfg := 0x400000, lastRemote := last })

theorem test_RemoteFences : 4096 ≤ inlineField (wMsg [(0, 4096)]).inlineArea 0 16 ∧ inlineField (wMsg [(0, 4095)]).inlineArea 0 16 = 4095 ∧
    ((wFence .unsignalled none).hw.fence 4095).allocated = true ∧ bit ((wFence .unsignalled none).hw.fence 4095).cfg 22 = true ∧
    ((wFence .unsignalled (some (2, 7))).hw.fence 4095).lastRemote = some ((wMsg []).hdr.src.toNat, (wMsg []).hdr.txn.toNat) ∧
    ((wFence .unsignalled none).hw.fence 4095).lastRemote ≠ some ((wMsg []).hdr.src.toNat, (wMsg []).hdr.txn.toNat) := by decide +kernel

/-- A gateway member whose slice 1 may store and load in a LINK region. -/
def wGateway : State :=
  wAt { (wMember.setReg Reg.LINK_GW_SLICE 0x80000001).setSlice 1 (wSlice .active) with gate.windows := [⟨1, 0, 2 ^ 25, 3, 9, .link, .active, 3, [], none⟩] }

/-- A BULK_PUT without a flit passes; the tags of others are checked with an opaque cipher. -/
theorem test_GatewayServes : (wAt wUp).hw.gwServes = false ∧ wGateway.hw.gwServes = true ∧ (wGateway.hw.bulkOpen (wGateway.hw.serving 15) (wMsg [])).2 = 0 ∧
    (∀ put, ((wGateway.hw.gateJudge (wGateway.hw.gwReq (wMsg []) put) 0).2).1 = .none ∧
      (((wGateway.hw.gateJudge (wGateway.hw.gwReq (wMsg []) put) 0).2).2.map fun w => (w.cls, w.region)) = some (.link, 3)) := by
  decide +kernel

/-! The command front end. -/

/-- An operation of a buffer: opcode, operand fields as (byte offset, value), where it stands. -/
def wOp (opcode : Nat) (fields : List (Nat × Nat)) (st : OpSt) : QOp :=
  { QOp.fresh (BitVec.ofNat 256 (opcode + (fields.foldl (fun acc p => acc + p.2 * 2 ^ (8 * p.1)) 0))) with st := st }

/-- A running buffer. -/
def wBuf (entry : Nat) (ops : List QOp) : Buf :=
  { entry := BitVec.ofNat 512 entry, count := 0xFFFFFFFF, bind := [], wins := [], ops := ops, fault := none, pre := false, stage := 0, first := none, stopped := false, guilty := false }

/-- A block whose queue 63 is in a state, with what it runs. -/
def wQueue (st : QState) (run : Option Buf) : Hw := { wUp with cfe.queues := [(63, { Queue.off with st := st, run := run })] }

/-- Queue 63 active with one operation. -/
def wOne (o : QOp) : State := wAt (wQueue .active (some (wBuf 0 [o])))

/-- An access of device memory that is open. -/
def wDmp (use : DmUse) : DmTxn := { id := 255, port := 0, use := use, write := false, addr := 0, page := some 0, fault := false, stale := false }

theorem test_OperationsComplete : (wOne (wOp 0 [] .issued)).hw.op 63 0 = some (wOp 0 [] .issued) ∧ (wOp 0 [] .issued).ended = false ∧ (wOp 0x0E [] .issued).opcode = 0x0E ∧
    ((wOne (wOp 0 [] .issued)).hw.queue 63).st = .active ∧ ((wAt (wQueue .active (some (wBuf (2 ^ 82) [wOp 0 [] .issued])))).hw.queue 63).run = some (wBuf (2 ^ 82) [wOp 0 [] .issued]) ∧
    (wBuf (2 ^ 82) []).stopOnError = true ∧ (wOp 1 [] .issued).writer = true ∧ CC.aborted.rank < CC.ok.rank ∧ (wOp 0 [] .issued).writer = false ∧
    ({ (wOne (wOp 1 [] .issued)).hw with dmp.open_ := [{ wDmp (.op 63 0) with write := true }] } : Hw).opWriting 63 0 = true ∧ (wOp 1 [] .issued).mark = 0 := by decide +kernel

theorem test_Issue : (wAt wUp).hw.readyOp 63 = none ∧ (wAt wUp).hw.nextQueue ≠ some 63 ∧ (wOne (wOp 0 [] .waiting)).hw.nextQueue = some 63 ∧
    (wOne (wOp 0 [] .waiting)).hw.readyOp 63 = some 0 ∧ (wOp 0 [] .waiting).legal 0 = true ∧
    (wOne (wOp 0 [] .waiting)).hw.op 63 0 = some (wOp 0 [] .waiting) ∧ (wOne (wOp 0x0F [] .waiting)).hw.nextQueue = some 63 ∧
    (wOne (wOp 0x0F [] .waiting)).hw.readyOp 63 = some 0 ∧ (wOp 0x0F [] .waiting).legal 0 = false := by decide +kernel

/-- An event that slice 0 owns. -/
def wEvent (h : Hw) : State := wAt (h.setEvent 1023 { Event.unused with alloc := true })

theorem test_PlainOperations : (wOne (wOp 0 [] .issued)).hw.issuedOp 63 0 0 = some (wOp 0 [] .issued) ∧
    (wOne (wOp 0x0A [(4, 1023)] .issued)).hw.issuedOp 63 0 0x0A = some (wOp 0x0A [(4, 1023)] .issued) ∧ (wOp 0x0A [(4, 1023)] .issued).field 4 0 10 = 1023 ∧
    (wEvent (wOne (wOp 0x0A [(4, 1023)] .issued)).hw).hw.ownsEvent ((wOne (wOp 0x0A [(4, 1023)] .issued)).hw.queueSlice 63) 1023 = true ∧
    (wOne (wOp 0x0A [(4, 1023)] .issued)).hw.ownsEvent 0 1023 = false ∧
    (wOne (wOp 0x0B [] .issued)).hw.issuedOp 63 0 0x0B = some (wOp 0x0B [] .issued) ∧ (wOp 0x0B [] .issued).field 4 0 1 = 0 ∧
    (wAt (wQueue .active (some (wBuf 0 [wOp 0 [] (.done .timeout 0 true 0), wOp 0x0B [(4, 1)] .issued])))).hw.issuedOp 63 1 0x0B = some (wOp 0x0B [(4, 1)] .issued) ∧
    (wOp 0x0B [(4, 1)] .issued).field 4 0 1 = 1 ∧ (∃ d ∈ (wBuf 0 [wOp 0 [] (.done .timeout 0 true 0), wOp 0x0B [(4, 1)] .issued]).ops.take 1, d.doneCode ≠ some .ok) := by decide +kernel

/-- A fence that slice 0 owns beside one operation of queue 63. -/
def wFenced (o : QOp) (st : FenceSt) (cfg : Word) : State := wAt ((wOne o).hw.setFence 4095 { Fence.unused with st := st, cfg := cfg })

theorem test_FenceOperations : (wOne (wOp 8 [(4, 4095)] .issued)).hw.issuedOp 63 0 8 = some (wOp 8 [(4, 4095)] .issued) ∧
    (({ wOp 8 [(4, 4095)] .issued with waits := [7] } : QOp).waits.filter fun t => t ∈ (wWith (wOne { wOp 8 [(4, 4095)] .issued with waits := [7] }).hw { wTxn with kind := .store, slice := 0 }).hw.openWrites 0) ≠ [] ∧
    (wOp 8 [(4, 4095)] .issued).waits = [] ∧ (wOp 8 [(4, 4095)] .issued).field 16 0 1 = 0 ∧ (wOp 8 [(4, 4095), (16, 1)] .issued).field 16 0 1 = 1 ∧
    ((wFenced (wOp 8 [(4, 4095)] .issued) .unsignalled 0).hw.fence ((wOp 8 [(4, 4095)] .issued).field 4 0 12)).maySignal 0 = true ∧
    ((wFenced (wOp 8 [(4, 4095)] .issued) .unsignalled 1).hw.fence 4095).maySignal 0 = false ∧
    (wFenced (wOp 9 [(4, 4095), (8, 1)] .issued) .unsignalled 0).hw.op 63 0 = some (wOp 9 [(4, 4095), (8, 1)] .issued) ∧ (wOp 9 [(4, 4095), (8, 1)] .issued).opcode = 9 ∧
    ((wFenced (wOp 9 [(4, 4095), (8, 1)] .issued) .unsignalled 0).hw.fence 4095).mayWait 0 = true ∧ ((wFenced (wOp 9 [(4, 4095)] .issued) .unsignalled 1).hw.fence 4095).mayWait 0 = false ∧
    ((wFenced (wOp 9 [(4, 4095)] .issued) .unsignalled 0).hw.fence 4095).satisfies 0 = true ∧ ((wFenced (wOp 9 [(4, 4095)] .issued) .unsignalled 0).hw.fence 4095).satisfies 1 = false ∧
    (wOp 9 [(20, 1)] .issued).field 20 0 32 ≠ 0 ∧ (wOp 9 [] (.satisfied .ok 1)).st = .satisfied .ok 1 := by decide +kernel

theorem test_Doorbells : ((wAt wUp).hw.queue 63).st = .off ∧ ((wAt (wQueue .halted none)).hw.queue 63).st = .halted ∧
    (∀ path ∈ [BellPath.host, .device], ((path == .device) = (wAt (wQueue .idle none)).hw.regBit (Reg.QRING_Qn_CTL 63) 1) ∨
      ((path == .device) ≠ (wAt (wQueue .idle none)).hw.regBit (Reg.QRING_Qn_CTL 63) 1)) ∧
    (BellPath.host == .device) = (wAt (wQueue .idle none)).hw.regBit (Reg.QRING_Qn_CTL 63) 1 ∧ (BellPath.device == .device) ≠ (wAt (wQueue .idle none)).hw.regBit (Reg.QRING_Qn_CTL 63) 1 ∧
    2 ^ (wAt (wQueue .idle none)).hw.ringLog2 63 < ((17 : Word).toNat + 2 ^ 32 - 0) % 2 ^ 32 ∧ ((16 : Word).toNat + 2 ^ 32 - 0) % 2 ^ 32 ≤ 2 ^ (wAt (wQueue .idle none)).hw.ringLog2 63 ∧
    (((0 : Word).toNat + 2 ^ 32 - 0) % 2 ^ 32 < (1 + 2 ^ 32 - 0) % 2 ^ 32) := by decide +kernel

/-- Queue 63 active, with an entry to fetch, whose pages are translated. -/
def wFetching (q : Queue) (ctl : Word) : State :=
  wAt { (wUp.setReg (Reg.QRING_Qn_CTL 63) ctl) with cfe.queues := [(63, q)], cfe.btt := [(0, 0x30003)] }

/-- The same where nothing is translated. -/
def wFaulting (q : Queue) : State := wAt { wUp with cfe.queues := [(63, q)] }

theorem test_Fetcher :
    let idle := { Queue.off with st := .active, idleArmed := true }
    let q := { Queue.off with st := .active, tail := 1 }
    let s := wFetching q 1
    ((wFetching { idle with pending := true } 1).hw.queue 63).st = .active ∧ ((wFetching idle 1).hw.queue 63).tail = ((wFetching idle 1).hw.queue 63).fetch ∧
    ((wFetching idle 1).hw.queue 63).run = none ∧ (s.hw.queue 63).fetch ≠ (s.hw.queue 63).tail ∧ (s.hw.queue 63).pre = none ∧
    (s.hw.readEntry 63 0 0 [] [] [0] []).2.wellFormed = true ∧ (s.hw.readEntry 63 0 0 [] [] [0] []).2.fault = none ∧ (s.hw.readEntry 63 0 0 [] [] [0] []).2.bind = [] ∧
    (s.hw.readEntry 63 0 (BitVec.ofNat 512 (2 ^ 447)) [] [] [0] []).2.wellFormed = false ∧ ((wFaulting q).hw.readEntry 63 0 0 [] [] [0] []).2.fault.isSome = true ∧
    ((wFetching { q with run := some (wBuf 0 []) } 0x11).hw.queue 63).run ≠ none ∧ (wFetching { q with run := some (wBuf 0 []) } 0x11).hw.regBit (Reg.QRING_Qn_CTL 63) 4 = true := by decide +kernel

theorem test_BuffersEnd :
    let b := wBuf 0 [wOp 0 [] (.done .ok 0 true 0)]
    let h := wQueue .active (some b)
    (h.queue 63).run = some b ∧ b.stage = 0 ∧ b.ops.all QOp.ended = true ∧ h.statusOpen 63 = false ∧ b.field 83 1 = 0 ∧ (wBuf (2 ^ 83) b.ops).field 83 1 = 1 ∧
    ({ h with cfe.btt := [(0, 0x30003)] }.dmWrite (.status 63) (some 63) 0 0 (b.ops.flatMap QOp.statusBytes)).statusOpen 63 = true ∧
    ((wQueue .active (some { b with stage := 2 })).queue 63).run.map Buf.stage = some 2 ∧ ((wQueue .active (some { b with stage := 2 })).queue 63).pre = none ∧
    ({ wBuf 0 [wOp 0 [] .issued] with first := some 0 } : Buf).first = some 0 ∧ ((wBuf 0 [wOp 0 [] .issued]).ops.findIdx? fun o => !o.ended) = some 0 ∧
    (wAt (wUp.setReg (Reg.QRING_Qn_LIMIT 63) 1)).hw.regF (Reg.QRING_Qn_LIMIT 63) 0 16 ≠ 0 ∧ ((wAt (wQueue .resetting none)).hw.queue 63).run = none ∧
    ((wAt (wQueue .resetting none)).hw.queue 63).pre = none ∧ bit (0x8000003F : Word) 31 = true ∧ fld (0x8000003F : Word) 0 6 = 63 := by decide +kernel

theorem test_QueueControl : ((wAt wUp).hw.queue 63).st = .off ∧ bit (1 : Word) 0 = true ∧ bit (1 : Word) 6 = false ∧ ((wAt (wQueue .stopped none)).hw.queue 63).st = .stopped ∧
    ((wAt (wQueue .stopped none)).hw.queue 63).pre = none ∧ ((wAt (wQueue .stopped none)).hw.slice ((wAt (wQueue .stopped none)).hw.queueSlice 63)).quar = false ∧
    (wAt (wQueue .stopped none)).hw.reg (Reg.QRING_Qn_CTL 63) &&& ctlFixed = (0x400 : Word) &&& ctlFixed ∧
    (wAt (wQueue .stopped none)).hw.reg (Reg.QRING_Qn_CTL 63) &&& ctlFixed = (0x441 : Word) &&& ctlFixed ∧
    ¬ ((wAt (wQueue .stopped none)).hw.reg (Reg.QRING_Qn_CTL 63) &&& ctlFixed = (0 : Word) &&& ctlFixed) ∧
    bit (0x400 : Word) 0 = false ∧ bit (0x400 : Word) 6 = false ∧ bit (0x441 : Word) 0 = true ∧ bit (0x441 : Word) 6 = true := by decide +kernel

theorem test_BttInvalidation : ({ wUp with cfe.bttInv := true } : Hw).cfe.bttInv = true ∧ (∀ t ∈ ({ wUp with cfe.bttInv := true } : Hw).dmp.open_, t.stale = true → t.use = .btt) ∧
    (∃ t ∈ ({ wUp with cfe.bttInv := true, dmp.open_ := [{ wDmp (.partition 0) with stale := true }] } : Hw).dmp.open_, t.stale = true ∧ t.use ≠ .btt) := by decide +kernel

/-! Operations of the units. -/

/-- A policy under which this member, the only home, may create regions anywhere. -/
def wPolicy : Policy :=
  { domainId := 1, owner := [], sponsors := [], classMap := [⟨0, 2 ^ 25, true, true, true, some []⟩], switches := [], trays := [], hosts := [255], fabricRoot := 0, probe := false, laneFloor := 4,
    noneLq := true, fill := 0, salt := 0, homeMap := [1], minSvn := 0 }

/-- A member under that policy whose queue 63 runs one operation for slice 0, with admin. -/
def wUnit (o : QOp) : Hw :=
  { (wMember.setReg (Reg.QRING_Qn_CTL 63) 0x9).setReg 0x15010 1 with
    dom.policy := some wPolicy, cfe.queues := [(63, { Queue.off with st := .active, run := some { wBuf 0 [o] with bind := [2176] } })], cfe.btt := [(0, 0x30003)] }

/-- An operation that its unit has taken up. -/
def wStarted (o : QOp) (total : Nat) : QOp := { o with started := true, total := total }

/-- The same with slice 0 active and a window of the pool. -/
def wTransfer (o : QOp) (cls : RClass) : Hw :=
  { (wUnit o).setSlice 0 (wSlice .active) with gate.windows := [⟨0, 0, 2 ^ 25, 3, 9, cls, .active, 3, [], none⟩] }

/-- SEAL_COPY of one line from the pool. -/
def wCopy : QOp := wOp 1 [(4, 1), (24, 1)] .issued

/-- BULK_MOVE of one line to rack 15. -/
def wBulk : QOp := wOp 2 [(4, 0xF0), (24, 1)] .issued

/-- Rack 15 has a gateway. -/
def wRacks (h : Hw) : Hw := (h.setReg Reg.GATE_RACKS 0x80000000).setReg (Reg.LINK_GW 15) 0x80000000

theorem test_TransferOperations : (wAt (wUnit wCopy)).hw.issuedOp 63 0 1 = some wCopy ∧ wCopy.copyOk = true ∧ (wOp 1 [] .issued).copyOk = false ∧ (wOp 2 [] .issued).bulkOk = false ∧
    wBulk.bulkOk = true ∧ ((wUnit wBulk).rackUnreachable wBulk.rack || (wUnit wBulk).bulk.stop) = true ∧
    ((wRacks (wUnit wBulk)).rackUnreachable wBulk.rack || (wRacks (wUnit wBulk)).bulk.stop) = false ∧
    (wUnit (wStarted wCopy 1)).op 63 0 = some (wStarted wCopy 1) ∧ (wStarted wCopy 1).next < (wStarted wCopy 1).total ∧ (wStarted wCopy 1).field 4 0 1 = 1 ∧
    (((wTransfer (wStarted wCopy 1) .sealed).presentGranule 63 0 .copyOut (wStarted wCopy 1).poolAddr 1 0).2.map fun w => w.map (·.region)) = some (some 3) ∧
    (((wTransfer (wStarted wCopy 1) .sealed).presentGranule 63 0 .copyOut (wStarted wCopy 1).poolAddr 1 0).1.opAccess 63 0 0 64 true []).2 = true ∧
    (wStarted wBulk 1).field 4 0 1 = 0 ∧ (wStarted wBulk 1).txns.length < 32 ∧
    (((wRacks (wTransfer (wStarted wBulk 1) .link)).presentGranule 63 0 .bulk ((wStarted wBulk 1).rack * 2 ^ 46) 1 0).2).isSome = true ∧
    (((wRacks (wTransfer (wStarted wBulk 1) .link)).presentGranule 63 0 .bulk ((wStarted wBulk 1).rack * 2 ^ 46) 1 0).1.opAccess 63 0 0 64 false []).2 = true := by decide +kernel

/-- What a table of one value at every index of a list holds there. -/
theorem test_get_map {β : Type} (v d : β) (l : List Nat) (k : Nat) (hk : k ∈ l) : Tbl.get (l.map fun k => (k, v)) d k = v := by
  induction l with
  | nil => cases hk
  | cons x xs ih =>
    simp only [List.map_cons, Tbl.get]
    split
    · rfl
    · rename_i hx
      exact ih (List.mem_of_ne_of_mem (fun e => hx e.symm) hk)

/-- A live family key of slice 0. -/
def wFamily : Slot := { Slot.free with st := 1, kind := 1, usage := 0x41, family := 65535, owner := 0 }

/-- KEY_OP of a sub-operation. -/
def wKeyOp (sub : Nat) : QOp := wOp 0x0D [(4, sub), (8, 65535)] .issued

/-- The unit with keys in its Cistern. -/
def wKeys (o : QOp) (slots : Tbl Slot) : Hw := { wUnit o with cis.slots := slots }

theorem test_KeyOperations : wUp.scuReady = false ∧ (wUp.setReg Reg.PWR_PROFILE_ACT 0x10).backgroundNow = false ∧ (wUnit (wKeyOp 0)).backgroundNow = true ∧ (wUnit (wKeyOp 0)).scuReady = true ∧ (∀ k ∈ [0, 1, 2, 3], (wUnit (wKeyOp k)).keyOp 63 0 k = some (wKeyOp k)) ∧
    ((wUnit (wKeyOp 0)).setReg Reg.CAP_MEMBER 0).joined = false ∧ (wUnit (wKeyOp 0)).joined = true ∧
    ((wKeys (wKeyOp 0) [(2176, wFamily)]).familySlot ((wKeyOp 0).field 8 0 16)).isSome = true ∧ (wUnit (wKeyOp 0)).familySlot 65535 = none ∧
    ({ wUnit (wKeyOp 0) with cis.retired := [65535] } : Hw).familyRetired 65535 = true ∧ (wUnit (wKeyOp 0)).familyRetired 65535 = false := by decide +kernel

theorem test_FreeSliceSlot : (wKeys (wKeyOp 0) [(2176, { wFamily with family := 1 })]).freeSliceSlot ≠ some 2176 ∧ (wKeys (wKeyOp 0) [(2176, { wFamily with family := 1 })]).familySlot 65535 = none := by
  constructor
  · intro h
    have := List.find?_some h
    revert this
    decide
  · decide

/-- Every slice slot. -/
def wSliceSlots : List Nat := (List.range 6016).map (· + 2176)

theorem test_NoFreeSliceSlot (l : List Nat) (hl : ∀ k ∈ wSliceSlots, k ∈ l) :
    (wKeys (wKeyOp 0) (l.map fun k => (k, { wFamily with usage := 0 }))).freeSliceSlot = none := by
  refine List.find?_eq_none.mpr fun k hk => ?_
  have : (wKeys (wKeyOp 0) (l.map fun k => (k, { wFamily with usage := 0 }))).slot k = { wFamily with usage := 0 } := test_get_map _ _ _ k (hl k hk)
  rw [this]
  decide +kernel

theorem test_BoundKeys : (wKeys (wKeyOp 1) [(2176, wFamily)]).bound 63 (wKeyOp 1) = some 2176 ∧ (wKeys (wKeyOp 1) [(2176, wFamily)]).ownsSlot ((wKeys (wKeyOp 1) []).queueSlice 63) 2176 = true ∧
    (wKeys (wKeyOp 1) [(2176, { wFamily with owner := 1023 })]).ownsSlot 0 2176 = false ∧ ((wKeys (wKeyOp 1) [(2176, wFamily)]).slot 2176).usage = 0x41 ∧
    ({ wKeys (wKeyOp 1) [(2176, wFamily)] with regions.table := [(0, some { wRegion with cls := .sealed, family := 65535 })] } : Hw).familyInUse 65535 = true ∧
    ((wKeys (wKeyOp 1) [(2176, { wFamily with usage := 0x40 })]).slot 2176).usage ≠ 0x41 ∧ (wKeys (wKeyOp 2) [(2176, wFamily)]).liveBelow 65535 65535 = false ∧
    ((wKeys (wKeyOp 3) [(2176, wFamily)]).opAccess 63 0 65535 64 true [(0, 0x10001), (0x10008, 0x40000000_00010003)]).2 = true ∧
    (∀ k ∈ [0, 1, 2, 3], (wKeys (wKeyOp k) [(2176, wFamily)]).opWriting 63 0 = false) := by decide +kernel

/-- MEASURE of one byte into register 15. -/
def wMeasure : QOp := wOp 0x0C [(4, 15), (16, 1)] .issued

theorem test_MeasureAndRandomWait : (wUnit wMeasure).measureBehind 63 0 (wMeasure.field 4 0 4) = false ∧ (wKeyOp 0).drbgUser = true ∧
    (wOp 3 [] .issued).drbgUser = true ∧ (wOp 3 [] .issued).opcode ≠ 0x0D ∧ (wUnit wMeasure).measureOp 63 0 = some wMeasure ∧ (wUnit wMeasure).scuUp = true ∧ (wUnit wMeasure).joined = true ∧
    ((wUnit wMeasure).setReg Reg.CAP_MEMBER 0).joined = false ∧ ((wUnit wMeasure).scu.meas.get MeasReg.empty (wMeasure.field 4 0 4)).used = false ∧
    (({ wUnit wMeasure with scu.meas := [(15, ⟨true, 0, 1, []⟩)] } : Hw).scu.meas.get MeasReg.empty 15).owner ≠ (wUnit wMeasure).queueSlice 63 ∧
    ([0xFF] : List Byte).length = wMeasure.field 16 0 40 ∧ ((wUnit wMeasure).opAccess 63 0 0 1 false []).2 = true ∧
    (wUnit (wKeyOp 0)).op 63 0 = some (wKeyOp 0) ∧ (wUnit (wKeyOp 0)).drbgReady = false ∧ (wKeyOp 0).opcode = 0x0D ∧ (wMeasure).opcode ≠ 0x0D := by decide +kernel

/-- REKEY_START or REKEY_ABORT of the first granule of region 65,535. -/
def wRekey (opcode : Nat) : QOp := wOp opcode [(4, 65535), (12, 1)] .issued

/-- A home of the last granule, whose entry is in a state, with ranges in its work list. -/
def wHome (opcode pstate epoch : Nat) (ranges : List PumpRange) : Hw :=
  { wUnit (wRekey opcode) with
    regions.table := [(65535, some { wRegion with cls := .sealed })], gkt.part := [(2 ^ 25 - 1, { wKey with pstate := pstate, epoch := epoch }.word)], pump.ranges := ranges }

/-- A range of the work list. -/
def wRange : PumpRange := { id := 0, granules := [], region := 0, first := 0, count := 1, fence := none, value := 0, aborted := false, timedOut := false, dead := false, lineFail := false }

/-- The walk of the page of the last granule's entry. -/
def wLastWalk : BttWalk := [(0, 0x10001), (0x10000 + 8 * 0xFFF, 1)]

theorem test_RekeyCommands : (wHome 6 0 0 []).admin 63 = true ∧ (wHome 6 0 0 []).sealRegion ((wRekey 6).field 4 0 16) = some { wRegion with cls := .sealed } ∧
    (wRekey 6).field 8 0 25 + (wRekey 6).field 12 0 26 ≤ wRegion.size ∧ (wHome 6 0 0 []).homedIn (2 ^ 25 - 1) ((wRekey 6).field 12 0 26) = [2 ^ 25 - 1] ∧
    (wHome 6 0 0 []).issuedOp 63 0 6 = some (wRekey 6) ∧ (wRekey 6).rekeyOk false = true ∧ 8 ≤ (wHome 6 0 0 (List.replicate 8 wRange)).pump.ranges.length ∧
    (wHome 6 0 0 (List.replicate 7 wRange)).pump.ranges.length < 8 ∧
    (∀ x ∈ [(4, 0), (0, 65535), (0, 65534)], ((wHome 6 x.1 x.2 []).readEntries [2 ^ 25 - 1] [] wLastWalk).2 = [(2 ^ 25 - 1, { wKey with pstate := x.1, epoch := x.2 })]) ∧
    ({ wKey with pstate := 4 } : GktEntry).moving = true ∧ wKey.moving = false ∧ (wHome 7 5 0 []).issuedOp 63 0 7 = some (wRekey 7) ∧ (wRekey 7).rekeyOk true = true ∧
    (wHome 7 5 0 []).granuleState (2 ^ 25 - 1) = 5 ∧ (wHome 7 2 0 []).granuleState (2 ^ 25 - 1) = 2 ∧ (wHome 7 2 0 []).pump.wet = none := by decide +kernel

/-- REGION_OP with a sub-operation of region 65,535 and slice 1,023. -/
def wRegionOp (sub : Nat) : QOp := wOp 0x0E [(4, sub), (5, 2), (6, 65535), (8, 2 ^ 25 - 512), (12, 512), (22, 1023)] .issued

/-- The admin queue with a region in its table and a run of a REGION_OP. -/
def wRegions (o : QOp) (table : Tbl (Option Region)) (run : Option RegionOpRun) : Hw := { wUnit o with regions.table := table, regions.running := run }

/-- The walks of the first 64 pages. -/
def wLowWalk : BttWalk := (0, 0x10001) :: (List.range 64).map fun k => (0x10000 + 8 * k, 3)

/-- The writes of a sub-operation, in a state in which it has begun, all succeed. -/
def wWritten (o : QOp) (table : Tbl (Option Region)) (run : Option RegionOpRun) (ws : List TblWrite) : Bool := ((wRegions (wStarted o 0) table run).tableWrites ws wLowWalk []).2.2

theorem test_RegionCreated : (wRegions (wRegionOp 0) [] none).admin 63 = true ∧ (wRegions (wRegionOp 0) [] none).regionTurn 63 0 0 = some (wRegionOp 0) ∧
    RClass.ofNum ((wRegionOp 0).field 5 0 2) = some .link ∧ (wRegions (wRegionOp 0) [] none).createRefusal (wRegionOp 0) .link = none ∧
    wWritten (wRegionOp 0) [] none (.entry 0 (some { wRegion with state := .creating }) ::
      (wRegions (wRegionOp 0) [] none).placeWrites 0 (2 ^ 25 - 512) 512 (gibsOf (2 ^ 25 - 512) 512) [] ++ [.entry 0 (some wRegion)]) = true ∧
    (wRegions (wRegionOp 0) [] none).mapGibs (2 ^ 25 - 512) 512 = [] ∧
    (wRegions (wRegionOp 0) [(0, some wRegion)] none).createRefusal (wRegionOp 0) .link = some .overlap := by decide +kernel

theorem test_RegionChanges : (wRegions (wRegionOp 2) [(65535, some wRegion)] none).region ((wRegionOp 2).field 6 0 16) = some wRegion ∧ wRegion.state = .active ∧
    (∀ k ∈ [2, 3, 4], (wRegions (wRegionOp k) [(65535, some wRegion)] none).regionTurn 63 0 k = some (wRegionOp k) ∧
      wWritten (wRegionOp k) [(65535, some wRegion)] none [.entry 65535 (some { wRegion with fill := 1 })] = true) ∧
    (withShare wRegion.shares 1023 0).isSome = true ∧ (∃ x ∈ wRegion.shares, x.2.1 = 1023) ∧
    (∀ k ∈ [3, 4], (wRegions (wStarted (wRegionOp k) 0) [(65535, some wRegion)] (some ⟨63, 0, k, 65535, []⟩)).regionReady ⟨63, 0, k, 65535, []⟩ = true ∧
      (wRegions (wStarted (wRegionOp k) 0) [(65535, some wRegion)] (some ⟨63, 0, k, 65535, []⟩)).op 63 0 = some (wStarted (wRegionOp k) 0) ∧
      (wStarted (wRegionOp k) 0).opcode = 0x0E ∧ (wStarted (wRegionOp k) 0).ended = false) := by decide +kernel

theorem test_RegionDestroyed : (wRegions (wRegionOp 1) [(65535, some wRegion)] none).regionTurn 63 0 1 = some (wRegionOp 1) ∧ wRegion.cls ≠ .sealed ∧
    wWritten (wRegionOp 1) [(65535, some wRegion)] none [.entry 65535 (some { wRegion with state := .destroying })] = true ∧
    (wRegions (wStarted (wRegionOp 1) 0) [(65535, some wRegion)] (some ⟨63, 0, 1, 65535, []⟩)).regionReady ⟨63, 0, 1, 65535, []⟩ = true ∧
    wWritten (wRegionOp 1) [(65535, some wRegion)] (some ⟨63, 0, 1, 65535, []⟩) ((wRegions (wRegionOp 1) [(65535, some wRegion)] none).clearWrites 65535 (2 ^ 25 - 1) 1 ++ [.entry 65535 none]) = true := by
  decide +kernel

/-- A key on its way to a host link. -/
def wDelivery (zero : Bool) : KeyDelivery := ⟨255, 0, false, false, zero, 0, 0, none⟩

theorem test_HostLinkKeys : ((wUnit wCopy).setReg Reg.LINK_IDE_REFRESH 1).regF Reg.LINK_IDE_REFRESH 0 16 ≠ 0 ∧ ((wUnit wCopy).setReg Reg.CISTERN_DRBG_STAT 1).drbgReady = true ∧
    (wUnit wCopy).dom.leaving = [] ∧ (wUnit wCopy).ideStreams = [255] ∧ (wUnit wCopy).ideBusy 255 = false ∧ 254 ∉ (wUnit wCopy).ideStreams ∧
    ({ wUnit wCopy with ide.pending := [wDelivery false] } : Hw).ideBusy 255 = true ∧ ({ wUnit wCopy with ide.pending := [wDelivery false] } : Hw).ide.pending = wDelivery false :: [] ∧
    (wDelivery false).zero = false := by decide +kernel

/-! Device memory, collectives, the shaper and the Scheduled Port. -/

/-- Device memory transactions of an operation of queue 63. -/
def wOpen (use : DmUse) (o : QOp) : Hw := { wUnit o with dmp.open_ := [wDmp use] }

/-- An operation whose outcome waits for its writes. -/
def wFinal : QOp := { wOp 1 [] .issued with fin := some (.ok, 0, false, 0) }

theorem test_DeviceMemoryEnds : ((wOpen (.op 63 0) wMeasure).dmp.open_.find? fun x => x.id == (255 : BitVec 8).toNat && x.write == false) = some (wDmp (.op 63 0)) ∧
    (wDmp (.op 63 0)).fault = false ∧ (wOpen (.op 63 0) wMeasure).op 63 0 = some wMeasure ∧ wMeasure.ended = false ∧ wMeasure.txns = [] ∧ wMeasure.fin = none ∧ wMeasure.code = .ok ∧
    (let h := { wUnit wFinal with dmp.open_ := [{ wDmp (.op 63 0) with write := true }] }
     (h.dmp.open_.find? fun x => x.id == (255 : BitVec 8).toNat && x.write == true) = some { wDmp (.op 63 0) with write := true } ∧ h.op 63 0 = some wFinal ∧ wFinal.ended = false ∧ wFinal.opcode = 1 ∧
     ({ h with dmp.open_ := [] } : Hw).opWriting 63 0 = false) ∧
    (∀ f ∈ [true, false], ((({ wUp with dmp.open_ := [{ wDmp (.slot 63) with fault := f }] } : Hw).dmp.open_.find? fun x => x.id == (255 : BitVec 8).toNat && x.write == false)) = some { wDmp (.slot 63) with fault := f }) := by
  decide +kernel

/-- A descriptor from (byte offset, value) pairs. -/
def wDesc (fields : List (Nat × Nat)) : Line := BitVec.ofNat 512 (fields.foldl (fun acc p => acc + p.2 * 2 ^ (8 * p.1)) 0)

/-- One element of INT32 of collective 65,535 between two members, in a role, with flags in byte 12. -/
def wColl (flags : Nat) : Line := wDesc [(0, 65535), (2, 5), (4, 1), (8, 1), (12, flags), (13, 0x99), (15, 127), (40, 1)]

/-- BLIND_REDUCE. -/
def wReduce : QOp := wOp 3 [] .issued

theorem test_CollectivesOpen : (wUnit wReduce).issuedOp 63 0 3 = some wReduce ∧ wReduce.descOperandOk = true ∧ (wOp 3 [(4, 1)] .issued).descOperandOk = false ∧
    (wUnit wReduce).bru.waiting = [] ∧ ((wUnit wReduce).opAccess 63 0 wReduce.descAddr 64 false []).2 = true ∧ blindLegal (wColl 0) 0 = true ∧ blindLegal 0 0 = false ∧
    descSrcSlot (wColl 0) = false ∧ descDstSlot (wColl 0) = false ∧ descDstSlot 0 = false ∧ (wUnit wReduce).bru.ctxs.length + (wUnit wReduce).bru.closing.length < 64 ∧ (wUnit wReduce).bruFenced = false := by decide +kernel

/-- A context of queue 63's operation. -/
def wCtx (d : Line) (st : CollSt) (msgs : List CollMsg) : Ctx :=
  { queue := 63, op := 0, slice := 0, st := st, lanes := [false], probeOk := [false], first := { Coll.fresh d with msgs := msgs, next := if st = .draining then 1 else 0 }, second := none, slotted := false, put := [], taken := [] }

/-- The unit with one context. -/
def wBlind (o : QOp) (c : Ctx) : Hw := { wUnit o with bru.ctxs := [c] }

theorem test_CollectivesBegin : 1 ≤ (wBlind wReduce (wCtx (wColl 0) .opening [])).sliceFree ∧ (wBlind wReduce (wCtx (wColl 0) .opening [])).freeSliceSlot = some 2176 ∧ wReduce.aborting = false ∧
    ((wBlind wReduce (wCtx (wColl 0) .opening [])).bttCheck none ((wBlind wReduce (wCtx (wColl 0) .opening [])).freshAddr (wColl 0)) false ((0, 0x10001) :: (List.range 64).map fun k => (0x10000 + 8 * k, 3))).2 = none ∧
    (wBlind wReduce (wCtx (wColl 0) .opening [])).ctx 63 0 = some (wCtx (wColl 0) .opening []) ∧
    (wCtx (wColl 0) .opening []).granules.length ≤ (wCtx (wColl 0) .opening []).lanes.length ∧ (∀ x ∈ (wCtx (wColl 0) .opening []).lanes, x = (wCtx (wColl 0) .opening []).lanes.headD false) ∧
    descProbed (wColl 0) = false ∧ descScaleArray (wColl 0) = false ∧ (descRole (wColl 0)).contributes = true ∧ descRole (wColl 0) ≠ .receive ∧
    freshCrcOk ((wBlind wReduce (wCtx (wColl 0) .opening [])).bru.fresh.get 0 (descColl (wColl 0))) = true ∧
    freshPasses ((wBlind wReduce (wCtx (wColl 0) .opening [])).bru.fresh.get 0 (descColl (wColl 0))) (descEpoch (wColl 0)) (descStep (wColl 0)) = true ∧
    freshCrcOk (freshEntry 5 1) = true ∧ freshPasses (freshEntry 5 1) (descEpoch (wColl 0)) (descStep (wColl 0)) = false := by decide +kernel

theorem test_ContributionLeaves : (wCtx (wColl 0) .sending []).putFed = false ∧ descStochastic (wColl 0) = false ∧
    messageBlocks (wColl 0) 0 (min 1 (wCtx (wColl 0) .sending []).holdRoom) = 1 ∧ ((wBlind wReduce (wCtx (wColl 0) .sending [])).opReads 63 0 (sourceRanges (wColl 0) 0 1 [⟨[1, 0, 0, 0], [], []⟩]) []).2 = true ∧
    (((wBlind wReduce (wCtx (wColl 0) .sending [])).convertBlock 63 (Coll.fresh (wColl 0)) 0 ⟨[1, 0, 0, 0], [], []⟩).2).isSome = true ∧
    (((wBlind wReduce (wCtx (wColl 0) .sending [])).convertBlock 63 { Coll.fresh (wColl 0) with scales := [(0, 256)] } 0 ⟨[1, 0, 0, 0], [], []⟩).2).isNone = true := by decide +kernel

/-- An answer of one block with a count. -/
def wAnswer (op count : Nat) : Message := ⟨{ wHdr with op := BitVec.ofNat 8 op, resp := true }, inlineOf [(16, count)], []⟩

/-- A collective in a role that awaits one block. -/
def wAwaiting (flags op : Nat) : Hw := wBlind { wReduce with total := 1, started := true } (wCtx (wColl flags) .draining [⟨7, op, 0, 1⟩])

theorem test_CollectiveAnswers : (wUnit wReduce).blindMatch (wAnswer 0x10 1).hdr.txn.toNat = none ∧
    (∀ p ∈ [(1, 0x10), (0x82, 0x11), (1, 0x12)], ((wAwaiting p.1 p.2).blindMatch (wAnswer p.2 1).hdr.txn.toNat) = some (wCtx (wColl p.1) .draining [⟨7, p.2, 0, 1⟩], false, ⟨7, p.2, 0, 1⟩) ∧
      (wAnswer p.2 1).hdr.op.toNat = p.2) ∧ (wAnswer 0x10 1).hdr.status ≠ 2 ∧
    inlineField (wAnswer 0x10 1).inlineArea 16 16 < descG (wColl 1) ∧ descG (wColl 1) < inlineField (wAnswer 0x10 3).inlineArea 16 16 ∧
    inlineField (wAnswer 0x10 2).inlineArea 16 16 = descG (wColl 1) ∧ (descRole (wColl 1)).receives = false ∧ (descRole (wColl 0x82)).receives = true ∧ descRole (wColl 0x82) ≠ .leader ∧
    (wCtx (wColl 0x82) .draining []).holds = true ∧ descStochastic (wColl 0x82) = false := by decide +kernel

theorem test_CollectivesClose : (wAwaiting 1 0x10).ctx 63 0 = some (wCtx (wColl 1) .draining [⟨7, 0x10, 0, 1⟩]) ∧ (wCtx (wColl 1) .draining [⟨7, 0x10, 0, 1⟩]).slotsDone = true ∧
    (wAwaiting 1 0x10).op 63 0 = some { wReduce with total := 1, started := true } ∧ wReduce.txns = [] ∧ wReduce.code = .ok ∧ wReduce.st = .issued ∧ wReduce.opcode = 3 := by decide +kernel

/-- A descriptor of two participants with one row and one slot in a mode. -/
def wShape (mode : Nat) : Line := wDesc [(0, 1), (1, mode), (2, 1), (8, 1), (40, 1)]

theorem test_ShaperStarts : (wUnit (wOp 4 [] .issued)).steppedQueue 63 = false ∧ (wUnit (wOp 4 [] .issued)).slotCtxOf 63 0 = none ∧ (wUnit (wOp 4 [] .issued)).issuedOp 63 0 4 = some (wOp 4 [] .issued) ∧
    (wUnit (wOp 5 [] .issued)).issuedOp 63 0 5 = some (wOp 5 [] .issued) ∧ (wOp 4 [(4, 1)] .issued).descOperandOk = false ∧ (wOp 5 [] .issued).descOperandOk = true ∧
    ((wUnit wCopy).setReg Reg.CISTERN_DRBG_STAT 1).drbgReady = true ∧ shapeLegal (wShape 2) false = true ∧ shapeLegal (wShape 3) false = false ∧ shapeLegal (wShape 2) true = true ∧
    shapeLegal 0 true = false ∧ routeOk (wShape 2) [1] = true ∧ shapeMode (wShape 2) = 2 := by decide +kernel

theorem test_ShaperReads : ∀ p ∈ [(4, true), (5, false)],
    (((wUnit (wOp p.1 [] .issued)).setReg Reg.CISTERN_DRBG_STAT 1).opAccess 63 0 (wOp p.1 [] .issued).descAddr 64 false []).2 = true ∧
    ((((wUnit (wOp p.1 [] .issued)).setReg Reg.CISTERN_DRBG_STAT 1).drbgCall).opReads 63 0 ((shapeMap (wShape 2), 4) :: (if p.2 then [(shapeRoute (wShape 2), 2)] else [])) []).2 = true := by decide +kernel

/-- A block with slot operations presented. -/
def wSlots (items : List SlotItem) : Hw := { wUp with sched.items := items }

/-- A slot word from (first bit, value) pairs. -/
def wWord (fields : List (Nat × Nat)) : BitVec 64 := BitVec.ofNat 64 (fields.foldl (fun acc p => acc + p.2 * 2 ^ p.1) 0)

theorem test_SlotWordsJudged : (∀ k ∈ [1, 2, 3, 4, 5, 6, 8, 15], slotOp (wWord [(0, k)]) = k) ∧ (wSlots []).slotsRun = true ∧
    64 ≤ (wSlots ((List.range 64).map fun k => .op 5 k 0 0)).slotPending.length ∧ (wSlots ((List.range 63).map fun k => .op 5 k 0 0)).slotPending.length < 64 ∧
    slotReservedOk (wWord [(0, 1), (53, 1)]) = false ∧ slotId (wWord [(0, 5), (4, 63)]) ∈ (wSlots [.op 5 63 0 0]).slotPending ∧ slotDelta (wWord [(0, 5)]) = 0 := by decide +kernel

/-- The Scheduled Port of an active slice 0, beside fence 4095 with an owner. -/
def wPorted (owner : Nat) : Hw := ((wMember.setSlice 0 (wSlice .active)).setFence 4095 { Fence.unused with st := .unsignalled, cfg := BitVec.ofNat 32 owner })

theorem test_SlotFences : (wPorted 0).slotsRun = true ∧ (wPorted 0).blockFenced = false ∧ (wPorted 0).pow.rung = .u0 ∧ (wPorted 0).slotPending.length < 64 ∧ (wPorted 0).slotMalformed (wWord [(0, 5), (4, 63), (10, 4095), (22, 1)]) = false ∧
    (wPorted 0).slotMalformed (wWord [(0, 6), (10, 4095)]) = false ∧ ((wPorted 0).slice (wPorted 0).slotSlice).st = .active ∧ slotFence (wWord [(0, 6), (10, 4095)]) = 4095 ∧
    ((wPorted 0).fence 4095).maySignal 0 = true ∧ ((wPorted 1023).fence 4095).maySignal 0 = false ∧ ((wPorted 0).fence 4095).mayWait 0 = true ∧ ((wPorted 1023).fence 4095).mayWait 0 = false := by decide +kernel

/-- A slot-fed collective of queue 63 with the pool granted to slice 0. -/
def wFed (c : Ctx) : Hw :=
  { wBlind { wReduce with started := true } c with
    obj := (wPorted 0).obj, sched.ctxs := [⟨true, 65535, 63, 0, []⟩], gate.windows := [⟨0, 0, 2 ^ 25, 3, 9, .blind, .active, 3, [], none⟩] }

theorem test_SlotBlocks : (wPorted 0).slotFed (slotColl (wWord [(0, 1), (10, 65535)])) = none ∧
    (wFed (wCtx (wColl 0x40) .sending [])).slotFed (slotColl (wWord [(0, 1), (10, 65535)])) = some (wCtx (wColl 0x40) .sending []) ∧
    slotBlock (wWord [(0, 1), (10, 65535)]) < descBlocks (wColl 0x40) ∧ (wFed (wCtx (wColl 0x40) .sending [])).slotWorking < 32 ∧ (wCtx (wColl 0x40) .sending []).putFed = true ∧
    ((wFed (wCtx (wColl 0x40) .sending [])).slotJudge .blindPut (descAcc (wColl 0x40))).2.1 = .none ∧ 0 ∉ (wCtx (wColl 0x40) .sending []).put ∧
    (wCtx (wColl 0x40) .sending []).holdRoom ≠ 0 ∧ ((wFed (wCtx (wColl 0x40) .sending [])).slotJudge .blindPut 0).1.slotFlits + 2 ≤ ((wFed (wCtx (wColl 0x40) .sending [])).slotJudge .blindPut 0).1.egressRes ∧
    (((wFed (wCtx (wColl 0x40) .sending [])).slotJudge .blindPut 0).1.opReads 63 0 (sourceRanges (wColl 0x40) 0 1 [⟨[1, 0, 0, 0], [], []⟩]) []).2 = true ∧ 0 ∈ ({ wCtx (wColl 0x40) .sending [] with put := [0] } : Ctx).put ∧
    (wCtx (wColl 0x82) .draining []).holds = true ∧ ((wFed (wCtx (wColl 0x82) .draining [])).slotJudge .blindTake (descAcc (wColl 0x82))).2.1 = .none ∧
    (((wCtx (wColl 0x82) .draining []).stage (wCtx (wColl 0x82) .draining []).resultStage).fate.get none 0) = none ∧
    (({ Coll.fresh (wColl 0x82) with fate := [(0, some .authFail)] } : Coll).fate.get none 0) = some .authFail := by decide +kernel

/-- A DISPATCH of two destinations that runs under a slot context. -/
def wStepping (p : Part) : Hw :=
  { (wUnit (wOp 4 [] .issued)).setReg Reg.CISTERN_DRBG_STAT 1 with
    obj := (wPorted 0).obj, sched.ctxs := [⟨false, 63, 63, 0, []⟩], gate.windows := [⟨0, 0, 2 ^ 25, 3, 9, .sealed, .active, 3, [], none⟩], gkt.cache := [(0, wKey), (1, wKey)]
    shaper := [⟨63, 0, false, wShape 2, [0, 1], [p, p], true, [], 0, 0, 0⟩] }

theorem test_SlotSteps : slotOp (wWord [(0, 3), (10, 63), (16, 1)]) = 3 ∧ slotOp (wWord [(0, 4)]) = 4 ∧ (wStepping (dispatchPart (wShape 2) [1] 1)).slotMalformed (wWord [(0, 3), (10, 63), (16, 1)]) = false ∧
    (∀ c ∈ (wPorted 0).sched.ctxs, c.blind = true ∨ c.key ≠ slotQueue (wWord [(0, 3), (10, 63), (16, 1)])) ∧
    ((wStepping (dispatchPart (wShape 2) [1] 1)).sched.ctxs.find? fun c => !c.blind && c.key == slotQueue (wWord [(0, 3), (10, 63), (16, 1)])) = some ⟨false, 63, 63, 0, []⟩ ∧
    ((wStepping (dispatchPart (wShape 2) [1] 1)).run 63 0).isSome = true ∧
    ((wStepping (dispatchPart (wShape 2) [1] 1)).slotJudge .shapeWrite (sectionAddr (wShape 2) 1 (shapeSelf (wShape 2)))).2.1 = .none ∧
    (∀ x ∈ [dispatchPart (wShape 2) [1] 1], (x.ready = true ∨ x.failed = true ∨ x.dead = true) ∧ x.stepped = false ∧ x.failed = false ∧ x.dead = false) ∧
    (∀ g ∈ (⟨63, 0, false, wShape 2, [0, 1], [], true, [], 0, 0, 0⟩ : ShapeRun).sectionGranules 1 (dispatchPart (wShape 2) [1] 1), ((wStepping (dispatchPart (wShape 2) [1] 1)).cached g).isSome = true) ∧
    ((wStepping (dispatchPart (wShape 2) [1] 1)).setF Reg.SCHED_EGRESS_RES 0 12 0).egressRes = 32 := by decide +kernel

/-- A block under DETERMINISTIC with slot operations presented. -/
def wQuiet (items : List SlotItem) (stat : Word) : Hw := { ((wUp.setReg Reg.PWR_PROFILE_ACT 0x10).setReg Reg.SCHED_STAT stat).setReg Reg.SCHED_STARVE 1 with sched.items := items }

theorem test_SlotCompletions : ({ wSlots [.op 5 63 0 0] with dmp.open_ := [wDmp (.slot 63)] } : Hw).slotBusy 63 = true ∧ (wSlots [.op 5 63 0 0]).slotBusy 63 = false ∧
    slotOp (wWord [(0, 7)]) = 7 ∧ slotCycles (wWord [(0, 7)]) = 0 ∧ slotCycles (wWord [(0, 7), (10, 65535)]) ≠ 0 ∧ slotId (wWord [(0, 7), (10, 65535)]) = 0 ∧
    slotReservedOk (wWord [(0, 7), (10, 65535)]) = true ∧ (wQuiet [] 0).deterministic = true ∧ (wSlots []).deterministic = false ∧ (wQuiet [] 0x80000000).quietOpen = true ∧
    (wQuiet [] 0x40000000).regBit Reg.SCHED_STAT 30 = true ∧ (wQuiet [] 0).regF Reg.SCHED_STARVE 0 16 ≠ 0 ∧ wUp.sched.ctxs.length < 16 ∧ wUp.slotKeyed true 65535 = false := by decide +kernel

/-! Slices, fences and events. -/

/-- A block whose SLICE.SEL names slice 1023, which is in a state. -/
def wSel (v : Slice) : Hw := (wUp.setReg Reg.SLICE_SEL 1023).setSlice 1023 v

theorem test_SliceBound : ((wSel (wSlice .active)).slice 1023).st ≠ .free ∧ (wSel (wSlice .free)).regF Reg.SLICE_SEL 0 10 = 1023 ∧ ((wSel (wSlice .free)).slice 1023).st = .free ∧
    ((wSel (wSlice .free)).setSlice 0 (wSlice .dead)).sliceOfPasid 5 = some 0 ∧ (wSel (wSlice .free)).sliceOfPasid 5 = none ∧ (wSel (wSlice .free)).sliceShares 1023 = 0 ∧
    ({ wSel (wSlice .free) with regions.table := [(65535, some wRegion)] } : Hw).sliceShares 1023 ≠ 0 ∧ (wSel (wSlice .free)).prime.ready = true := by decide +kernel

theorem test_SliceClosed : ((wSel (wSlice .removing)).slice 1023).st ≠ .active ∧ ((wSel (wSlice .dead)).slice 1023).st = .dead ∧ ((wSel (wSlice .active)).slice 1023).st = .active := by decide +kernel

theorem test_SliceRemoved : ((wSel (wSlice .removing)).slice 1023).step ≠ 2 ∧ ((wSel { wSlice .removing with step := 2 }).slice 1023).step = 2 ∧
    ((wSel { wSlice .removing with step := 3 }).slice 1023).step = 3 ∧ (wSel { wSlice .removing with step := 3 }).barrierOf 1023 = 0 ∧
    ({ wSel { wSlice .removing with step := 3 } with txns := [{ wTxn with slice := 1023 }] } : Hw).barrierOf 1023 ≠ 0 ∧
    ((wSel { wSlice .tearing with step := 4 }).slice 1023).step = 4 ∧ (wSel (wSlice .tearing)).dom.leaving = [] := by decide +kernel

theorem test_SignalsAndSets : (1 ≤ ((5 : BitVec 64) - 4).toNat ∧ ((5 : BitVec 64) - 4).toNat < 2 ^ 63) ∧ ¬(1 ≤ ((5 : BitVec 64) - 5).toNat ∧ ((5 : BitVec 64) - 5).toNat < 2 ^ 63) ∧
    ¬(1 ≤ ((0 : BitVec 64) - BitVec.ofNat 64 (2 ^ 63)).toNat ∧ ((0 : BitVec 64) - BitVec.ofNat 64 (2 ^ 63)).toNat < 2 ^ 63) ∧
    (wFenced { wOp 9 [(4, 4095), (8, 1)] .issued with started := true } .unsignalled 0).hw.op 63 0 = some { wOp 9 [(4, 4095), (8, 1)] .issued with started := true } ∧
    ({ wOp 9 [(4, 4095), (8, 1)] .issued with started := true } : QOp).waitsOn 4095 = true ∧ ({ wOp 9 [(4, 4095), (8, 1)] .issued with started := true } : QOp).waitsOn 0 = false ∧
    (((wFenced (wOp 9 [] .issued) .unsignalled 0).hw.fenceSignal 4095 1 none 0).fence 4095).satisfies 1 = true ∧ ((wAt wUp).hw.event 0).alloc = false ∧
    ((wEvent wUp).hw.event 1023).alloc = true := by decide +kernel

/-- A block whose FENCE.SEL names fence 4095. -/
def wFenceSel (st : FenceSt) (cfg : Word) : Hw := (wUp.setReg Reg.FENCE_SEL 4095).setFence 4095 { Fence.unused with st := st, cfg := cfg }

theorem test_FenceCommands : (wFenceSel .unsignalled 0).regF Reg.FENCE_SEL 0 12 = 4095 ∧ ((wFenceSel .unsignalled 0).fence 4095).st ≠ .free ∧ ((wFenceSel .free 0x800000).fence 4095).st = .free ∧
    bit ((wFenceSel .free 0x800000).fence 4095).cfg 23 = true ∧ ((wFenceSel .free 0x800000).event (fld (0x03FF0000 : Word) 16 10)).alloc = false ∧
    bit ((wFenceSel .free 1).fence 4095).cfg 23 = false ∧ ((wFenceSel .error 0).fence 4095).st = .error ∧ ((wFenceSel .signalled 0).fence 4095).st ≠ .error := by decide +kernel

/-- A slice whose window selects a fence and an event. -/
def wWindow (owner : Nat) : Hw :=
  let h := ((wUp.setSlice 1 (wSlice .active)).setFence 4095 { Fence.unused with st := .unsignalled, cfg := BitVec.ofNat 32 owner }).setEvent 1023 { Event.unused with alloc := true, cfg := BitVec.ofNat 32 owner }
  { h with obj.fsel := [(1, 4095)], obj.esel := [(1, 1023)] }

theorem test_SliceWindowObjects : (wAt wUp).hw.activeSlice (0xFFFFF : BitVec 20).toNat = none ∧ (wWindow 1).activeSlice (5 : BitVec 20).toNat = some 1 ∧ (wWindow 1).swFence 1 = 4095 ∧ (wWindow 1).swEvent 1 = 1023 ∧
    ((wWindow 1).fence 4095).maySignal 1 = true ∧ ((wWindow 2).fence 4095).maySignal 1 = false ∧ ((wWindow 2).fence 4095).owner ≠ 1 ∧ ((wWindow 1).fence 4095).st ≠ .free ∧
    ((wWindow 1).fence 4095).owner = 1 ∧ (wWindow 2).ownsEvent 1 1023 = false ∧ (wWindow 1).ownsEvent 1 1023 = true := by decide +kernel

theorem test_EventCommands : ((wEvent (wUp.setReg Reg.EVENT_SEL 1023)).hw.event ((wEvent (wUp.setReg Reg.EVENT_SEL 1023)).hw.regF Reg.EVENT_SEL 0 10)).alloc = true ∧
    ((wUp.setReg Reg.EVENT_SEL 1023).event 1023).alloc = false ∧ (0x80000000 : Word).getLsbD 31 = true ∧ ((wEvent wUp).hw.event (32 * (31 : Fin 32) + 31)).alloc = true := by decide +kernel

/-! Power, clocks, random sources and clusters. -/

/-- A block in a rung, with a transition. -/
def wRung (r : Rung) (moving : Option Rung) (auto clockWait : Bool) : Hw := { wUp with pow := { rung := r, moving := moving, queued := none, clockWait := clockWait, auto := auto } }

theorem test_Profiles : 2 ≤ fld (2 : Word) 0 2 ∧ fld (0x11 : Word) 0 2 < 2 ∧ bit (0x11 : Word) 4 = true ∧ bit (1 : Word) 4 = false ∧ (wRung .u0 none false false).pow.queued = none ∧
    (wRung .u3 none false false).pow.rung = .u3 ∧ (wRung .u0 none false false).regBit Reg.PWR_PROFILE_ACT 31 = false ∧
    (((wRung .u3 none false false).setReg Reg.PWR_PROFILE 0x10).setReg Reg.PWR_PROFILE_ACT 0x80000000).regBit Reg.PWR_PROFILE_ACT 31 = true ∧
    bit (((wRung .u3 none false false).setReg Reg.PWR_PROFILE 0x10).reg Reg.PWR_PROFILE) 4 = true ∧ (wRung .u0 none false false).entering = false ∧
    (wRung .u2 none false false).pow.rung = .u2 ∧ (wRung .u2 none false false).pow.moving = none := by decide +kernel

theorem test_RungRequests : 6 ≤ fld (6 : Word) 0 3 ∧ fld (5 : Word) 0 3 = 5 ∧ wMember.joined = true ∧ wUp.joined = false ∧ fld (1 : Word) 0 3 = 1 ∧ (wQuiet [] 0).deterministic = true ∧
    wUp.deterministic = false ∧ Rung.ofNum 1 ≠ wUp.pow.rung ∧ fld (0 : Word) 0 3 = 0 ∧ (wRung .u5 none false false).pow.rung = .u5 ∧ (wRung .u1 none false false).pow.rung = .u1 ∧
    (wRung .u0 (some .u1) false false).pow.moving.isSome = true ∧ (wRung .u1 (some .u0) false false).pow.moving = some .u0 := by decide +kernel

theorem test_RungEntries : (wUp.setReg Reg.PWR_IDLE_U1 0).regF Reg.PWR_IDLE_U1 0 16 = 0 ∧ (wUp.setReg Reg.PWR_IDLE_U1 1).regF Reg.PWR_IDLE_U1 0 16 ≠ 0 ∧ (wUp.setReg Reg.PWR_IDLE_U2 1).regF Reg.PWR_IDLE_U2 0 16 ≠ 0 ∧
    wUp.pipelineWork = false ∧ wUp.deterministicDue = false ∧ wUp.deterministic = false ∧ wUp.pow.queued = none ∧ Rung.u0.num < Rung.u1.num ∧ Rung.u0.num < Rung.u2.num ∧ (∀ r ∈ [Rung.u1, .u2, .u3, .u4, .u5], (wRung .u0 (some r) false false).entryOk r = true) ∧
    ({ wRung .u0 (some .u3) false false with txns := [wTxn] } : Hw).entryOk .u3 = false ∧ ({ wRung .u0 (some .u3) true false with txns := [wTxn] } : Hw).entryOk .u3 = false ∧
    (wRung .u0 (some .u3) true false).pow.auto = true ∧ (wRung .u4 (some .u0) false true).pow.clockWait = true := by decide +kernel

theorem test_Wakes : wakesFrom Rung.u0 (15 : BitVec 4).toNat = false ∧ wakesFrom Rung.u3 (10 : BitVec 4).toNat = true ∧ wakesFrom Rung.u1 (1 : BitVec 4).toNat = true ∧
    (wRung .u0 (some .u2) false false).pow.moving = some .u2 ∧ (wRung .u2 (some .u0) false false).pow.moving = some .u0 ∧ (wRung .u2 (some .u0) false false).scu.held = [] ∧ (wRung .u2 (some .u4) false false).pow.moving = some .u4 ∧
    (∀ k, k < 17 → ((wRung .u2 (some .u0) false false).port k).waiting = []) := by decide +kernel

theorem test_TimeAndRail : wUp.clk.tpValid = true ∧ wUp.clk.now ≤ (1000 : BitVec 64).toNat ∧ (1000 : BitVec 64).toNat ≤ wUp.clk.now + 1000 ∧ wUp.clk.now + 1000 < (1001 : BitVec 64).toNat ∧
    ({ wUp with clk.tpValid := false } : Hw).clk.tpValid = false ∧ fld (wUp.perVal 0x013) 0 16 ≤ (fld (wUp.perVal 0x013) 16 16) ∧ fld (wUp.perVal 0x013) 16 16 < 0xFFFF := by decide +kernel

/-- A block with its random sources in a state. -/
def wRandom (trng drbg : Word) : Hw := (wUp.setReg Reg.CISTERN_TRNG_STAT trng).setReg Reg.CISTERN_DRBG_STAT drbg

/-- A block that programs a fuse, for a transition or without one. -/
def wFusing (stalled : Bool) (target : Option Lcs) : Hw := { wUp with lcs.prog := [⟨255, 1⟩], lcs.stalled := stalled, lcs.target := target }

theorem test_RandomSources : (wRandom 2 0).regBit Reg.CISTERN_TRNG_STAT 1 = true ∧ (wRandom 1 1).regBit Reg.CISTERN_TRNG_STAT 1 = false ∧ (wRandom 1 0).regBit Reg.CISTERN_DRBG_STAT 0 = false ∧
    (wRandom 0 1).regBit Reg.CISTERN_DRBG_STAT 0 = true ∧ (wRandom 0 1).regBit Reg.CISTERN_TRNG_STAT 0 = false ∧ (wRandom 1 1).regBit Reg.CISTERN_TRNG_STAT 0 = true ∧
    (wRung .u5 none false false).pow.rung = .u5 ∧ wUp.pow.rung ≠ .u5 ∧ wUp.lcs.prog = [] ∧ (wFusing true none).lcs.stalled = true ∧ (wFusing false none).lcs.prog ≠ [] ∧
    (wFusing false none).lcs.target = none ∧ (wFusing false (some .test)).eraseOpen = false ∧
    ({ wFusing false (some .prodOpen) with dmp.open_ := [wDmp .freshZero] } : Hw).eraseOpen = true ∧ (wRandom 2 1).regBit Reg.CISTERN_TRNG_STAT 1 = true ∧ (wFusing false (some .test)).lcs.target = some .test := by decide +kernel

/-- A block whose clusters 14 and 15 have a status word and a history. -/
def wClu (n q : Nat) (c : Clu) : Hw := { ((wUp.setReg (Reg.CLU_STAT 15) (BitVec.ofNat 32 n)).setReg (Reg.CLU_STAT 14) (BitVec.ofNat 32 q)) with clus := [(15, c)] }

theorem test_ClusterFails : (wClu 0 0 { Clu.fresh with gated := true }).pipeGated 15 (.stage 19 0) = true ∧ (wClu 0 0 { Clu.fresh with gated := true }).pipeGated 15 (.stage 20 0) = false ∧
    (wClu 0x11 0 Clu.fresh).cluIn 15 1 = true ∧ (wClu 0x11 0 Clu.fresh).pipeGated 15 (.unit 0) = false ∧ (wClu 1 0 Clu.fresh).cluIn 15 1 = false ∧ (wClu 1 0 Clu.fresh).cluAble 15 = false ∧ partner 15 = 14 ∧
    (wClu 0x31 0 Clu.fresh).cluAble 15 = true ∧ (wClu 0 0 Clu.fresh).cluAble 15 = true ∧ (wClu 0 0 Clu.fresh).cluAble 14 = true ∧ (wClu 0 1 Clu.fresh).cluAble 14 = false ∧
    (wClu 0 0 Clu.fresh).repairsFull 15 = false ∧ (wClu 0 0 { Clu.fresh with repairs := List.replicate 15 0 }).repairsFull 15 = true ∧
    (wClu 0 1 Clu.fresh).regBit (Reg.CLU_STAT (2 * (15 / 2))) 9 = false := by decide +kernel

theorem test_ClusterRepairs : (∀ k, k < 4 → (wClu 0 0 Clu.fresh).cluIn 15 k = false ∧ (wClu (1 + 16 * k) 0 Clu.fresh).cluIn 15 k = true) ∧ (wClu 0x11 0 Clu.fresh).resets = [] ∧
    ((wClu 0x11 0 { Clu.fresh with attempts := 2 }).clu 15).attempts < 3 ∧ 3 ≤ ((wClu 0x11 0 { Clu.fresh with attempts := 3 }).clu 15).attempts ∧
    ((wClu 0x11 0 { Clu.fresh with checkFailed := true }).clu 15).checkFailed = true ∧ (Clu.fresh).checkFailed = false ∧
    (wClu 0x21 0 Clu.fresh).regBit (Reg.CLU_STAT 15) 9 = false ∧ (wClu 0x21 0 Clu.fresh).cluAble (partner 15) = true ∧ (wClu 0x221 0 Clu.fresh).regBit (Reg.CLU_STAT 15) 9 = true := by decide +kernel

theorem test_ClusterControls : bit (1 : Word) 0 = true ∧ bit (1 : Word) 1 = false ∧ bit (2 : Word) 0 = false ∧ bit (2 : Word) 1 = true ∧ bit (0 : Word) 0 = false ∧ bit (0 : Word) 1 = false ∧
    (wClu 0 1 Clu.fresh).cluState (partner 15) ≠ 0 ∧ (wClu 0 0 Clu.fresh).cluState (partner 15) = 0 ∧ (wClu 0 0 Clu.fresh).cluState 15 = 0 ∧ (wClu 2 0 Clu.fresh).cluState 15 = 2 ∧
    (wClu 3 0 Clu.fresh).cluState 15 = 3 ∧ (wClu 4 0 Clu.fresh).cluState 15 = 4 ∧ (wClu 2 0 Clu.fresh).prime.ready = true := by decide +kernel

/-! Faults, resets, priming, the Event Well, counters, interrupts and registers. -/

/-- A raise of a source. -/
def wRaise (k : Nat) : Raise := ⟨k, 0, 0, 0, 0, false, []⟩

/-- A block with one raise on its way, and a source pending. -/
def wFaulty (inflight : List (Nat × Raise)) (hist : List HistEntry) : Hw := { wUp.setReg (Reg.FAULT_PEND 11) 1 with fcu.inflight := inflight, fcu.hist := hist }

theorem test_RaiseTaken : (wFaulty [(0, wRaise 9), (0, wRaise 0), (1, wRaise 0)] []).fcu.first = some (0, wRaise 0) ∧ (wFaulty [] []).inject.remaining = 0 ∧ sourceExists 88 = false ∧ sourceExists 383 = false ∧ sourceExists 0 = true ∧
    sourceExists 287 = true ∧ (wFaulty [] []).pending 352 = true ∧ (wFaulty [] []).pending 0 = false ∧ (wFaulty [] []).fcu.hist.length < 16 ∧
    16 ≤ (wFaulty [] (List.replicate 16 ⟨0, 0, 0, 0⟩)).fcu.hist.length ∧ domainOf 0 = some (.pair 0) ∧ domainOf 240 = some .bru ∧ (wFaulty [] []).inReset .bru = false ∧
    (∃ c, c < 8 ∧ bit (((wFaulty [] []).setReg (Reg.SEVTAB_REACT 7) 4).reactOf c) 2 = true) ∧ (∃ c, c < 8 ∧ bit ((wFaulty [] []).reactOf c) 2 = false) := by decide +kernel

theorem test_Injection : wMember.joined = true ∧ wUp.joined = false ∧ bit (1 : Word) 0 = true ∧ badSelect ((wUp.setReg Reg.INJECT_SEL 6).reg Reg.INJECT_SEL) = false ∧
    badSelect ((wUp.setReg Reg.INJECT_SEL 0x1E01).reg Reg.INJECT_SEL) = true ∧ bit (0x80000000 : Word) 31 = true ∧ sourceExists (fld (0x80000000 : Word) 0 9) = true ∧
    sourceExists (fld (0x8000017F : Word) 0 9) = false := by decide +kernel

/-- Queue 63 waits on a fence that its own later operation signals. -/
def wHang (hangs : List Candidate) : Hw :=
  { (wQueue .active (some (wBuf 0 [{ wOp 9 [(4, 4095), (8, 1)] .issued with started := true }, wOp 8 [(2, 1), (4, 4095), (8, 1)] .waiting]))).setReg Reg.HANG_CTL 1 with hangs := hangs }

/-- Its cycle. -/
def wCycle : HangStep := ⟨63, 0, 0, 4095, 63, (0xFFFFFFFF, 1)⟩

theorem test_Hangs : (wUp.setReg Reg.HANG_CTL 0).regBit Reg.HANG_CTL 0 = false ∧ (wUp.setReg Reg.HANG_CTL 1).regBit Reg.HANG_CTL 0 = true ∧ (wUp.setReg Reg.HANG_CTL 1).hangCycles = [] ∧
    (wHang []).hangCycles = [[wCycle]] ∧ (wHang []).hangConfirmed ((wHang []).hangCount [wCycle]) = false ∧
    (wHang [⟨[63], [4095], [0], [(0xFFFFFFFF, 1)], 3, 0⟩]).hangConfirmed ((wHang [⟨[63], [4095], [0], [(0xFFFFFFFF, 1)], 3, 0⟩]).hangCount [wCycle]) = true ∧ fromGuilty [wCycle] = wCycle :: [] ∧
    (wHang []).op 63 0 = some { wOp 9 [(4, 4095), (8, 1)] .issued with started := true } ∧ ((wHang []).queue 63).st = .active ∧
    (∀ u, u < 5 → wUp.unitBusy u = false) ∧ ({ wUp with pump.ranges := [wRange] } : Hw).unitBusy 1 = true := by decide +kernel

/-- A domain's reset in a phase. -/
def wResetting (d : Domain) (p : ResetPhase) : Hw := { wUp with resets := [⟨d, p, 0, none⟩] }

/-- A reset in CLEAR while a completion record of queue 63 is being written. -/
def wStatus (d : Domain) : Hw := { wResetting d .clear with cfe.queues := [(63, Queue.off)], dmp.open_ := [{ wDmp (.status 63) with write := true }] }

theorem test_DomainResets : Domain.ofNum (fld (12 : Word) 0 4) = none ∧ Domain.ofNum (fld (0x8000000B : Word) 0 4) = some .block ∧ (wResetting .block .drain).inReset .block = true ∧
    wUp.inReset .block = false ∧ (∀ r ∈ (wResetting .pump .clear).resets, r.dom = .pump → r.phase ≠ .fence ∧ r.phase ≠ .drain) ∧
    (∃ r ∈ (wResetting .block .fence).resets, r.dom = .block ∧ (r.phase = .fence ∨ r.phase = .drain)) ∧ wUp.pow.rung = .u0 ∧ { wTxn with stage := .queued }.inDomain .block = true ∧
    (∃ r ∈ (wResetting .block .clear).resets, r.dom = .block ∧ r.phase = .clear) ∧ (∃ q ∈ (wStatus .block).cfe.queues, (wStatus .block).statusOpen q.1 = true) ∧ (wResetting .block .clear).cfe.queues = [] ∧
    (wResetting .scu .test).tested .scu = true ∧ (∃ r ∈ (wResetting (.pair 7) .clear).resets, r.dom = .pair 7 ∧ r.phase = .clear) ∧ (wResetting .pump .clear).dom.leaving = [] ∧ (wResetting .scu .clear).tested .scu = true ∧
    ({ wUp with scu.booting := true } : Hw).tested .scu = false ∧ ((wResetting .scu .test).resets.find? fun x => x.dom == .scu && x.phase == .test) = some ⟨.scu, .test, 0, none⟩ ∧
    (∀ p, p < 17 → (wUp.port p).waiting = []) := by decide +kernel

/-- A block whose reset pin is held, or in a phase of priming. -/
def wPriming (pin : Option PrimeKind) (phase : Option (PrimeKind × Nat)) : Hw := { wUp with prime.pinHeld := pin, prime.phase := phase }

theorem test_PinResets : (wPriming (some .cold) none).prime.pinHeld = some .cold ∧ (wPriming (some .warm) none).prime.pinHeld ≠ some .cold ∧ (wPriming none none).prime.pinHeld = none ∧ (wPriming (some .cold) none).prime.phase = none := by decide +kernel

theorem test_Priming : (wPriming none none).prime.phase = none ∧ State.reset.hw.prime.phase = some (.cold, 1) ∧ (wPriming none (some (.warm, 1))).prime.phase = some (.warm, 1) ∧
    (∀ k ∈ [2, 3, 4], (wPriming none (some (.block, k))).prime.phase = some (.block, k)) ∧ katTries [] = ((0, 0), 1) ∧ (katTries [(1, 0), (0, 1), (1, 0), (0, 0)]).1 ≠ (0, 0) ∧ (wPriming none (some (.cold, 2))).prime.phase = some (.cold, 2) ∧
    wUp.regBit Reg.CISTERN_TRNG_STAT 1 = false ∧ (wRandom 2 0).regBit Reg.CISTERN_TRNG_STAT 1 = true ∧
    (wUp.setReg (0x15000 + offLock) 1).locked 0x15 = true ∧ wUp.locked 0x15 = false := by decide +kernel

/-- An Event Well with staged records, and so many post records to come. -/
def wWell (staging : List Staged) (post : Option Nat) (count : Word) : Hw :=
  { wUp with well := { wUp.well with staging := staging, postLeft := post }, per.vals := if count = 0 then [] else [(0x01A, count)] }

theorem test_WellWrites : (wWell [] none 0).well.staging = [] ∧ (wWell [.record WellRec.empty] none 0).well.staging = .record WellRec.empty :: [] ∧ (wWell [.record WellRec.empty] (some 2) 0).well.postLeft = some (0 + 2) ∧
    (wWell [.record WellRec.empty] (some 1) 0).well.postLeft = some 1 ∧ fld ((wWell [.trigger WellRec.empty] none 1).perVal 0x01A) 0 13 ≠ 0 ∧
    (wWell [.lostTrigger] none 1).well.staging = .lostTrigger :: [] := by decide +kernel

theorem test_WellTriggerWithoutPost : fld (({ wWell [.trigger WellRec.empty] none 0 with per.vals := [(0x01A, 0)] } : Hw).perVal 0x01A) 0 13 = 0 := by decide +kernel

/-- A secured session of the Management Port in which MGMT_AUTH has succeeded. -/
def wOperator : Session := ⟨5, .mgmt, true, true, 2, 0⟩

theorem test_WellCommands : ({ wUp with per.vals := [(0x018, 0)] } : Hw).wellArmed = false ∧ ({ wUp with per.vals := [(0x018, 0x8000)] } : Hw).wellArmed = true ∧ bit (1 : Word) 0 = true ∧
    ({ wUp with well.frozen := true } : Hw).well.frozen = true ∧ wUp.well.frozen = false ∧ wUp.well.gapNext = false ∧ wUp.operatorIn = false ∧ ({ wUp with scu.sessions := [wOperator] } : Hw).operatorIn = true ∧
    ((wWell (List.replicate 15 (.record WellRec.empty)) none 0).well.staging.filter Staged.isRecord).length < 16 := by decide +kernel

/-- A block in state DEV that exports its counters. -/
def wExport (now : Nat) : Hw := { (((wUp.setReg Reg.CNT_EXP_CTL 1).setReg Reg.DEBUG_CTL 4).setReg Reg.LCS_STATE 2) with cnt.exporting := now, cfe.btt := [(0, 0x30003)] }

theorem test_CounterCommands : pagePresent (0x24 : BitVec 7).toNat = false ∧ pagePresent (0x4F : BitVec 7).toNat = true ∧ cntClrOff (0x01 : BitVec 7).toNat = none ∧
    (cntClrOff (0x4F : BitVec 7).toNat).isSome = true ∧ (wUp.regBit Reg.CNT_EXP_CTL 0 && bit wUp.debugStat 2 && !wUp.regBit Reg.CNT_EXP_STAT 1) = false ∧
    ((wExport 0).regBit Reg.CNT_EXP_CTL 0 && bit (wExport 0).debugStat 2 && !(wExport 0).regBit Reg.CNT_EXP_STAT 1) = true ∧ 0 < (wExport 2).cnt.exporting ∧
    ((wExport 0).setReg Reg.PWR_PROFILE_ACT 0x10).deterministic = true ∧ ((wExport 0).setReg Reg.PWR_PROFILE_ACT 0x10).quietOpen = false ∧
    ((wExport 0).setReg Reg.PWR_PROFILE_ACT 0x10).backgroundNow = false ∧ (wExport 0).backgroundNow = true := by decide +kernel

/-- A block with an interrupt presented. -/
def wIrq (presented : Option (Option Nat × BitVec 48)) (ready : BitVec 64) : Hw := { wUp with icu.presented := presented, icu.ready := ready, icu.since := [(63, 65535)] }

theorem test_Interrupts : ¬(max (wUp.regF (Reg.ICU_VCFGv (63 : Fin 64)) 0 16) 1 ≤ wUp.icu.since.get 0 63 ∨ (0 < wUp.regF (Reg.ICU_VCFGv (63 : Fin 64)) 16 16 ∧ 0 < wUp.icu.timer.get 0 63)) ∧
    max ((wIrq none 0).regF (Reg.ICU_VCFGv (63 : Fin 64)) 0 16) 1 ≤ (wIrq none 0).icu.since.get 0 63 ∧ (wIrq none 0).icu.presented = none ∧ (wIrq none 0).pow.rung ≠ .u4 ∧ (wIrq none 0).pow.rung ≠ .u5 ∧ (wIrq none 0).regBit Reg.ICU_TRAP_STAT 31 = false ∧
    (∀ k, k < 63 → (wIrq none 0).icu.ready.getLsbD k = false) ∧ (wIrq (some (some 63, 0)) ((1 : BitVec 64) <<< 63)).icu.presented = some (some 63, 0) ∧
    (wIrq (some (some 63, 0)) ((1 : BitVec 64) <<< 63)).icu.ready = (1 : BitVec 64) <<< 63 ∧ (wIrq (some (none, 0)) 0).icu.presented = some (none, 0) ∧ (wIrq (some (none, 0)) 0).icu.ready = 0 := by decide +kernel

theorem test_PageHeaders : pagePresent (0x2F : BitVec 7).toNat = false ∧ pagePresent (0x50 : BitVec 7).toNat = false ∧ pagePresent (0 : BitVec 7).toNat = true ∧ pagePresent (0x30 : BitVec 7).toNat = true := by decide +kernel

theorem test_RegisterPort : pagePresent (pageOf (0x24000 : BitVec 19).toNat) = false ∧ (∃ p, p < 0x24 ∧ pageMgmt p = true) ∧ mgmtOnly (0x00040 : BitVec 19).toNat = false ∧
    pagePresent (pageOf (0x00040 : BitVec 19).toNat) = true ∧ (rowOf Reg.GATE_RACKS).isSome = true ∧ wUp.locked (pageOf Reg.GATE_RACKS) = false ∧ takenAs Reg.GATE_RACKS = [] := by decide +kernel

/-- A block with persistent writes under way. -/
def wPersisting (queue : List PsWrite) (issued : Option PsWrite) : Hw := { wUp with per.queue := queue, per.issued := issued }

theorem test_PersistentWrites : wUp.operatorIn = false ∧ ({ wUp with scu.sessions := [wOperator] } : Hw).operatorIn = true ∧ (∀ m, mirrorOf 0x1FF = some m → wUp.perWorn m = false) ∧ mirrorOf 5 = some 0x85 ∧ wUp.perWorn 0x85 = false ∧
    wUp.rwpWord (0x00040 : BitVec 19).toNat = none ∧ (wUp.setReg Reg.PERSIST_MSEL 0x1FF).rwpWord (BitVec.ofNat 19 Reg.PERSIST_MVAL).toNat = some (0x1FF, .mval) ∧
    wUp.perRefusal .mval 0x015 0 = some 4 ∧ wUp.perRefusal .mval 0x1FF 0 = none ∧ wUp.per.queue = [] ∧ (wPersisting [⟨511, 1, 1, none, 0x21⟩] none).per.queue = ⟨511, 1, 1, none, 0x21⟩ :: [] ∧
    (wPersisting [] (some ⟨511, 1, 1000000, none, 0x21⟩)).per.issued = some ⟨511, 1, 1000000, none, 0x21⟩ ∧ (wPersisting [] none).per.issued = none := by decide +kernel

theorem test_TestPort : wMember.joined = true ∧ wUp.joined = false ∧ (wUp.setReg Reg.LCS_STATE 6).lcsState = .scrap ∧ (wUp.setReg Reg.LCS_STATE 3).lcsState = .prod ∧
    (0x1F : BitVec 5) ≠ 0 ∧ (0x1F : BitVec 5) ≠ 0x10 ∧ (0x1F : BitVec 5) ≠ 0x11 := by decide +kernel

/-! The SCU: messages, sessions, joins and leaves, management operations, firmware and the life cycle. -/

/-- A session of a path. -/
def wSession (path : Path) (auth : Bool) : Session := ⟨5, path, true, auth, 2, 0⟩

/-- A session that KEY_EXCHANGE has opened. -/
def wOpened (path : Path) : Session := { wSession path false with up := false }

/-- A block whose firmware serves, with sessions, a message in the mailbox, and one that the Management Port has reassembled. -/
def wScu (sessions : List Session) (type : Nat) : Hw :=
  { ((wUp.setReg 0x15010 1).setReg Reg.ATTEST_MBX_STAT 1).setReg Reg.CISTERN_DRBG_STAT 1 with scu.sessions := sessions, scu.inbox := [(type, 65535, [])] }

/-- It once the message of the Management Port has been taken. -/
def wTaken (h : Hw) : Hw := { h with scu.inbox := [] }

theorem wScu_same (sessions : List Session) (type : Nat) : (wScu sessions type).scuClocked = (wScu [] 0).scuClocked ∧ (wScu sessions type).drbgReady = (wScu [] 0).drbgReady ∧
    (wScu sessions type).mbxWaits = (wScu [] 0).mbxWaits ∧ (wScu sessions type).romServes = (wScu [] 0).romServes ∧ (wScu sessions type).scuUp = (wScu [] 0).scuUp ∧
    (wScu sessions type).updPhase = (wScu [] 0).updPhase := ⟨rfl, rfl, rfl, rfl, rfl, rfl⟩

theorem wScu_runs : (wScu [] 0).scuClocked = true ∧ (wScu [] 0).drbgReady = true ∧ (wScu [] 0).mbxWaits = true ∧ (wScu [] 0).romServes = false ∧ (wScu [] 0).scuUp = true ∧ (wScu [] 0).updPhase ≠ 3 := by decide +kernel

theorem wScu_host (sessions : List Session) (type : Nat) (r : ScuReq) (hr : r.path = .host) : ScuTakes (wScu sessions type) r 0 (wScu sessions type).mbxRead :=
  ⟨(wScu_same sessions type).1.trans wScu_runs.1, fun _ => (wScu_same sessions type).2.1.trans wScu_runs.2.1, rfl, rfl, .inl ⟨hr, (wScu_same sessions type).2.2.1.trans wScu_runs.2.2.1, rfl, rfl⟩⟩

theorem wScu_mgmt (sessions : List Session) (r : ScuReq) (hr : r.path = .mgmt) : ScuTakes (wScu sessions r.frameType) r 65535 (wTaken (wScu sessions r.frameType)) :=
  ⟨(wScu_same _ _).1.trans wScu_runs.1, fun _ => (wScu_same _ _).2.1.trans wScu_runs.2.1, rfl, rfl, .inr ⟨hr, [], [], rfl, rfl⟩⟩

theorem wScu_serves (sessions : List Session) (type : Nat) (r : ScuReq) : ScuServes (wScu sessions type) r :=
  ⟨(wScu_same _ _).2.2.2.1.trans wScu_runs.2.2.2.1, (wScu_same _ _).2.2.2.2.1.trans wScu_runs.2.2.2.2.1, fun h => absurd ((wScu_same _ _).2.2.2.2.2.symm.trans h) wScu_runs.2.2.2.2.2⟩

/-- Any message of a session on the management path. -/
theorem test_InSession_mgmt (c : Sys2Proof.Instr) (auth : Bool) (m : AppMsg) (hc : asks c = some (.app .mgmt 5 m)) :
    InSession c (wScu [wSession .mgmt auth] 2) (wSession .mgmt auth) ⟨65535, .app .mgmt 5 m⟩ ((wTaken (wScu [wSession .mgmt auth] 2)).touchSession 5) :=
  ⟨.mgmt, 5, m, _, hc, rfl, wScu_mgmt _ (.app .mgmt 5 m) rfl, wScu_serves _ _ _, by rfl, rfl⟩

/-- Any message of a session on the host path. -/
theorem test_InSession_host (c : Sys2Proof.Instr) (auth : Bool) (m : AppMsg) (hc : asks c = some (.app .host 5 m)) :
    InSession c (wScu [wSession .host auth] 2) (wSession .host auth) ⟨0, .app .host 5 m⟩ ((wScu [wSession .host auth] 2).mbxRead.touchSession 5) :=
  ⟨.host, 5, m, _, hc, rfl, wScu_host _ _ (.app .host 5 m) rfl, wScu_serves _ _ _, by rfl, rfl⟩

theorem test_ScuTakesMessages : asks (.getVersion .host) = some (.spdm .host .getVersion) ∧ wUp.mbxWaits = false ∧ wUp.scu.inbox.head?.map (·.1) ≠ some 1 ∧
    ScuReq.needsDrbg (.spdm .host (.keyExchange 2 [])) = true ∧ wUp.drbgReady = false ∧ (wUp.setReg Reg.ATTEST_MBX_STAT 1).mbxWaits = true ∧ wUp.scuUp = false ∧ wUp.romServes = false ∧
    wUp.scu.held = [] ∧ wUp.scu.frames = [] ∧ ({ wUp with pow.rung := .u2 } : Hw).scuClocked = false ∧ ScuReq.needsDrbg (.spdm .host .getVersion) = false ∧ ((wScu [] 1).setReg Reg.SCU_UPD_STAT 3).updPhase = 3 ∧ ((wScu [] 1).setReg Reg.SCU_UPD_STAT 3).romServes = false ∧
    ScuReq.heldInProbation (.spdm .host .getVersion) = true ∧ ScuReq.attests (.spdm .host .getVersion) = none ∧ (wUp.setReg 0x15010 2).romServes = true ∧
    (wScu [wOpened .host] 2).secured .host 5 = none ∧ asks (.state .host 5) = some (.app .host 5 (.op .state)) := by decide +kernel

theorem test_SpdmAnswers_taken (r : SpdmReq) (path : Path) : ∃ msg u, ScuTakes (wScu [wOpened path] 1) (.spdm path r) msg u ∧ ScuServes (wScu [wOpened path] 1) (.spdm path r) := by
  cases path
  · exact ⟨_, _, wScu_host _ _ (.spdm .host r) rfl, wScu_serves _ _ _⟩
  · exact ⟨_, _, wScu_mgmt _ (.spdm .mgmt r) rfl, wScu_serves _ _ _⟩

/-- The alias keys and DeviceID are in their slots, with a certificate store. -/
def wAlias : Hw := { wUp with scu.cert := some [1], cis.slots := [(4, derivedSlot 2 0xA0), (6, derivedSlot 2 0xA0), (7, derivedSlot 2 0xA0)].map fun p => (p.1, { p.2 with st := 1 }) }

theorem test_SpdmAnswers : wUp.certChain 2 = none ∧ wAlias.certChain 2 = some [1] ∧ wAlias.certChain 3 = none ∧ wUp.hasAlias = false ∧ wAlias.hasAlias = true ∧ wAlias.measIndex 0x20 = none ∧ wAlias.measIndex 0 = none ∧
    (wAlias.measIndex 5).isSome = true ∧ ((wScu [wOpened .mgmt] 1).scu.sessions.find? fun y => y.id == 5 && y.path == Path.mgmt && !y.up) = some (wOpened .mgmt) ∧
    ((wScu [wSession .mgmt true] 1).scu.sessions.find? fun y => y.id == 5 && y.path == Path.mgmt && !y.up) = none := by decide +kernel

/-- A frame for this block, whose body starts with a header. -/
def wMgmtFrame (body : List Byte) (err : Bool) : MgmtFrame :=
  ⟨BitVec.ofNat 48 ((wUp.macWord false).toNat + 2 ^ 32 * fld (wUp.macWord true) 0 16), 1, BitVec.ofNat 16 (fld (wUp.perVal 0x012) 0 16), 1518, err, body⟩

theorem test_MessagesArrive : State.reset.hw.prime.ready = false ∧ wUp.frameOk (wMgmtFrame [] true) = false ∧ wUp.frameOk (wMgmtFrame [] false) = true ∧ wUp.frameFits (wMgmtFrame [] false) = true ∧ wUp.scuClocked = true ∧ wUp.scu.frames = [] ∧
    ({ wUp with pow.rung := .u2 } : Hw).scuClocked = false ∧ ({ wUp with pow.rung := .u2, scu.frames := List.replicate 10 (wMgmtFrame [] false) } : Hw).frameFits (wMgmtFrame [] false) = false ∧
    ({ wUp with pow.rung := .u2, scu.frames := List.replicate 9 (wMgmtFrame [] false) } : Hw).frameFits (wMgmtFrame [] false) = true ∧
   
    (∀ body ∈ [[1, 2, 255, 255, 0, 0, 1, 0, 9], [1, 1, 0, 0, 0, 0, 1, 0]], wUp.frameOk (wMgmtFrame body false) = true ∧ 8 ≤ body.length ∧ body.length ≤ 1500 ∧ imgField body 0 1 = 1 ∧
      (imgField body 1 1 = 1 ∨ imgField body 1 1 = 2) ∧ imgField body 4 2 = 0 ∧ imgField body 6 2 = 1) ∧ wUp.lcsState ≠ .scrap ∧ wUp.scu.frag = none ∧
    (∀ body ∈ [[1, 2, 0, 0, 0, 0, 0], [2, 2, 0, 0, 0, 0, 1, 0], [1, 2, 0, 0, 0, 0, 0, 0], [1, 2, 0, 0, 0, 0, 45, 0]], wUp.frameOk (wMgmtFrame body false) = true ∧
      (body.length < 8 ∨ imgField body 0 1 ≠ 1 ∨ imgField body 6 2 = 0 ∨ 44 < imgField body 6 2)) ∧ bit (0xFFFFFFFE : Word) 0 = false ∧ bit (1 : Word) 0 = true ∧
    wUp.regBit Reg.ATTEST_MBX_STAT 0 = false ∧ (wUp.setReg Reg.ATTEST_MBX_STAT 0xFF01).regBit Reg.ATTEST_MBX_STAT 0 = true := by decide +kernel

/-- A block in state DEV that a join can find configured. -/
def wJoinable (path : Path) : Hw :=
  { [Reg.REGION_TABLE_BASE_LO, Reg.REGION_DIR_BASE_LO, Reg.REGION_MAP_BASE_LO, Reg.REGION_MAP_COUNT, Reg.GKT_PART_BASE_LO, Reg.BRU_FRESH_BASE_LO, Reg.CFE_BTT_BASE_LO].foldl (fun h a => h.setReg a 4096)
      (((wScu [{ wSession path false with slot := 0 }] 2).setReg Reg.LCS_STATE 2).setReg Reg.GATE_APERTURE 0x80000000) with
    scu.running := some ⟨0, 0, 0, 65535⟩, scu.join := some ⟨5, path, { wPolicy with homeMap := [65535] }, 0, 0⟩ }

/-- The configuration lets a join pass; what is left to its code is the policy, the keys and the signature, which this model leaves open. -/
theorem test_Joins : (wUp.joinReqCode (wSession .host true) 0 [] [] [] ≠ 0) ∧ wUp.joinKeyCode (wSession .host true) [] 0 ≠ 0 ∧
    (∀ path ∈ [Path.host, .mgmt], (wJoinable path).joinBarred = false ∧ (wJoinable path).configSet = true ∧ (wJoinable path).scu.join = some ⟨5, path, { wPolicy with homeMap := [65535] }, 0, 0⟩) := by decide +kernel

/-- What JOIN_REQ of an image of no bytes finds on it once its message has been taken. -/
theorem test_Joins_code (p : Policy) (n : List Byte) (hp : Config.policyOf [] = some (p, n)) (hs : (p.sponsors.any fun k => Config.verify k ([] ++ beBytes (BitVec.toNat (0 : BitVec 384)) 48) []) = true) (hv : p.minSvn ≤ 65535) :
    (((wJoinable .host).mbxRead.touchSession 5).dmRead .mailbox none 0 0 0).joinReqCode { wSession .host false with slot := 0 } (Config.sha384 []) [] [] [] = 0 := by
  have a : (((wJoinable .host).mbxRead.touchSession 5).dmRead .mailbox none 0 0 0).joinBarred = false := by decide +kernel
  have b : (((wJoinable .host).mbxRead.touchSession 5).dmRead .mailbox none 0 0 0).configSet = true := by decide +kernel
  have r : (((wJoinable .host).mbxRead.touchSession 5).dmRead .mailbox none 0 0 0).scu.running = some ⟨0, 0, 0, 65535⟩ := by decide +kernel
  have v : ¬65535 < p.minSvn := by omega
  generalize (((wJoinable .host).mbxRead.touchSession 5).dmRead .mailbox none 0 0 0) = g at a b r ⊢
  unfold Hw.joinReqCode
  rw [a, b, hp, r]
  simp only [wSession, hs, v, Bool.false_eq_true, if_false, Bool.not_true, decide_false, ne_eq, not_true_eq_false]

/-- A member with sessions. -/
def wLeaving (updPhase : Word) (leaving : List Nat) : Hw :=
  { (((wScu [wSession .mgmt true] 2).setReg Reg.CAP_MEMBER 0x80000001).setReg Reg.SCU_UPD_STAT updPhase).setSlice 1023 (wSlice .active) with dom.policy := some { wPolicy with sponsors := [] }, dom.leaving := leaving }

theorem test_Leaves : (!(wLeaving 0 []).joined || (match (wLeaving 0 []).dom.policy with | some p => p.sponsors | none => []).any fun k => Config.verify k ((0x45 : Byte) :: beBytes 0 48) []) = false ∧
    (!wUp.joined || (match wUp.dom.policy with | some p => p.sponsors | none => []).any fun k => Config.verify k ((0x45 : Byte) :: beBytes 0 48) []) = true ∧ 2 ≤ (wLeaving 2 []).updPhase ∧
    (wLeaving 0 [3]).dom.leaving ≠ [] ∧ (wLeaving 0 []).updPhase < 2 ∧ (wScu [] 2).joined = false ∧ (wLeaving 0 []).joined = true ∧ ((wLeaving 0 []).slice 1023).st = .active ∧
    (wLeaving 0 []).secured .mgmt 5 = some (wSession .mgmt true) ∧ (wLeaving 0 []).scuUp = true ∧ (wLeaving 0 []).romServes = false ∧
    (wLeaving 0 []).scu.inbox = (ScuReq.frameType (.app .mgmt 5 (.op .domainLeave)), 65535, []) :: [] := by decide +kernel

theorem test_SessionMessages : asks (.mgmtAuth .mgmt 5 [] []) = some (.app .mgmt 5 (.mgmtAuth [] [])) ∧ asks (.ideRefreshReq .host 5 255) = some (.app .host 5 (.ideRefresh (255 : BitVec 8).toNat)) ∧
    ((wScu [] 2).ideStreams = []) ∧ (0xFF : BitVec 8).toNat ∈ ({ wMember with dom.policy := some { wPolicy with hosts := [255] } } : Hw).ideStreams ∧
    ({ wUp with ide.pending := [wDelivery false] } : Hw).ideBusy 255 = true ∧ wUp.ideBusy 255 = false ∧ ({ wUp with dom.leaving := [3] } : Hw).dom.leaving ≠ [] ∧
    (wSession .mgmt true).auth = true ∧ (wSession .mgmt false).auth = false ∧ pagePresent (pageOf (0x24000 : BitVec 20).toNat) = false ∧ pagePresent (pageOf (0x00040 : BitVec 20).toNat) = true ∧
    wUp.rwpWord (0x00040 / 4 * 4) = none ∧ (wUp.setReg Reg.PERSIST_MSEL 0x1FF).rwpWord (Reg.PERSIST_MVAL / 4 * 4) = some (0x1FF, .mval) ∧ wUp.perRefusal .mval 0x1FF 0 = none ∧
    wUp.perRefusal .mval 0x015 0 = some 4 := by decide +kernel

theorem test_SessionMessages_operator : ({ wUp with per.vals := (List.range 12).map fun k => (3 + k, 0xFFFFFFFF) } : Hw).operatorOk (wSession .mgmt false) [] [] = false := by decide +kernel

/-- A staged image. -/
def wFw (bank : Nat) : FwInfo := ⟨bank, 0, 1, 65535⟩

/-- A block at a phase of an update. -/
def wUpdating (phase : Word) (running staged : Option FwInfo) : Hw :=
  { (wScu [wSession .mgmt true] 2).setReg Reg.SCU_UPD_STAT phase with scu.running := running, scu.staged := staged, scu.old := some (wFw 0) }

theorem test_FirmwareRuns : (wUpdating 0 none none).scu.held = [] ∧ (wUpdating 3 (some (wFw 1)) none).scuClocked = true ∧ wUp.scu.booting = false ∧ ({ wUp with scu.booting := true } : Hw).scu.booting = true ∧ wUp.prime.entropyFailed = false ∧
    wUp.dom.leaving = [] ∧ wUp.lcs.target = none ∧ wUp.imageOk [] = false ∧ wUp.scu.running = none ∧ (wUpdating 0 (some (wFw 1)) none).scu.running = some (wFw 1) ∧
    wUp.updPhase ≠ 2 ∧ (wUpdating 2 (some (wFw 0)) (some (wFw 1))).updPhase = 2 ∧ (wUpdating 2 (some (wFw 0)) (some (wFw 1))).scu.staged = some (wFw 1) ∧ wUp.updPhase ≠ 3 ∧ (wUpdating 3 (some (wFw 1)) none).updPhase = 3 ∧
    (({ wUpdating 3 (some (wFw 1)) none with scu.held := [⟨0, .spdm .host (.getMeasurements 1 [])⟩] } : Hw).scu.held.filter fun y => y.req.attests.isSome).head? = some ⟨0, .spdm .host (.getMeasurements 1 [])⟩ := by decide +kernel

/-- The least image that the ROM of a RAW block accepts, whose digest is that of its one byte of code. -/
def wImage (digest : BitVec 384) : FwImage :=
  leBytes 0x57564E55 4 ++ leBytes 1 4 ++ leBytes 0 4 ++ [255, 255, 255, 0] ++ leBytes 1 4 ++ leBytes 0 4 ++ beBytes digest.toNat 48 ++ List.replicate (0x1400 - 0x48) 0 ++ [0]

/-- What the ROM checks of an image before its digest, on this one. -/
theorem test_FirmwareRuns_image : wUp.lcsState = .raw ∧ imgField (wImage 0) 0x000 4 = 0x57564E55 ∧ imgField (wImage 0) 0x004 4 = 1 ∧ imgField (wImage 0) 0x010 4 = 1 ∧
    imgField (wImage 0) 0x014 4 < 1 ∧ imgField (wImage 0) 0x00E 1 = 0xFF ∧ (wUp.perVal 1).toNat ≤ imgField (wImage 0) 0x00C 2 ∧ imgCode (wImage 0) = 0 :: [] := by decide +kernel

theorem test_FirmwareUpdates : (wUpdating 0 (some (wFw 0)) none).updPhase ≠ 3 ∧ (wUpdating 2 (some (wFw 0)) none).updPhase = 2 ∧ (wUpdating 0 (some (wFw 0)) none).scu.join.isSome = false ∧
    (wUpdating 0 (some (wFw 0)) none).dom.leaving = [] ∧ (wUpdating 0 (some (wFw 0)) none).lcs.target.isSome = false ∧ (wUpdating 0 (some (wFw 0)) none).imageOk [] = false ∧
    (wUpdating 3 (some (wFw 1)) none).updPhase = 3 ∧ (wUpdating 3 (some (wFw 1)) none).scu.running = some (wFw 1) ∧ (wUpdating 3 (some (wFw 1)) none).perRefusal .scu 2 (BitVec.ofNat 32 (wFw 1).bank) = none ∧
    ((wUpdating 3 (some (wFw 1)) none).perVal 1).toNat < (wFw 1).svn ∧ (wUpdating 3 (some (wFw 1)) none).perRefusal .scu 1 (BitVec.ofNat 32 (wFw 1).svn) = none := by decide +kernel

/-- A ROM-only block with a recovery frame. -/
def wRom : Hw := { wUp.setReg 0x15010 2 with scu.inbox := [(4, 65535, [])] }

theorem test_RomOnly (op : MgmtOp) (store : List Byte) : ScuTakes wRom (.rom op store) 65535 (wTaken wRom) ∧ wRom.romServes = true ∧ wRom.imageOk [] = false ∧
    wRom.perRefusal .scu 2 (BitVec.ofNat 32 (1 - wRom.activeBank)) = none ∧ wRom.prime.entropyFailed = false ∧ wRom.dom.leaving = [] ∧ wRom.lcs.target = none :=
  ⟨⟨rfl, fun h => absurd h Bool.false_ne_true, rfl, rfl, .inr ⟨rfl, [], [], rfl, rfl⟩⟩, by decide +kernel⟩

theorem test_LifeCycle : (wUpdating 2 none none).updPhase = 2 ∧ ({ wUp with lcs.target := some .test } : Hw).lcs.target.isSome = true ∧ (wUp.setReg Reg.LCS_STATE 0x10).regBit Reg.LCS_STATE 4 = true ∧
    wUp.regBit Reg.LCS_STATE 4 = false ∧ Lcs.ofNum 1 = .test ∧ wUp.lcsRefusal (Lcs.ofNum 1) none = none ∧ wUp.lcsRefusal (Lcs.ofNum 6) none = none ∧ wUp.lcsRefusal (Lcs.ofNum 0) none = some 6 ∧
    (wUp.setReg Reg.LCS_STATE 2).lcsRefusal (Lcs.ofNum 3) none = some 2 ∧ wUp.lcs.prog = [] ∧ (wFusing false (some .test)).eraseOpen = false ∧ ({ wFusing false (some .prodOpen) with dmp.open_ := [wDmp .freshZero] } : Hw).eraseOpen = true ∧
    (wFusing false (some .test)).lcs.prog = ⟨255, 1⟩ :: [] ∧ (wFusing false (some .test)).lcs.target = some .test ∧
    (wFusing false none).lcs.target = none ∧ ((wFusing false none).setReg 0x15010 1).scuUp = true := by decide +kernel

/-! Numbers, fences, the window before priming ends, and the queue. -/

theorem test_NoAccessBeforeReady : State.reset.hw.prime.ready = false := by decide +kernel

theorem test_SignedLanes : (∀ v ∈ [-0x3FFFFFFF, -1, 0, 0x3FFFFFFF], -((sbiP : Int) - 1) / 2 ≤ v ∧ v ≤ ((sbiP : Int) - 1) / 2) ∧
    (∀ x ∈ [0, 0x3FFFFFFF, 0x40000000, 0x7FFFFFFE], sbiCanonical x = true) ∧ sbiCanonical 0x7FFFFFFF = false := by decide +kernel

theorem test_FencesCompareSerially : fenceLower 1 0xFFFFFFFFFFFFFFFF = true ∧ fenceLower 0xFFFFFFFFFFFFFFFF 1 = false ∧ fenceLower 0 0x8000000000000000 = false ∧
    fenceReaches 1 0xFFFFFFFFFFFFFFFF = true ∧ fenceReaches 0 0x8000000000000000 = false := by decide +kernel

theorem test_StepRunsTheFrontCommand : State.reset.pending = [] := rfl

theorem test_StoresStayCanonical : Nv.wf State.reset.nv ∧ (∃ t, step State.reset = .next t) := ⟨by simp [Nv.wf, State.reset, Tbl.wf, Tbl.wfFrom], _, rfl⟩

/-! Operands that no signal of the block can spell are refused. -/

/-- A message with more lines than its data flits hold, and one with more data flits than a message has. -/
def wBadMsgs : List Message := [{ wMsg [] with lines := [⟨0, 0⟩] }, ⟨{ wHdr with dflits := 17 }, 0, []⟩]

theorem test_ill_formed_messages : ∀ m ∈ wBadMsgs, (Sys2Proof.Instr.sealLoadResponse 0 m).wf = false ∧ (Sys2Proof.Instr.gktGet m .stored .stored []).wf = false ∧ (Sys2Proof.Instr.gktEntry 0 m).wf = false ∧
    (Sys2Proof.Instr.gktOpen m).wf = false ∧ (Sys2Proof.Instr.gktAck m [] []).wf = false ∧ (Sys2Proof.Instr.gktClose m).wf = false ∧ (Sys2Proof.Instr.pumpReadAnswer 0 m).wf = false ∧
    (Sys2Proof.Instr.condWriteAnswer 0 m).wf = false ∧ (Sys2Proof.Instr.fabricResponse 0 m).wf = false ∧ (Sys2Proof.Instr.keyUpdate 0 m).wf = false ∧ (Sys2Proof.Instr.fenceRemote m).wf = false ∧
    (Sys2Proof.Instr.bulkPut 0 m).wf = false ∧ (Sys2Proof.Instr.bulkGet m).wf = false ∧ (Sys2Proof.Instr.blExpmaxAnswer 0 m).wf = false ∧ (Sys2Proof.Instr.blindAnswer 0 m []).wf = false := by decide +kernel

theorem test_ill_formed_indices : (Sys2Proof.Instr.nop 0 4096).wf = false ∧ (Sys2Proof.Instr.sealCopy 0 4096).wf = false ∧ (Sys2Proof.Instr.bulkMove 0 4096).wf = false ∧
    (Sys2Proof.Instr.blindReduce 0 4096 0 0 []).wf = false ∧ (Sys2Proof.Instr.collectiveOpened 0 4096 ⟨.stored, [], []⟩ ⟨.stored, [], []⟩ []).wf = false ∧ (Sys2Proof.Instr.blContribSend 0 4096 [] []).wf = false ∧
    (Sys2Proof.Instr.tGroupExpiry 0 4096).wf = false ∧ (Sys2Proof.Instr.collectiveClose 0 4096).wf = false ∧ (Sys2Proof.Instr.dispatch 0 4096 0 [] [] []).wf = false ∧ (Sys2Proof.Instr.combine 0 4096 0 [] []).wf = false ∧
    (Sys2Proof.Instr.rekeyStart 0 4096 [] []).wf = false ∧ (Sys2Proof.Instr.rekeyAbort 0 4096).wf = false ∧ (Sys2Proof.Instr.fenceSignal 0 4096).wf = false ∧ (Sys2Proof.Instr.fenceWait 0 4096).wf = false ∧
    (Sys2Proof.Instr.fenceWaitTimeout 0 4096).wf = false ∧ (Sys2Proof.Instr.eventSet 0 4096).wf = false ∧ (Sys2Proof.Instr.barrier 0 4096).wf = false ∧ (Sys2Proof.Instr.measure 0 4096 [] []).wf = false ∧
    (Sys2Proof.Instr.familyOpen 0 4096).wf = false ∧ (Sys2Proof.Instr.keyErase 0 4096).wf = false ∧ (Sys2Proof.Instr.retireEpoch 0 4096).wf = false ∧ (Sys2Proof.Instr.certify 0 4096 []).wf = false ∧
    (Sys2Proof.Instr.create 0 4096 [] []).wf = false ∧ (Sys2Proof.Instr.destroy 0 4096 [] []).wf = false ∧ (Sys2Proof.Instr.share 0 4096 [] []).wf = false ∧ (Sys2Proof.Instr.unshare 0 4096 [] []).wf = false ∧
    (Sys2Proof.Instr.setFill 0 4096 [] []).wf = false ∧ (Sys2Proof.Instr.drbgWaitTimeout 0 4096).wf = false ∧ (Sys2Proof.Instr.cfeTransferPresent 0 4096 [] 0 []).wf = false ∧ (Sys2Proof.Instr.nop 0 4095).wf = true := by decide +kernel

theorem test_ill_formed_operands : (Sys2Proof.Instr.windowResolutionDone 0 (2 ^ 29)).wf = false ∧ (Sys2Proof.Instr.regionWalkRead 0 (2 ^ 29) .stored 0).wf = false ∧ (Sys2Proof.Instr.gktPartitionRead (2 ^ 25) .stored).wf = false ∧
    (Sys2Proof.Instr.ingressFlit 0 ⟨0, 0, 0, 0, List.replicate 65 ⟨0, 0⟩⟩).wf = false ∧ (Sys2Proof.Instr.ringEntryFetch 0 0 (List.replicate 128 0) [] [] []).wf = false ∧
    (Sys2Proof.Instr.ringEntryFetch 0 0 [] (List.replicate 512 0) [] []).wf = false ∧ (Sys2Proof.Instr.preload 0 0 [8192] [] [] []).wf = false ∧ (Sys2Proof.Instr.preload 0 0 [] [65536] [] []).wf = false ∧
    (Sys2Proof.Instr.faultRaise (some (wRaise 384))).wf = false ∧ (Sys2Proof.Instr.faultRaise (some { wRaise 0 with fences := List.replicate 9 0 })).wf = false ∧
    (Sys2Proof.Instr.spdmUnsupported .host (some (0, 256, none))).wf = false ∧ (Sys2Proof.Instr.spdmUnsupported .host (some (0, 0, some 10))).wf = false ∧ (Sys2Proof.Instr.romRecovery (.reserved 10) []).wf = false ∧
    (Sys2Proof.Instr.romRecovery (.regRead (2 ^ 20)) []).wf = false ∧ (Sys2Proof.Instr.romRecovery (.regWrite (2 ^ 20) 0) []).wf = false ∧ (Sys2Proof.Instr.romRecovery (.lcsTransition 8 none) []).wf = false ∧
    (Sys2Proof.Instr.lcsTransition .mgmt 0 8 none).wf = false ∧ (Sys2Proof.Instr.clockWindow none none none []).wf = false := by decide +kernel

theorem test_ill_formed_buffer : (Sys2Proof.Instr.ringEntryFetch 0 0 [] [] (List.replicate 4097 0) []).wf = false := by decide +kernel

/-! The spec's worked examples. -/

/-- BF16 1.5, -2.25, 0.75 and -0.125 under scale 119 with G of 4, as "Example: four contributors" converts and encodes them (R193, R204). -/
theorem test_blind_conversion : ((formatOf 2).map fun f => [0x3FC0, 0xC010, 0x3F40, 0xBE00].map fun raw => (toInteger 4 119 false none (f.decode false raw)).1) = some [384, -576, 192, -32] ∧
    [384, -576, 192, -32].map sbiEncode = [384, 2147483071, 192, 2147483615] ∧ sbiDecode 2147483615 = -32 ∧ capOf 4 = 268435455 := by decide +kernel

/-- The masks, the masked values, their running sum and the tag of the same example (R200, R201). -/
theorem test_blind_masks : lanesSub [1234567890, 987654321, 2000000000, 55555555] [987654321, 2000000000, 55555555, 1234567890] = [246913569, 1135137968, 1944444445, 968471312] ∧
    lanesAdd [384, 2147483071, 192, 2147483615] [246913569, 1135137968, 1944444445, 968471312] = [246913953, 1135137392, 1944444637, 968471280] ∧
    [246913953, 1135137392, 1944444637, 538159350].foldl (fun a y => (lanesAdd [a] [y]).headD 0) 0 = 1717171685 ∧ lanesSub [1717171685] [1717171717] = [2147483615] ∧
    [246913953, 1135137392, 1944444637, 538159350].map (fun y => tagSum 2 [y]) = [493827906, 122791137, 1741405627, 1076318700] := by decide +kernel

/-- The line of the example in SEAL: its metadata, and the value i of its tweak (R109, R110). -/
theorem test_seal_example : SealedLine.lc ⟨0, 0x9E4A71D3⟩ = 2 ∧ SealedLine.etag ⟨0, 0x9E4A71D3⟩ = 1 ∧ tweakValue 3 0x0131 0x00028C2A4100 = 0x030131000A30A904 := by decide +kernel

/-! One command, one effect. -/

/-- DIR.VERSION reads 0x0003_0001, and a write of DIR leaves it (R466). -/
theorem test_version_reads : (wUp.regRead Reg.DIR_VERSION false).2 = 0x00030001 := by decide +kernel

/-- FAULT_CLEAR takes pending bits away, write-1-to-clear (R412). -/
theorem test_fault_clear : (match exec (.faultClear 11 1) (wAt ((wFaulty [] []).setReg (Reg.FAULT_PEND 11) 3)) with | .next t => t.hw.reg (Reg.FAULT_PEND 11) | _ => 0) = 2 := by decide +kernel

end Sys2Proof.Machine
end

section
/-! SUPPORT. R57, R177: a read data beat that waits. READ_DATA_BEAT holds back any beat that is known to fail while an earlier
beat of its port is unchecked, a switch-compute request's too, so it does not always drive the zeros of REQ_ATYPE 3. -/

namespace Sys2Proof.Machine

/-- The hardware effect of READ_DATA_BEAT is the whole of the command. -/
theorem exec_readDataBeat (p : Fin 8) (tag : BitVec 10) (s : State) :
    exec (.readDataBeat p tag) s = .next { s with hw := s.hw.readDataBeat p tag } := rfl

/-- Whatever was asked, a checked answer with a failed line waits while a transferred beat of its port is unchecked (R57). -/
theorem Hw.readDataBeat_eq_self (h : Hw) (p : Fin 8) (tag : BitVec 10) (t : Txn) (ready : h.readyTxn p tag true = some t)
    (checked : t.checked = true) (failed : t.failed = true) (earlier : ((h.windows p).any fun x => !x.checked) = true) :
    h.readDataBeat p tag = h := by
  simp only [Hw.readDataBeat, ready, checked, failed, earlier, Bool.true_or, Bool.and_self, if_true]

/-- A state that is left as it was has not become one in which an item more has been driven. -/
theorem Hw.ne_emit_dropTxn (h : Hw) (o : Out) (id : Nat) : h ≠ (h.emit o).dropTxn id := by
  intro e
  have out : h.out = h.out ++ [o] := congrArg Hw.out e
  simp at out

/-- A GATHER of REQ_ATYPE 3 under tag 0 of port 0, answered OK with zeros and marked with a stale line. -/
def markedGather : Txn :=
  { id := 0, src := .utp 0, tag := 0, kind := .gather, cls := some .link, slice := 0, region := 0, gen := 0, addr := 0, lines := 4, atype := 3
    deadline := none, grantTime := 0, stage := .ready, data := [], epoch := 0, emin := 0, family := 0, keyed := false, again := none, fill := 0
    verified := false, cover := 0, port := none, pgen := 0, reissues := 0, status := .ok, answer := List.replicate 4 0, checks := [.stale]
    checked := true, sentAt := 0, arg := 0, slot := none }

/-- A LOAD under tag 1 of the same port whose beat has been transferred and is not checked yet. -/
def uncheckedLoad : Txn :=
  { markedGather with id := 1, tag := 1, kind := .load, cls := some .sealed, atype := 0, stage := .window, checks := [.pass], checked := false }

/-- The state after reset with the two outstanding. -/
def gatherBehindLoad : State := { State.reset with hw := { Hw.reset with txns := [uncheckedLoad, markedGather] } }

theorem gatherBehindLoad_readyTxn : gatherBehindLoad.hw.readyTxn 0 0 true = some markedGather := by decide +kernel

/-- In that state the beat is not driven. -/
theorem gatherBehindLoad_readDataBeat : gatherBehindLoad.hw.readDataBeat 0 0 = gatherBehindLoad.hw :=
  Hw.readDataBeat_eq_self _ 0 0 markedGather gatherBehindLoad_readyTxn rfl (by decide) (by decide +kernel)

/-- Refutes O52: its clause on the read data beat does not say that no line of the answer is marked failed. In `gatherBehindLoad`
the switch-compute answer is OK and all zeros, but it carries a failed check, so READ_DATA_BEAT holds it behind the LOAD's
unchecked beat and drives nothing. -/
theorem not_reservedComputeType : ¬ Obligations.ReservedComputeType := by
  unfold Obligations.ReservedComputeType
  rintro ⟨-, beatDriven⟩
  have drives := beatDriven gatherBehindLoad 0 0 markedGather gatherBehindLoad_readyTxn rfl rfl rfl
  rw [Becomes, exec_readDataBeat, gatherBehindLoad_readDataBeat] at drives
  have same : gatherBehindLoad.hw = _ := congrArg State.hw (Host.Outcome.next.inj drives)
  exact Hw.ne_emit_dropTxn _ _ _ same

end Sys2Proof.Machine
end

section
/-! SUPPORT. R193: signed integers and canonical SBI31 lanes. Encoding is reduction mod p; decoding picks the representative of the
residue whose magnitude is at most (p - 1) / 2. -/

namespace Sys2Proof.Machine

theorem sbiCanonical_iff (x : Nat) : sbiCanonical x = true ↔ x < sbiP := decide_eq_true_iff

theorem sbiEncode_cast (v : Int) : (sbiEncode v : Int) = v % (sbiP : Int) :=
  Int.toNat_of_nonneg (Int.emod_nonneg v (by decide))

theorem sbiEncode_lt (v : Int) : sbiEncode v < sbiP := by
  have residue := Int.emod_lt_of_pos v (show (0 : Int) < (sbiP : Int) by decide)
  rw [← sbiEncode_cast] at residue
  exact Int.ofNat_lt.mp residue

theorem sbiDecode_of_le {x : Nat} (low : x ≤ 0x3FFFFFFF) : sbiDecode x = x := if_pos low

theorem sbiDecode_of_lt {x : Nat} (high : 0x3FFFFFFF < x) : sbiDecode x = (x : Int) - (sbiP : Int) := if_neg (Nat.not_le.mpr high)

/-- Either half of the lanes decodes to a number of the lane's own residue. -/
theorem sbiDecode_emod (x : Nat) : sbiDecode x % (sbiP : Int) = (x : Int) % (sbiP : Int) := by
  obtain high | low := Nat.lt_or_ge 0x3FFFFFFF x
  · rw [sbiDecode_of_lt high, Int.sub_emod_right]
  · rw [sbiDecode_of_le low]

/-- Decoding a canonical lane and encoding the number gives the lane back. -/
theorem sbiEncode_sbiDecode {x : Nat} (canonical : x < sbiP) : sbiEncode (sbiDecode x) = x := by
  rw [sbiEncode, sbiDecode_emod, ← Int.natCast_emod, Int.toNat_natCast, Nat.mod_eq_of_lt canonical]

/-- A number that is not negative encodes as itself, in the low half; a negative one as itself plus p, in the high half. -/
theorem sbiDecode_sbiEncode {v : Int} (lower : -0x3FFFFFFF ≤ v) (upper : v ≤ 0x3FFFFFFF) : sbiDecode (sbiEncode v) = v := by
  have p : (sbiP : Int) = 0x7FFFFFFF := rfl
  have encoded := sbiEncode_cast v
  obtain neg | nonneg := Int.lt_or_le v 0
  · rw [← Int.add_emod_right, Int.emod_eq_of_lt (by omega) (by omega)] at encoded
    rw [sbiDecode_of_lt (by omega), encoded, Int.add_sub_cancel]
  · rw [Int.emod_eq_of_lt nonneg (by omega)] at encoded
    rw [sbiDecode_of_le (by omega), encoded]

/-- Settles O53: both bounds are those of `sbiDecode_sbiEncode`, as (p - 1) / 2 is 0x3FFF_FFFF, and a canonical lane decodes by the
half it lies in. -/
theorem signedLanes : Obligations.SignedLanes := by
  unfold Obligations.SignedLanes
  constructor
  · intro v lower upper
    exact ⟨sbiEncode_cast v, (sbiCanonical_iff _).mpr (sbiEncode_lt v), sbiDecode_sbiEncode lower upper⟩
  · intro x canonical
    exact ⟨rfl, sbiEncode_sbiDecode ((sbiCanonical_iff x).mp canonical)⟩

end Sys2Proof.Machine
end

section
/-! SUPPORT. R324 to R331: what changes a fence. A signal writes it, and neither the waiters it wakes nor the event it sets do. -/

namespace Sys2Proof.Machine

section

variable (h : Hw)

@[simp] theorem Hw.fence_setFence_same (f : Nat) (v : Fence) : (h.setFence f v).fence f = v := Tbl.get_put_self _ _ _ _

theorem Hw.fence_setFence_ne {f g : Nat} (v : Fence) (other : g ≠ f) : (h.setFence f v).fence g = h.fence g :=
  Tbl.get_put_ne _ _ _ _ _ other

@[simp] theorem Hw.wakeWaiters_fence (f g : Nat) : (h.wakeWaiters f).fence g = h.fence g := rfl

@[simp] theorem Hw.eventSet_fences (e : Nat) : (h.eventSet e).obj.fences = h.obj.fences := by
  unfold Hw.eventSet
  dsimp only
  split
  · rfl
  · split
    · rfl
    · rw [Hw.icuAssert_obj]; rfl

@[simp] theorem Hw.fenceNotify_fence (f g : Nat) : (h.fenceNotify f).fence g = h.fence g := by
  unfold Hw.fenceNotify
  split
  · rw [Hw.fence, Hw.eventSet_fences, Hw.fence]
  · rfl

@[simp] theorem Hw.fenceRegress_fence (f m g : Nat) : (h.fenceRegress f m).fence g = h.fence g := by
  rw [Hw.fence, Hw.fenceRegress, Hw.raise_obj, Hw.setReg_obj, Hw.incReg_obj, Hw.fence]

@[simp] theorem Fence.signalled_value (v : Fence) (x : BitVec 64) (err : Option CC) : (v.signalled x err).value = x := by
  unfold Fence.signalled
  split <;> rfl

/-- A lower signal leaves every fence as it was (R325). -/
theorem Hw.fenceSignal_fence_of_lower {f : Nat} {x : BitVec 64} (err : Option CC) (m g : Nat) (lower : fenceLower (h.fence f).value x = true) :
    (h.fenceSignal f x err m).fence g = h.fence g := by
  rw [Hw.fenceSignal, if_pos lower, Hw.fenceRegress_fence]

/-- Any other signal is accepted (R325). -/
theorem Hw.fenceSignal_fence_of_not_lower {f : Nat} {x : BitVec 64} (err : Option CC) (m : Nat) (accepted : fenceLower (h.fence f).value x = false) :
    (h.fenceSignal f x err m).fence f = (h.fence f).signalled x err := by
  rw [Hw.fenceSignal, if_neg (Bool.eq_false_iff.mp accepted), Hw.fenceNotify_fence, Hw.wakeWaiters_fence, Hw.fence_setFence_same]

end

/-- The spec's difference mod 2^64 is the difference of the words. -/
theorem toNat_sub_eq_mod (c v : BitVec 64) : (c - v).toNat = (c.toNat + 2 ^ 64 - v.toNat) % 2 ^ 64 := by
  rw [BitVec.toNat_sub, Nat.add_comm c.toNat, Nat.sub_add_comm (Nat.le_of_lt v.isLt)]

theorem fenceReaches_iff (c v : BitVec 64) : fenceReaches c v = true ↔ (c.toNat + 2 ^ 64 - v.toNat) % 2 ^ 64 < 2 ^ 63 := by
  rw [fenceReaches, decide_eq_true_iff, toNat_sub_eq_mod]

theorem fenceLower_iff (c s : BitVec 64) : fenceLower c s = true ↔
    1 ≤ (c.toNat + 2 ^ 64 - s.toNat) % 2 ^ 64 ∧ (c.toNat + 2 ^ 64 - s.toNat) % 2 ^ 64 ≤ 2 ^ 63 - 1 := by
  rw [fenceLower, Bool.and_eq_true, decide_eq_true_iff, decide_eq_true_iff, toNat_sub_eq_mod, Nat.lt_iff_le_pred (by decide)]

/-- Settles O54: the comparisons are those of the words' differences, and a signal that is not lower leaves its own value. -/
theorem fencesCompareSerially : Obligations.FencesCompareSerially := by
  unfold Obligations.FencesCompareSerially
  refine ⟨fenceReaches_iff, fenceLower_iff, fun h f x err m => ⟨fun lower => ?_, fun accepted v => ?_⟩⟩
  · rw [h.fenceSignal_fence_of_lower err m f lower]
  · rw [h.fenceSignal_fence_of_not_lower err m accepted, Fence.signalled_value]

end Sys2Proof.Machine
end

section
/-! SUPPORT. R336, R339: what the close of a slice leaves as it was. Past the halt of its queues, neither an orphaned fence nor the
completion of an operation changes a slice, the state of a queue, a transaction's id or a window, or adds a slot context. -/

namespace Sys2Proof.Machine

/-- What the rest of a slice's close keeps once its queues are HALTED. -/
structure CloseFrame (h u : Hw) : Prop where
  slices : u.obj.slices = h.obj.slices
  queueSt : ∀ n, (u.queue n).st = (h.queue n).st
  queuePre : ∀ n, (u.queue n).pre = (h.queue n).pre
  ctxs : u.sched.ctxs ⊆ h.sched.ctxs
  ids : u.txns.map (·.id) = h.txns.map (·.id)
  windows : u.gate.windows = h.gate.windows

/-- What the completion of an operation keeps: the fences too. -/
structure CompletionFrame (h u : Hw) : Prop extends CloseFrame h u where
  fences : u.obj.fences = h.obj.fences

theorem CloseFrame.trans {h u w : Hw} (a : CloseFrame h u) (b : CloseFrame u w) : CloseFrame h w where
  slices := b.slices.trans a.slices
  queueSt n := (b.queueSt n).trans (a.queueSt n)
  queuePre n := (b.queuePre n).trans (a.queuePre n)
  ctxs := List.Subset.trans b.ctxs a.ctxs
  ids := b.ids.trans a.ids
  windows := b.windows.trans a.windows

theorem CompletionFrame.trans {h u w : Hw} (a : CompletionFrame h u) (b : CompletionFrame u w) : CompletionFrame h w where
  toCloseFrame := a.toCloseFrame.trans b.toCloseFrame
  fences := b.fences.trans a.fences

/-- What leaves the units concerned as they were is within the frame, whatever it does to the registers and to the other units. -/
theorem CompletionFrame.of_eq {h u : Hw} (obj : u.obj = h.obj) (cfe : u.cfe = h.cfe) (sched : u.sched = h.sched) (txns : u.txns = h.txns)
    (gate : u.gate = h.gate) : CompletionFrame h u where
  slices := by rw [obj]
  queueSt n := by rw [Hw.queue, cfe, Hw.queue]
  queuePre n := by rw [Hw.queue, cfe, Hw.queue]
  ctxs := by rw [sched]; exact List.Subset.refl _
  ids := by rw [txns]
  windows := by rw [gate]
  fences := by rw [obj]

theorem CompletionFrame.refl (h : Hw) : CompletionFrame h h := .of_eq rfl rfl rfl rfl rfl

theorem CloseFrame.foldl {α : Type} {g : Hw → α → Hw} (step : ∀ h a, CloseFrame h (g h a)) (l : List α) (h : Hw) : CloseFrame h (l.foldl g h) := by
  induction l generalizing h with
  | nil => exact (CompletionFrame.refl h).toCloseFrame
  | cons a l ih => exact (step h a).trans (ih (g h a))

theorem CompletionFrame.foldl {α : Type} {g : Hw → α → Hw} (step : ∀ h a, CompletionFrame h (g h a)) (l : List α) (h : Hw) :
    CompletionFrame h (l.foldl g h) := by
  induction l generalizing h with
  | nil => exact .refl h
  | cons a l ih => exact (step h a).trans (ih (g h a))

theorem CompletionFrame.ite {h u w : Hw} {p : Prop} [Decidable p] (yes : CompletionFrame h u) (no : CompletionFrame h w) :
    CompletionFrame h (if p then u else w) := by
  split
  · exact yes
  · exact no

variable (h : Hw)

theorem Hw.setReg_frame (a : Nat) (w : Word) : CompletionFrame h (h.setReg a w) := .of_eq rfl rfl rfl rfl rfl

theorem Hw.incReg_frame (a : Nat) : CompletionFrame h (h.incReg a) := .of_eq rfl rfl rfl rfl rfl

theorem Hw.addReg_frame (a n : Nat) : CompletionFrame h (h.addReg a n) := .of_eq rfl rfl rfl rfl rfl

theorem Hw.tally_frame (k n : Nat) : CompletionFrame h (h.tally k n) := .of_eq rfl rfl rfl rfl rfl

theorem Hw.setIrq_frame (p k : Nat) : CompletionFrame h (h.setIrq p k) :=
  .of_eq (Hw.setIrq_obj ..) (Hw.setIrq_cfe ..) (Hw.setIrq_sched ..) (Hw.setIrq_txns ..) (Hw.setIrq_gate ..)

theorem Hw.raise_frame (source detail w5 w6 w7 : Nat) : CompletionFrame h (h.raise source detail w5 w6 w7) :=
  .of_eq (Hw.raise_obj ..) (Hw.raise_cfe ..) (Hw.raise_sched ..) (Hw.raise_txns ..) (Hw.raise_gate ..)

/-! The completion of an operation (R271 to R284). -/

@[simp] theorem Hw.queue_setQueue_same (n : Nat) (q : Queue) : (h.setQueue n q).queue n = q := Tbl.get_put_self _ _ _ _

theorem Hw.queue_setQueue_ne {n m : Nat} (q : Queue) (other : m ≠ n) : (h.setQueue n q).queue m = h.queue m :=
  Tbl.get_put_ne _ _ _ _ _ other

theorem Hw.setQueue_frame {n : Nat} {q : Queue} (st : q.st = (h.queue n).st) (pre : q.pre = (h.queue n).pre) :
    CompletionFrame h (h.setQueue n q) where
  slices := rfl
  queueSt m := by
    by_cases same : m = n
    · rw [same, Hw.queue_setQueue_same, st]
    · rw [Hw.queue_setQueue_ne h q same]
  queuePre m := by
    by_cases same : m = n
    · rw [same, Hw.queue_setQueue_same, pre]
    · rw [Hw.queue_setQueue_ne h q same]
  ctxs := List.Subset.refl _
  ids := rfl
  windows := rfl
  fences := rfl

theorem Hw.modOp_frame (n i : Nat) (f : QOp → QOp) : CompletionFrame h (h.modOp n i f) := by
  unfold Hw.modOp
  dsimp only
  split
  · exact h.setQueue_frame rfl rfl
  · exact .refl h

theorem Hw.dmWrite_frame (use : DmUse) (q : Option Nat) (table addr : Nat) (data : List Byte) :
    CompletionFrame h (h.dmWrite use q table addr data) :=
  .of_eq (Hw.dmWrite_obj ..) (Hw.dmWrite_cfe ..) (Hw.dmWrite_sched ..) (Hw.dmWrite_txns ..) (Hw.dmWrite_gate ..)

theorem Hw.droppedWrite_frame (n i : Nat) : CompletionFrame h (h.droppedWrite n i) := by
  unfold Hw.droppedWrite
  split
  · exact .refl h
  · split
    · exact (h.modOp_frame ..).trans (Hw.dmWrite_frame ..)
    · exact .refl h

theorem Hw.eraseCopies_frame (k : Nat) : CompletionFrame h (h.eraseCopies k) := by
  unfold Hw.eraseCopies
  refine (CompletionFrame.foldl (fun u n => ?_) _ h).trans (.of_eq rfl rfl rfl rfl rfl)
  exact .of_eq rfl rfl rfl rfl rfl

theorem Hw.eraseSlot_frame (k : Nat) : CompletionFrame h (h.eraseSlot k) := by
  unfold Hw.eraseSlot
  split
  · exact .refl h
  · have slot : CompletionFrame h (h.setSlot k Slot.free) := .of_eq rfl rfl rfl rfl rfl
    exact (slot.trans (Hw.eraseCopies_frame _ k)).trans (.of_eq rfl rfl rfl rfl rfl)

theorem Hw.eraseSlots_frame (ks : List Nat) : CompletionFrame h (h.eraseSlots ks) := .foldl Hw.eraseSlot_frame ks h

/-- An operation gives up slot contexts and takes none (R298). -/
theorem Hw.dropRun_frame (n i : Nat) (aborted : Bool) : CompletionFrame h (h.dropRun n i aborted) :=
  (h.eraseSlots_frame _).trans
    { slices := rfl, queueSt := fun _ => rfl, queuePre := fun _ => rfl, ctxs := List.filter_sublist.subset, ids := rfl, windows := rfl, fences := rfl }

theorem Hw.blindLast_frame (n i : Nat) (cc : CC) (detail : Nat) (isCfe : Bool) : CompletionFrame h (h.blindLast n i cc detail isCfe) := by
  unfold Hw.blindLast
  split
  · exact .refl h
  · exact (h.setReg_frame ..).trans (Hw.setIrq_frame ..)

theorem Hw.shapeLast_frame (n i opcode : Nat) (cc : CC) : CompletionFrame h (h.shapeLast n i opcode cc) := by
  unfold Hw.shapeLast
  extract_lets run mode command counted failed
  have counts : CompletionFrame h counted := ((h.setReg_frame ..).trans (Hw.incReg_frame ..)).trans (Hw.setIrq_frame ..)
  have fails : CompletionFrame h failed := counts.trans (.ite (.refl _) (Hw.setIrq_frame ..))
  clear_value failed run
  split
  · exact fails
  · extract_lets dropped
    have drops : CompletionFrame h dropped := fails.trans (.ite ((Hw.addReg_frame ..).trans (Hw.setIrq_frame ..)) (.refl _))
    split
    · exact drops.trans (Hw.setReg_frame ..)
    · exact drops

theorem Hw.copyFail_frame (n : Nat) (o : QOp) : CompletionFrame h (h.copyFail n o) :=
  ((((h.incReg_frame ..).trans (Hw.setReg_frame ..)).trans (Hw.setReg_frame ..)).trans (Hw.setReg_frame ..)).trans (Hw.raise_frame ..)

theorem Hw.unitDone_frame (n i : Nat) (o : QOp) (cc : CC) (detail : Nat) (isCfe : Bool) : CompletionFrame h (h.unitDone n i o cc detail isCfe) := by
  have elsewhere : ∀ u : Hw, u.obj = h.obj → u.cfe = h.cfe → u.sched = h.sched → u.txns = h.txns → u.gate.windows = h.gate.windows → CompletionFrame h u :=
    fun u obj cfe sched txns windows => { CompletionFrame.of_eq (u := { u with gate := h.gate }) obj cfe sched txns rfl with windows := windows }
  unfold Hw.unitDone
  exact .ite (h.copyFail_frame n o) <| .ite ((h.blindLast_frame ..).trans (Hw.dropRun_frame ..)) <|
    .ite ((h.shapeLast_frame ..).trans (Hw.dropRun_frame ..)) <| .ite (elsewhere _ rfl rfl rfl rfl rfl) <|
    .ite (elsewhere _ rfl rfl rfl rfl rfl) <| .ite (elsewhere _ rfl rfl rfl rfl rfl) (.refl h)

/-- A transfer left unanswered keeps its id, whatever it becomes (R180, R284). -/
theorem Hw.txnsLeft_frame (o : QOp) : CompletionFrame h (h.txnsLeft o) where
  slices := rfl
  queueSt _ := rfl
  queuePre _ := rfl
  ctxs := List.Subset.refl _
  ids := by
    rw [Hw.txnsLeft, List.map_map]
    refine List.map_congr_left fun t _ => ?_
    dsimp only [Function.comp]
    split
    · rfl
    · split <;> rfl
  windows := rfl
  fences := rfl

theorem Hw.opDone_frame (n i : Nat) (cc : CC) (detail : Nat) (isCfe : Bool) (result : Word) : CompletionFrame h (h.opDone n i cc detail isCfe result) := by
  unfold Hw.opDone
  split
  · exact .refl h
  · refine .ite (.refl h) ?_
    have recorded := fun f => ((h.droppedWrite_frame n i).trans (Hw.modOp_frame _ n i f)).trans (Hw.incReg_frame _ Reg.CFE_OPS_CNT)
    have orphaned : ∀ u : Hw, CompletionFrame u (u.dmOrphan n i) := fun u => .of_eq rfl rfl rfl rfl rfl
    have released := fun f o => (((recorded f).trans (orphaned _)).trans (Hw.txnsLeft_frame _ o)).trans (Hw.unitDone_frame _ n i o cc detail isCfe)
    exact ((released _ _).trans (.ite (Hw.tally_frame ..) (.refl _))).trans (Hw.tally_frame ..)

theorem Hw.skipRest_frame (n : Nat) : CompletionFrame h (h.skipRest n) := by
  unfold Hw.skipRest
  split
  · exact .refl h
  · refine .trans (h.setQueue_frame ?_ ?_) (.foldl (fun u i => ?_) _ _)
    · rfl
    · rfl
    · split
      · exact .ite (Hw.opDone_frame ..) (.refl u)
      · exact .refl u

/-- An operation that is aborted makes no queue guilty, so that its completion stays within the frame (R284). -/
theorem Hw.opUnitEnd_aborted_frame (n i result : Nat) : CompletionFrame h (h.opUnitEnd n i .aborted result) := by
  unfold Hw.opUnitEnd Hw.opComplete
  split
  · exact .refl h
  · refine .ite (.refl h) (.trans (h.droppedWrite_frame n i) (.ite (Hw.modOp_frame ..) ?_))
    dsimp only
    rw [if_neg (by decide), if_neg (fun refused => nomatch refused.1)]
    exact .trans (Hw.opDone_frame ..) (.ite (Hw.skipRest_frame ..) (.refl _))

theorem Hw.collAbort_frame (p : Ctx → Bool) : CompletionFrame h (h.collAbort p) := by
  unfold Hw.collAbort
  exact .foldl (fun u (c : Ctx) => u.opUnitEnd_aborted_frame c.queue c.op 5) _ h

theorem Hw.closingAbort_frame (p : Nat → Bool) : CompletionFrame h (h.closingAbort p) := .of_eq rfl rfl rfl rfl rfl

/-- Slot contexts are removed, and none is added (R336). -/
theorem Hw.dropSlotCtxs_frame (s : Nat) : CompletionFrame h (h.dropSlotCtxs s) where
  slices := rfl
  queueSt _ := rfl
  queuePre _ := rfl
  ctxs := List.filter_sublist.subset
  ids := rfl
  windows := rfl
  fences := rfl

end Sys2Proof.Machine
end

section
/-! SUPPORT. R335, R336, R339: the close of a slice, step by step: its queues are halted, its slot contexts removed, its fences
orphaned and its collectives aborted. -/

namespace Sys2Proof.Machine

/-- A fold whose step changes, of what `view` shows, the visited index alone, and there by an idempotent change, makes that change
once at every index that it visits. -/
theorem foldl_visits {β : Type} (view : Hw → Nat → β) (g : Hw → Nat → Hw) (change : β → β) (again : ∀ v, change (change v) = change v)
    (step : ∀ h a b, view (g h a) b = if b = a then change (view h b) else view h b) (l : List Nat) (h : Hw) (b : Nat) :
    view (l.foldl g h) b = if b ∈ l then change (view h b) else view h b := by
  induction l generalizing h with
  | nil => rfl
  | cons a l ih =>
    rw [List.foldl_cons, ih, step]
    by_cases here : b = a <;> by_cases later : b ∈ l <;> simp [here, later, again]

/-- A listed value is a pair of the table. -/
theorem Tbl.mem_of_get_ne {β : Type} (t : Tbl β) (d : β) (k : Nat) (listed : t.get d k ≠ d) : (k, t.get d k) ∈ t := by
  induction t with
  | nil => exact absurd rfl listed
  | cons p rest ih =>
    obtain ⟨i, v⟩ := p
    unfold Tbl.get at listed ⊢
    split at listed
    next same => rw [if_pos same, same]; exact List.mem_cons_self
    next other => rw [if_neg other]; exact List.mem_cons_of_mem _ (ih listed)

/-- A change of every listed value that keeps the default changes what the table holds at each index. -/
theorem Tbl.get_map_snd {β : Type} (t : Tbl β) (d : β) (f : β → β) (keeps : f d = d) (k : Nat) :
    Tbl.get (t.map fun p => (p.1, f p.2)) d k = f (t.get d k) := by
  induction t with
  | nil => exact keeps.symm
  | cons p rest ih =>
    rw [List.map_cons, Tbl.get, Tbl.get, ih]
    split <;> rfl

variable (h : Hw)

/-! The halt of its queues. -/

/-- A queue of a slice that is closed (R336, R341). -/
def Queue.halted (q : Queue) : Queue := { q with st := .halted, pre := none, idleArmed := false }

theorem Hw.haltQueues_queue (s n : Nat) : (h.haltQueues s).queue n = if n ∈ h.queuesOf s then (h.queue n).halted else h.queue n := by
  refine foldl_visits Hw.queue _ Queue.halted (fun _ => rfl) (fun u a b => ?_) (h.queuesOf s) h n
  split
  next same => rw [same, Hw.queue_setQueue_same]; rfl
  next other => exact Hw.queue_setQueue_ne u _ other

@[simp] theorem Hw.haltQueues_regs (s : Nat) : (h.haltQueues s).regs = h.regs := by
  unfold Hw.haltQueues; exact foldl_keeps (·.regs) _ (fun _ _ => Hw.setQueue_regs _ _ _) _ _
@[simp] theorem Hw.haltQueues_obj (s : Nat) : (h.haltQueues s).obj = h.obj := by
  unfold Hw.haltQueues; exact foldl_keeps (·.obj) _ (fun _ _ => Hw.setQueue_obj _ _ _) _ _
@[simp] theorem Hw.haltQueues_txns (s : Nat) : (h.haltQueues s).txns = h.txns := by
  unfold Hw.haltQueues; exact foldl_keeps (·.txns) _ (fun _ _ => Hw.setQueue_txns _ _ _) _ _
@[simp] theorem Hw.haltQueues_gate (s : Nat) : (h.haltQueues s).gate = h.gate := by
  unfold Hw.haltQueues; exact foldl_keeps (·.gate) _ (fun _ _ => Hw.setQueue_gate _ _ _) _ _

/-! The removal of its slot contexts. -/

/-- A slot context that remains is of another slice's queue (R336). -/
theorem Hw.dropSlotCtxs_ctxs {s : Nat} {x : SlotCtx} (remains : x ∈ (h.dropSlotCtxs s).sched.ctxs) : h.queueSlice x.queue ≠ s := by
  obtain ⟨-, kept⟩ := List.mem_filter.mp (show x ∈ h.sched.ctxs.filter fun c => h.queueSlice c.queue != s from remains)
  exact bne_iff_ne.mp kept

/-! The orphaning of its fences. -/

/-- A fence that is orphaned (R328, R339). -/
def Fence.orphaned (v : Fence) : Fence := if v.st = .error ∨ v.st = .free then v else { v with st := .error, status := .orphaned }

theorem Fence.orphaned_orphaned (v : Fence) : v.orphaned.orphaned = v.orphaned := by
  by_cases spared : v.st = .error ∨ v.st = .free <;> simp [Fence.orphaned, spared]

theorem Fence.orphaned_of_allocated {v : Fence} (allocated : v.allocated = true) :
    v.orphaned.st = .error ∧ (v.st ≠ .error → v.orphaned.status = .orphaned) := by
  have taken : v.st ≠ .free := bne_iff_ne.mp allocated
  by_cases failed : v.st = .error <;> simp [Fence.orphaned, failed, taken]

theorem Hw.fenceOrphan_fence (f g : Nat) : (h.fenceOrphan f).fence g = if g = f then (h.fence g).orphaned else h.fence g := by
  unfold Hw.fenceOrphan
  dsimp only
  by_cases spared : (h.fence f).st = .error ∨ (h.fence f).st = .free
  · rw [if_pos spared]
    split
    next same => rw [same, Fence.orphaned, if_pos spared]
    next => rfl
  · rw [if_neg spared, Hw.fenceNotify_fence, Hw.wakeWaiters_fence]
    split
    next same => rw [same, Hw.fence_setFence_same, Fence.orphaned, if_neg spared]
    next other => rw [Hw.fence_setFence_ne h _ other]

/-- Whatever a slice owns is orphaned with it (R339). -/
theorem Hw.orphanFences_fence {s f : Nat} (allocated : (h.fence f).allocated = true) (owned : (h.fence f).owner = s) :
    (h.orphanFences s).fence f = (h.fence f).orphaned := by
  have listed : (f, h.fence f) ∈ h.obj.fences := Tbl.mem_of_get_ne _ _ _ fun unused => by
    rw [Hw.fence, unused] at allocated; exact absurd allocated (by decide)
  have visited : f ∈ (h.obj.fences.filter fun p => p.2.allocated && (p.2.owner == s || (p.2.shares s && bit p.2.cfg 21))).map (·.1) :=
    List.mem_map.mpr ⟨_, List.mem_filter.mpr ⟨listed, by simp [allocated, owned]⟩, rfl⟩
  rw [Hw.orphanFences, ← List.foldl_map (f := fun p : Nat × Fence => p.1) (g := Hw.fenceOrphan),
    foldl_visits Hw.fence Hw.fenceOrphan Fence.orphaned Fence.orphaned_orphaned Hw.fenceOrphan_fence, if_pos visited]

/-- A queue whose FENCE_WAITs have met a change of a fence (R326). -/
def Queue.woken (q : Queue) (f : Nat) (v : Fence) : Queue :=
  { q with run := q.run.map fun b => { b with ops := b.ops.map fun o => o.wake f v } }

theorem Hw.wakeWaiters_queue (f n : Nat) : (h.wakeWaiters f).queue n = (h.queue n).woken f (h.fence f) :=
  Tbl.get_map_snd h.cfe.queues Queue.off (fun q => q.woken f (h.fence f)) rfl n

theorem Hw.wakeWaiters_frame (f : Nat) : CloseFrame h (h.wakeWaiters f) where
  slices := rfl
  queueSt n := by rw [Hw.wakeWaiters_queue]; rfl
  queuePre n := by rw [Hw.wakeWaiters_queue]; rfl
  ctxs := List.Subset.refl _
  ids := rfl
  windows := rfl

theorem Hw.setFence_frame (f : Nat) (v : Fence) : CloseFrame h (h.setFence f v) where
  slices := rfl
  queueSt _ := rfl
  queuePre _ := rfl
  ctxs := List.Subset.refl _
  ids := rfl
  windows := rfl

theorem Hw.setEvent_frame (e : Nat) (v : Event) : CloseFrame h (h.setEvent e v) where
  slices := rfl
  queueSt _ := rfl
  queuePre _ := rfl
  ctxs := List.Subset.refl _
  ids := rfl
  windows := rfl

theorem Hw.icuAssert_frame (k : Nat) : CompletionFrame h (h.icuAssert k) :=
  .of_eq (Hw.icuAssert_obj ..) (Hw.icuAssert_cfe ..) (Hw.icuAssert_sched ..) (Hw.icuAssert_txns ..) (Hw.icuAssert_gate ..)

theorem Hw.eventSet_frame (e : Nat) : CloseFrame h (h.eventSet e) := by
  unfold Hw.eventSet
  dsimp only
  split
  · exact (CompletionFrame.refl h).toCloseFrame
  · split
    · exact h.setEvent_frame ..
    · exact (h.setEvent_frame ..).trans (Hw.icuAssert_frame ..).toCloseFrame

theorem Hw.fenceNotify_frame (f : Nat) : CloseFrame h (h.fenceNotify f) := by
  unfold Hw.fenceNotify
  split
  · exact h.eventSet_frame _
  · exact (CompletionFrame.refl h).toCloseFrame

theorem Hw.fenceOrphan_frame (f : Nat) : CloseFrame h (h.fenceOrphan f) := by
  unfold Hw.fenceOrphan
  dsimp only
  split
  · exact (CompletionFrame.refl h).toCloseFrame
  · exact ((h.setFence_frame ..).trans (Hw.wakeWaiters_frame ..)).trans (Hw.fenceNotify_frame ..)

theorem Hw.orphanFences_frame (s : Nat) : CloseFrame h (h.orphanFences s) := by
  unfold Hw.orphanFences
  exact .foldl (fun u (p : Nat × Fence) => u.fenceOrphan_frame p.1) _ h

/-! The slice itself. -/

@[simp] theorem Hw.slice_setSlice_same (s : Nat) (v : Slice) : (h.setSlice s v).slice s = v := Tbl.get_put_self _ _ _ _

theorem Hw.slice_setSlice_ne {s j : Nat} (v : Slice) (other : j ≠ s) : (h.setSlice s v).slice j = h.slice j :=
  Tbl.get_put_ne _ _ _ _ _ other

/-- The slice as its drain begins (R336). -/
def Hw.closing (h : Hw) (s : Nat) (down : Bool) : Slice :=
  { h.slice s with st := if down then .tearing else .removing, step := 2, refusal := 0, since := h.clk.now }

/-- The block when the slice's drain has begun and its queues are halted. -/
def Hw.closingHalted (h : Hw) (s : Nat) (down : Bool) : Hw := (h.setSlice s (h.closing s down)).haltQueues s

variable (s : Nat) (down : Bool)

/-- The abort of the slice's collectives, by which its close ends, is the completion of operations (R217). -/
theorem Hw.closeSlice_completionFrame : CompletionFrame (((h.closingHalted s down).dropSlotCtxs s).orphanFences s) (h.closeSlice s down) := by
  unfold Hw.closeSlice
  exact (Hw.collAbort_frame ..).trans (Hw.closingAbort_frame ..)

theorem Hw.closeSlice_frame : CloseFrame (h.closingHalted s down) (h.closeSlice s down) :=
  ((Hw.dropSlotCtxs_frame _ s).toCloseFrame.trans (Hw.orphanFences_frame _ s)).trans (h.closeSlice_completionFrame s down).toCloseFrame

theorem Hw.closeSlice_slice : (h.closeSlice s down).slice s = h.closing s down := by
  rw [Hw.slice, (h.closeSlice_frame s down).slices, Hw.closingHalted, Hw.haltQueues_obj]
  exact Hw.slice_setSlice_same ..

theorem Hw.closeSlice_slice_ne {j : Nat} (other : j ≠ s) : (h.closeSlice s down).slice j = h.slice j := by
  rw [Hw.slice, (h.closeSlice_frame s down).slices, Hw.closingHalted, Hw.haltQueues_obj]
  exact Hw.slice_setSlice_ne h _ other

theorem Hw.closingHalted_queue (n : Nat) : (h.closingHalted s down).queue n = if n ∈ h.queuesOf s then (h.queue n).halted else h.queue n :=
  Hw.haltQueues_queue ..

/-- Its queues are HALTED without their preloads (R336). -/
theorem Hw.closeSlice_queue_of_mem {n : Nat} (own : n ∈ h.queuesOf s) :
    ((h.closeSlice s down).queue n).st = .halted ∧ ((h.closeSlice s down).queue n).pre = none := by
  rw [(h.closeSlice_frame s down).queueSt, (h.closeSlice_frame s down).queuePre, Hw.closingHalted_queue, if_pos own]
  exact ⟨rfl, rfl⟩

theorem Hw.closeSlice_queueSt_of_not_mem {n : Nat} (other : n ∉ h.queuesOf s) : ((h.closeSlice s down).queue n).st = (h.queue n).st := by
  rw [(h.closeSlice_frame s down).queueSt, Hw.closingHalted_queue, if_neg other]

/-- No slot context of the slice is left (R336). -/
theorem Hw.closeSlice_ctxs {x : SlotCtx} (remains : x ∈ (h.closeSlice s down).sched.ctxs) : h.queueSlice x.queue ≠ s := by
  have later := (Hw.orphanFences_frame _ s).ctxs ((h.closeSlice_completionFrame s down).ctxs remains)
  have foreign := Hw.dropSlotCtxs_ctxs _ later
  rwa [Hw.queueSlice, Hw.regF, Hw.reg, Hw.closingHalted, Hw.haltQueues_regs] at foreign

/-- A fence that the slice owns is orphaned (R339). -/
theorem Hw.closeSlice_fence {f : Nat} (allocated : (h.fence f).allocated = true) (owned : (h.fence f).owner = s) :
    ((h.closeSlice s down).fence f).st = .error ∧ ((h.fence f).st ≠ .error → ((h.closeSlice s down).fence f).status = .orphaned) := by
  have before : ((h.closingHalted s down).dropSlotCtxs s).fence f = h.fence f := by
    rw [Hw.fence, (Hw.dropSlotCtxs_frame _ s).fences, Hw.closingHalted, Hw.haltQueues_obj]; rfl
  have after : (h.closeSlice s down).fence f = (h.fence f).orphaned := by
    rw [Hw.fence, (h.closeSlice_completionFrame s down).fences, ← Hw.fence, Hw.orphanFences_fence, before]
    · rw [before, allocated]
    · rw [before, owned]
  rw [after]
  exact Fence.orphaned_of_allocated allocated

theorem Hw.closeSlice_ids : (h.closeSlice s down).txns.map (·.id) = h.txns.map (·.id) := by
  rw [(h.closeSlice_frame s down).ids, Hw.closingHalted, Hw.haltQueues_txns]; rfl

theorem Hw.closeSlice_windows : (h.closeSlice s down).gate.windows = h.gate.windows := by
  rw [(h.closeSlice_frame s down).windows, Hw.closingHalted, Hw.haltQueues_gate]; rfl

end Sys2Proof.Machine
end

section
/-! SUPPORT. R335: for which slices REMOVE and TEARDOWN are accepted. -/

namespace Sys2Proof.Machine

@[simp] theorem Hw.emit_slice (h : Hw) (o : Out) (j : Nat) : (h.emit o).slice j = h.slice j := rfl
@[simp] theorem Hw.emit_queue (h : Hw) (o : Out) (n : Nat) : (h.emit o).queue n = h.queue n := rfl
@[simp] theorem Hw.emit_fence (h : Hw) (o : Out) (f : Nat) : (h.emit o).fence f = h.fence f := rfl

/-- SLICE.CMD REMOVE, or TEARDOWN where `down`. -/
def closeCmd (down : Bool) : Sys2Proof.Instr := if down then .teardown else .remove

/-- What the command does to the selected slice. -/
def Hw.closeSelected (h : Hw) (down : Bool) : Hw := if down then h.teardownSlice else h.removeSlice

/-- The command of a slice is an access of the Register Port. -/
theorem exec_closeCmd (down : Bool) (s : State) : exec (closeCmd down) s = .next { s with hw := s.hw.access (·.closeSelected down) } := by
  cases down <;> rfl

theorem Hw.access_of_ready {h : Hw} (f : Hw → Hw) (ready : h.prime.ready = true) : h.access f = (f h).emit (.regAnswer 0 0) := if_pos ready

/-- The command leaves what its effect on the selected slice is, once it is answered. -/
theorem closeCmd_writesOk {s : State} {down : Bool} {u : Hw} (effect : s.hw.closeSelected down = u) : WritesOk (closeCmd down) s u := by
  intro ready
  rw [Becomes, exec_closeCmd, Hw.access_of_ready _ ready, effect]

section

variable {h : Hw}

theorem Hw.closeSelected_of_active {down : Bool} (active : (h.slice (h.regF Reg.SLICE_SEL 0 10)).st = .active) :
    h.closeSelected down = h.closeSlice (h.regF Reg.SLICE_SEL 0 10) down := by
  cases down
  case false => simp only [Hw.closeSelected, Bool.false_eq_true, if_false, Hw.removeSlice, active]
  case true => simp only [Hw.closeSelected, if_true, Hw.teardownSlice, active]

theorem Hw.closeSelected_of_dead (dead : (h.slice (h.regF Reg.SLICE_SEL 0 10)).st = .dead) :
    h.closeSelected false = (h.setSlice (h.regF Reg.SLICE_SEL 0 10) { h.slice (h.regF Reg.SLICE_SEL 0 10) with refusal := 0 }).finishSlice
      (h.regF Reg.SLICE_SEL 0 10) false := by
  simp only [Hw.closeSelected, Bool.false_eq_true, if_false, Hw.removeSlice, dead]

theorem Hw.closeSelected_of_refused {down : Bool} (inactive : (h.slice (h.regF Reg.SLICE_SEL 0 10)).st ≠ .active)
    (closed : down = true ∨ (h.slice (h.regF Reg.SLICE_SEL 0 10)).st ≠ .dead) :
    h.closeSelected down = h.setSlice (h.regF Reg.SLICE_SEL 0 10) { h.slice (h.regF Reg.SLICE_SEL 0 10) with refusal := 1 } := by
  cases down
  case false =>
    have lives := closed.resolve_left Bool.false_ne_true
    change h.removeSlice = _
    unfold Hw.removeSlice
    dsimp only
    split
    next active => exact absurd active inactive
    next dead => exact absurd dead lives
    next => rfl
  case true => simp only [Hw.closeSelected, if_true, Hw.teardownSlice, if_neg inactive]

end

/-- Settles O38: a slice that is neither ACTIVE nor a DEAD one to be removed is refused, a DEAD one is finished, and an ACTIVE one is
closed, with what each step of `Hw.closeSlice` does and what the later steps keep of it. -/
theorem sliceClosed : Obligations.SliceClosed := by
  unfold Obligations.SliceClosed
  intro s down
  refine ⟨fun inactive closed => closeCmd_writesOk (Hw.closeSelected_of_refused inactive closed),
    fun dead => closeCmd_writesOk (down := false) (Hw.closeSelected_of_dead dead), fun active ready => ?_⟩
  refine ⟨_, closeCmd_writesOk (Hw.closeSelected_of_active active) ready, rfl, rfl, ?_⟩
  generalize s.hw.regF Reg.SLICE_SEL 0 10 = i
  simp only [Hw.emit_slice, Hw.emit_queue, Hw.emit_fence, Hw.emit_sched, Hw.emit_txns, Hw.emit_gate]
  exact ⟨s.hw.closeSlice_slice i down, fun j other => s.hw.closeSlice_slice_ne i down other, fun n own => s.hw.closeSlice_queue_of_mem i down own,
    fun n other => s.hw.closeSlice_queueSt_of_not_mem i down other, fun x remains => s.hw.closeSlice_ctxs i down remains,
    fun f allocated owned => s.hw.closeSlice_fence i down allocated owned,
    s.hw.closeSlice_ids i down, s.hw.closeSlice_windows i down⟩

end Sys2Proof.Machine
end
